-- ==== Sys2Proof/Word.lean ====
section
/-! DEFINITION. Word.lean: the word types of the model and the sparse map it keeps indexed state in. -/

namespace Sys2Proof

/-- A byte of memory, flash, a frame or a record. -/
abbrev Byte := BitVec 8

/-- A 32-bit set-up register or index. -/
abbrev W32 := BitVec 32

/-- The width in which every set-up register is held (32-bit registers use the low half). -/
abbrev W64 := BitVec 64

/-- A sparse map from numbers to values: a list of pairs, keys strictly rising (`KMap.put` keeps it so). -/
abbrev KMap (α : Type) := List (Nat × α)

end Sys2Proof
end

