-- ==== Sys2Proof/Syntax.lean ====
section
/-! DEFINITION. Syntax.lean: the commands of the block, one constructor for each row of the opcode table, with the operands each carries. -/

namespace Sys2Proof

/-- A master that makes accesses; R544 gives each its world. -/
inductive Master where
  /-- Application-cluster core `n`. -/
  | core (n : Nat)
  /-- The management ROM, in S2 (R68). -/
  | mgmtRom
  /-- Voxsar on the management complex. -/
  | mgmt
  /-- A core of lockstep pair `p` of the safety island. -/
  | island (p : Nat)
  /-- The line judge (R434). -/
  | lineJudge
  /-- An inbound PCIe request: port, and whether it comes through a virtual function. -/
  | pcie (port : Nat) (virtual : Bool)
  /-- Hub DMA channel `c`. -/
  | dma (c : Nat)
  /-- An engine of tile `t`. -/
  | tile (t : Nat)
  /-- The queue engine, a copy engine, the plan loader or a SEND read, for instance `i`. -/
  | qe (i : Nat)
  /-- Display pipe `p`. -/
  | display (p : Nat)
  /-- Camera input `c`. -/
  | camera (c : Nat)
  /-- Codec session `s`. -/
  | codec (s : Nat)
  /-- Gateway receive ring `r`. -/
  | gwRing (r : Nat)
  /-- The key-value page manager. -/
  | pageMgr
  /-- The gateway's table unit. -/
  | gwTables
  /-- A graphics bin pool. -/
  | binPool
  /-- Inbound Ivmund traffic from module `m`, in the sender's world. -/
  | peer (m : Nat) (secure : Bool)
  deriving DecidableEq, Repr

/-- What an access does. -/
inductive AccessKind where
  | read
  | write
  deriving DecidableEq, Repr

/-- The header of a received boot-fetch message (R73); its TYPE is the command's. -/
structure FetchHdr where
  magic : Nat
  version : Nat
  session : Nat
  block : Nat
  length : Nat
  deriving DecidableEq, Repr

/-- A received boot-fetch message: the sender's IPv6 address, the header, and how many bytes of payload follow it (R73, R74). -/
structure FetchMsg where
  src : List Byte
  h : FetchHdr
  payload : Nat
  deriving DecidableEq, Repr

/-- What the warm-up leaves: its length in µs, and the router links, each as its tile and its number, that the first training leaves down
(R185, R189, R441). -/
structure Warmup where
  micros : Nat
  untrained : List (Nat × Nat)
  deriving DecidableEq, Repr

/-- What the ECC of a memory finds in a read. -/
inductive Ecc where
  | clean
  | corrected
  | uncorrectable
  deriving DecidableEq, Repr

/-- An access of a lockstep core as the compare buffer holds it (R437). -/
structure LockAccess where
  store : Bool
  addr : Nat
  data : List Byte
  mask : Nat
  attrs : Nat
  deriving DecidableEq, Repr

/-- What the comparator of a lockstep pair meets (R437). -/
inductive LockFault where
  /-- The accesses of the main core and the checker. -/
  | store (main checker : LockAccess)
  /-- An access of the main core, and the cycles for which the checker has not made it. -/
  | timeout (main : LockAccess) (cycles : Nat)
  /-- The register-file writes of 64 retired instructions on each core: destination index and value. -/
  | checkpoint (main checker : List (Nat × W64))
  deriving DecidableEq, Repr

/-- A doorbell that the queue engine or a codec watches (R101, R488). -/
inductive DbTarget where
  | ring (inst r : Nat)
  | session (s : Nat)
  deriving DecidableEq, Repr

/-- The load of a plan: a command's, or the reload of a registered pinned plan (R330, R345, R348). -/
inductive LoadRef where
  | command (id : Nat)
  | reload (inst planId : Nat)
  deriving DecidableEq, Repr

/-- What is found at an Over edge: the failed router links that train again, each as its tile and its number (R186), the tiles' junction
temperatures in 1/16 °C (R183), and the doorbells whose reads meet an uncorrectable error in the Over, each with the Ball of the read (R111). -/
structure EdgeReport where
  retrained : List (Nat × Nat)
  temps : List (Nat × Int)
  bad : List (Nat × DbTarget)
  deriving DecidableEq, Repr

/-- A doorbell's eight bytes, and whether the read of them that follows meets an uncorrectable error (R98, R111). -/
structure DbWord where
  value : Nat
  bad : Bool
  deriving DecidableEq, Repr

/-- A pickup from a ring, and what ECC finds in the reads of the descriptor and of the argument block (R111). -/
structure RingRead where
  ring : Nat
  desc : Ecc
  args : Ecc
  deriving DecidableEq, Repr

/-- The end of a plan's load, and what ECC finds in its read of the image (R120, R330). -/
structure LoadEnd where
  load : LoadRef
  ecc : Ecc
  deriving DecidableEq, Repr

/-- An island-side transfer that holds the island bus: for how many ns, how many of its attempts a main-side write to the line made lost, and
what ECC finds in its read (R396, R400). -/
structure Hold where
  ns : Nat
  lost : Nat
  ecc : Ecc
  deriving DecidableEq, Repr

/-- The island bus as a main-side access meets it: a crossing that no ISLAND_READ reports (R399), and the grants while island masters ask for the
bus: ns since the access's first issue, and whether one asks (R398). -/
structure BusGrants where
  crossing : Bool
  grants : List (Nat × Bool)
  deriving DecidableEq, Repr

/-- A codec takes a session's next job: the session, and what ECC finds in the read of its descriptor (R489). -/
structure JobRead where
  session : Nat
  ecc : Ecc
  deriving DecidableEq, Repr

/-- Temperatures at a thermal event: the hottest junction in °C, and the tiles' junctions in 1/16 °C (R183, R566). -/
structure HotReport where
  hottest : Nat
  temps : List (Nat × Int)
  deriving DecidableEq, Repr

/-- What a peer says of itself over the sideband: its TIME_SRC and its HBM stacks (R44, R579). -/
structure PeerInfo where
  src : Nat
  hbm : Nat
  deriving DecidableEq, Repr

/-- A flit that is sent again on a port, by the index of R581, and whether it arrives whole (R576). -/
structure FlitTry where
  port : Nat
  whole : Bool
  deriving DecidableEq, Repr

/-- The masters of HBM transactions, as R382 tells them apart. -/
inductive HbmMaster where
  | displayPipe
  | compositor
  | cameraIntake
  | tsnFrameDma
  | islandBridge
  /-- Every other master. -/
  | other
  deriving DecidableEq, Repr

/-- What happens at a pseudo-channel within a window (R385, R388). -/
inductive UmpEvent where
  /-- A transaction arrives: its master, its physical address and its bursts. A read of a line that is dirty in the application cluster
  arrives in the same way, although the cluster serves it (R369). -/
  | arrive (m : HbmMaster) (addr bursts : Nat)
  /-- A request of a class is dropped by its owner: the owner of the grant in force, or of a waiting request, by its place in the
  class's order of arrival. -/
  | drop (cls : Nat) (waiting : Option Nat)
  /-- The time of one burst, two controller cycles, passes. -/
  | burst
  /-- Two controller cycles pass in which the pseudo-channel carries no burst: refresh, patrol scrub or row switching (R381). -/
  | stall
  /-- A controller retraining, or a recovery from an uncorrectable error. -/
  | recovery
  deriving DecidableEq, Repr

/-- An atomic memory operation that an island master makes (R400). -/
inductive AtomicOp where
  | swap | add | and | or | xor | min | max | minu | maxu
  deriving DecidableEq, Repr

/-- The SecTAG of a received frame: channel, association number, packet number, and whether its ICV verifies (R511, R512). -/
structure MacRx where
  sci : Nat
  an : Nat
  pn : Nat
  ok : Bool
  deriving DecidableEq, Repr

/-- What a camera frame had received when it ended (R484 to R486): input lines, packets with errors, and the bytes that the image signal
processor puts out for each output. -/
structure CamEnd where
  lines : Nat
  errors : Nat
  data : List (Nat × List Byte)
  deriving DecidableEq, Repr

/-- Where an engine of a tile reads or writes beyond its own scratchpad. -/
inductive Place where
  /-- Byte `off` of the region that an argument binds to a port, after its result header. -/
  | port (n off : Nat)
  /-- A physical address. -/
  | addr (a : Nat)
  /-- Byte `off` from token slot `slot` on, among the key rows or the value rows of key-value head `g`, of the page of row `row` that
  attention layer `ly` reads (R288). -/
  | kv (ly row g : Nat) (value : Bool) (slot off : Nat)
  /-- Byte `off` of that page's index entry, to read (R307). -/
  | kvIndex (ly row off : Nat)
  /-- As `kv`, of the `i`-th row that the scout pass selected for the layer and head (R308). -/
  | kvPick (ly g i : Nat) (value : Bool) (slot off : Nat)
  /-- Byte `off` of the plan's resident section. -/
  | weights (off : Nat)
  /-- Byte `off` of another tile's scratchpad. -/
  | tile (t off : Nat)
  deriving DecidableEq, Repr

/-- An array in a tile's own scratchpad: its offset, its conversion byte (R191) and the offset of its scales. -/
structure Opnd where
  off : Nat
  conv : Nat
  scale : Nat
  deriving DecidableEq, Repr

/-- The mask mode of an attention layer (R281). -/
inductive AttMask where
  | none
  | causal
  /-- LOCAL w. -/
  | window (w : Nat)
  /-- BITMASK: the mask input port. -/
  | bits (port : Nat)
  deriving DecidableEq, Repr

/-- Where an attention layer's keys and values come from (R280). -/
inductive AttKeys where
  /-- A lane of the sequence that a KIND 2 port binds. -/
  | seq (port lane : Nat)
  /-- The plan's own tensors, of so many keys. -/
  | own (count : Nat)
  deriving DecidableEq, Repr

/-- An attention layer as a plan declares it (R280 to R283, R286, R308): query heads, key-value heads and head dimension; the keys; the
conversion bytes of query, key and value; sigma; the probabilities in FP8 E4M3 or else BF16; the mask; S, W and P in RETRIEVAL mode; the
span, which for a KIND 2 port is the port's COUNT; the void-row output port. -/
structure AttLayer where
  hq : Nat
  hkv : Nat
  dh : Nat
  keys : AttKeys
  qConv : Nat
  kConv : Nat
  vConv : Nat
  sigma : W32
  fp8 : Bool
  mask : AttMask
  retrieval : Option (Nat × Nat × Nat)
  span : Nat
  void : Option Nat
  deriving DecidableEq, Repr

/-- A vector launch as a plan declares it (R151 to R153): groups in each dimension of its grid, threads of a group, registers of a thread,
scratchpad bytes of a group, and the launch's allocation on each tile: where it begins and its bytes. -/
structure VLaunch where
  grid : List Nat
  threads : Nat
  regs : Nat
  share : Nat
  base : Nat
  alloc : Nat
  deriving DecidableEq, Repr

/-- The vector unit's operations on registers (R157, R205). -/
inductive VecOp where
  | fadd | fsub | fmul | ffma | fmin | fmax | flt | fle | feq
  | fexp | flog | frcp | frsqrt
  /-- Packed pairs, BF16 or FP16. -/
  | padd (bf : Bool) | psub (bf : Bool) | pmul (bf : Bool) | pfma (bf : Bool)
  | pmin (bf : Bool) | pmax (bf : Bool) | plt (bf : Bool) | ple (bf : Bool) | peq (bf : Bool)
  | iadd | isub | imul | iand | ior | ixor | ishl | ishr | isar | ilt | iltu | ieq | imin | imax
  /-- Four-element dot products of bytes into INT32: whether each operand is signed. -/
  | dot4 (sa sb : Bool)
  /-- `c` where `a` is not 0, else `b`. -/
  | sel
  | mov
  deriving DecidableEq, Repr

/-- Memory that a vector load or store reaches, by the byte offset a register holds (R155). -/
inductive VecMem where
  | scratch (t : Nat)
  /-- Accumulator memory: the register holds row × 128 + column. -/
  | acc
  deriving DecidableEq, Repr

/-- What the store engine moves: packed elements of scratchpad, or FP32 or INT32 accumulators from row × 128 + column on. -/
inductive StoreSrc where
  | scratch (o : Opnd)
  | accF (x : Nat)
  | accI (x : Nat)
  deriving DecidableEq, Repr

/-- Pooling modes (R265). -/
inductive PoolMode where
  | max
  | avgInclude
  | avgExclude
  | globalAvg
  deriving DecidableEq, Repr

/-- Activation functions (R270). -/
inductive Act where
  | relu | relu6 | leakyRelu (slope : W32) | hardSwish | sigmoid | tanh | silu | softplus | gelu
  deriving DecidableEq, Repr

/-- A mixture-of-experts layer (R271 to R276). -/
structure MoeLayer where
  layer : Nat
  experts : Nat
  k : Nat
  capacity : Nat
  reroute : Bool
  renorm : Bool
  allSoftmax : Bool
  deriving DecidableEq, Repr

/-- What the streams of a plan image declare: its vector launches (R152), source and target bytes of its conversions (R192), its attention
layers (R280 to R286) and its mixture-of-experts layers (R271). The streams' encoding is Yilrum's, not the spec's. -/
structure CodeInfo where
  launches : List VLaunch
  convs : List (Nat × Nat)
  att : List AttLayer
  moe : List MoeLayer
  deriving DecidableEq, Repr

/-- What the engines of a tile do for a RUN_PLAN, one operation as it completes. The streams' encoding is Yilrum's, not the spec's. -/
inductive PlanOp where
  /-- The access engine issues its next block: elements of `run` bytes for each step of the dimensions (count, stride), to offset `dst`; the
  token it increments; issued at its demand point (R162 to R165). -/
  | block (t : Nat) (src : Place) (run : Nat) (dims : List (Nat × Nat)) (dst tok : Nat) (demand : Bool)
  /-- So many 64-byte reads of the `i`-th block in flight return (R163, R187). -/
  | reads (t i n : Nat)
  /-- The `i`-th block in flight has fully arrived; what ECC found in its reads (R162, R241, R367). -/
  | arrive (t i : Nat) (ecc : Ecc)
  /-- The execute stream releases a block (R163). -/
  | release (t : Nat)
  /-- A stream's wait for a token counter ends (R136). -/
  | wait (t c v : Nat)
  /-- A token counter of a tile of the partition is incremented (R136). -/
  | token (t dst c : Nat)
  /-- A half of accumulator memory is cleared (R146). -/
  | matClear (t half : Nat)
  /-- One matrix step: an A row against a B block, with 2:4 metadata at an offset when sparse (R141 to R146, R202 to R204). -/
  | matStep (t row : Nat) (a b : Opnd) (sparse : Option Nat) (depth cols : Nat)
  /-- Query row `i` of head `h` of attention layer `ly` starts in an accumulator row (R282). -/
  | attStart (t row ly h i : Nat)
  /-- That query row against its layer's next block of 48 keys, or those that are left; where query, keys, values and the row's mask bits lie
  in scratchpad (R147 to R149, R281, R282). -/
  | attBlock (t row : Nat) (q k v : Nat) (mask : Nat)
  /-- The final division of a query row; its bit in the void-row port (R283). -/
  | attEnd (t row bit : Nat)
  /-- Launch `k` of the plan begins, of copy A or of copy B (R152). -/
  | launch (copyB : Bool) (k : Nat)
  /-- Tile `t` takes the next group of launch `k` (R151, R153). -/
  | group (t k : Nat)
  /-- The threads of group `g` of launch `k` have ended on tile `t`. -/
  | groupEnd (t k g : Nat)
  /-- A squad reaches its group's barrier (R153). -/
  | barrier (t sq : Nat)
  /-- Only these threads of a squad are active (R154). -/
  | active (t sq : Nat) (on : List Nat)
  | vec (t sq : Nat) (op : VecOp) (d a b c : Nat)
  | vecImm (t sq d : Nat) (v : W32)
  /-- The parallel scan; where the running products of `a` go, if anywhere (R156, R278). -/
  | scan (t sq d a b carry : Nat) (prod : Option Nat)
  /-- `wide`: INT16 operands widened to INT32 (R205). -/
  | vload (t sq d a : Nat) (m : VecMem) (size : Nat) (wide : Bool)
  | vstore (t sq d a : Nat) (m : VecMem) (size : Nat)
  /-- A gather from HBM by the addresses in two registers (R155). -/
  | gather (t sq d lo hi size : Nat) (ecc : Ecc)
  /-- The conversion instruction (R215). -/
  | convert (t : Nat) (src dst : Opnd) (n : Nat)
  /-- The store engine writes `n` elements in a conversion's form, scales apart (R167, R168). -/
  | store (t : Nat) (src : StoreSrc) (n conv : Nat) (dst : Place) (scale : Option Place)
  /-- Tokens are appended to the sequence of a KIND 2 port (R298, R300, R301). -/
  | append (n tokens : Nat)
  /-- The store engine writes the index entry of a row that this command fills (R307). -/
  | index (t ly row : Nat)
  /-- A tile-to-tile write, to one tile or a rectangle (R172). -/
  | tileWrite (t off n : Nat) (dsts : List Nat) (dst : Nat)
  /-- The scout pass of a layer for one key-value head: its FP8 query rows (R308). -/
  | scout (t ly g : Nat) (q : Opnd) (rows : Nat)
  /-- One pooling window of one channel: its elements' conversion byte; for each of those in the image its array, its number there and the
  array's scales; elements in the window; where the result goes, a word (R265, R266). -/
  | pool (t : Nat) (mode : PoolMode) (conv : Nat) (elems : List (Nat × Nat × Nat)) (count dst : Nat)
  /-- Depthwise taps of one output element: FP32 inputs and weights by offset, the bias (R263). -/
  | taps (t : Nat) (xs : List (Nat × Nat)) (bias dst : Nat)
  /-- Layer or RMS normalisation of one resident FP32 row (R268). -/
  | norm (t : Nat) (rms : Bool) (x gamma beta n : Nat) (eps : W32) (dst : Nat)
  /-- Two parts' statistics merge: count, mean, squared deviations, three FP32 words each (R269). -/
  | merge (t a b dst : Nat)
  /-- An activation function over `n` FP32 elements (R270). -/
  | activation (t : Nat) (f : Act) (x n dst : Nat)
  /-- The routing step of an expert layer: each home tile's tokens and its FP32 logits, where its placements go, and the statistics port's
  record (R271 to R276). -/
  | route (ly : Nat) (homes : List (Nat × Nat × Nat × Nat)) (stats : Place)
  /-- The Ce rows of an expert arrive at a tile of its tile set: where each home tile's token rows lie, their bytes (R272). -/
  | expertRows (ly e u : Nat) (srcs : List Nat) (rowBytes dst : Nat)
  /-- A tile of an expert returns its output rows to the home tiles: where each home tile takes them, by token and rank (R275). -/
  | expertOut (ly e u src rowBytes : Nat) (dsts : List Nat)
  /-- A home tile adds the outputs of its tokens, of `n` FP32 elements, to their residuals (R275). -/
  | combine (t ly n outs residual dst : Nat)
  /-- Tile cycles pass: running, and waiting for an access block. -/
  | cycles (t busy wait : Nat)
  /-- A register-file or accumulator error (R176). -/
  | eccTile (t : Nat) (fatal : Bool)
  /-- A scratchpad error found by an engine of the tile (R241). -/
  | eccScratch (t off : Nat) (e : Ecc)
  /-- Errors on links of the tile's router that retransmission corrected (R178). -/
  | retransmit (t n : Nat)
  /-- Execution of the command, or of copy A or B, ends. -/
  | done (copyB : Bool)
  deriving DecidableEq, Repr

/-- A shaded fragment of one pixel (R158 to R160, R461): whether the shader discards it, its depth at each sample in the depth
format, and the colour it puts out for each target, FP32 in R, G, B, A order. -/
structure Frag where
  x : Nat
  y : Nat
  discard : Bool
  depths : List Nat
  colours : List (List W32)
  deriving DecidableEq, Repr

/-- What the front end and the tiles of a DRAW_LIST do next (R459 to R472). -/
inductive DrawOp where
  /-- A vertex batch is shaded into the bin pool: vertices and varying components (R459). -/
  | batch (vertices varyings : Nat)
  /-- A primitive is assembled, with its vertices snapped to 1/256 pixel; for points and lines, the screen tiles it covers (R459 to R461). -/
  | prim (pts : List (Int × Int)) (covers : List Nat)
  /-- The DRAW record has no more primitives. -/
  | drawDone
  /-- A job starts on a screen tile (R469, R470). -/
  | job (st : Nat)
  /-- The next primitive of a running job's screen tile is shaded and applied (R466, R467). -/
  | shade (st : Nat) (frags : List Frag)
  /-- A job yields or ends; `late`: it ran past a boundary after JOB_US (R469, R472). -/
  | yield (st : Nat) (late : Bool)
  /-- The shading of a partial render is complete (R463). -/
  | partialDone
  /-- The store engine writes a screen tile's colour (R466). -/
  | store (st : Nat)
  /-- An error in a read of an input (R120). -/
  | eccInput (addr : Nat) (ecc : Ecc)
  /-- A scratchpad error found by an engine of a tile (R241). -/
  | eccScratch (t off : Nat) (ecc : Ecc)
  /-- A register-file or accumulator error of a tile that shades (R176). -/
  | eccTile (t : Nat) (fatal : Bool)
  /-- Cycles pass at a tile that shades (R178). -/
  | cycles (t busy wait : Nat)
  /-- Errors on links of the tile's router that retransmission corrected (R178). -/
  | retransmit (t n : Nat)
  deriving DecidableEq, Repr

/-- What the valid stored copy of the operating points with the higher sequence number holds (R84, R564): the tiles' and core groups' last stable steps in
MHz, each domain's voltage code, the receivers' equalisation coefficients, and each site's scrub rate in hours a pass. -/
structure Points where
  tiles : List Nat
  groups : List Nat
  volts : List Nat
  eq : List Nat
  scrub : List Nat
  deriving DecidableEq, Repr

/-- The commands: the rows of the opcode table, in its order. -/
inductive Instr where
  /-- POWER_GOOD (R51). STRAP[3:0], MOD_ID and MOD_CNT at power good (R60, R572); whether the island itself starts (R66). -/
  | powerGood (straps modId modCnt : Nat) (islandOk : Bool)
  /-- KEEPER_TABLE_LOAD (R64). Whether each signature over the table in flash verifies (R62). -/
  | keeperTableLoad (rsaOk mldsaOk : Bool)
  /-- WARMUP_COMPLETE (R441). The step whose checker failed, 0 when every check fired. -/
  | warmupComplete (failStep : Nat) (w : Warmup)
  /-- CONFIG_RECORD_APPLY (R69). Whether each signature over the record in flash verifies (R62). -/
  | configRecordApply (rsaOk mldsaOk : Bool)
  /-- MGMT_LINK_UP (R72). -/
  | mgmtLinkUp
  /-- OFFER (R74). The message, and what its payload carries. -/
  | fetchOffer (m : FetchMsg) (imageLen version blockSize : Nat)
  /-- DATA (R74). The header and one block; for the last block, whether the image's signatures verify and its length is right, and the
  stored operating points, none when no copy of them is valid (R84, R564). -/
  | fetchData (h : FetchHdr) (bytes : List Byte) (rsaOk mldsaOk lengthOk : Bool) (opp : Option Points)
  /-- ERROR (R74). The message, and the server's reason code. -/
  | fetchError (m : FetchMsg) (reason : Nat)
  /-- SOLICIT_RETRY (R75). -/
  | solicitRetry
  /-- BOOT_DATA_TIMEOUT (R75). -/
  | bootDataTimeout (block : Nat)
  /-- HBM_TRAINING_DONE (R83). Sites that failed, a bit each, and the new results of each fully trained site to store (R83). -/
  | hbmTrainingDone (failed : Nat) (results : List (Nat × List Byte))
  /-- LOADER_RELEASE (R85). The secure-world loader, whether it verifies, and its entry. -/
  | loaderRelease (sigOk : Bool) (image : List Byte) (entry : Nat)
  /-- START_CTRL_READY (R85). -/
  | startCtrlReady (m : Master) (value : Nat)
  /-- PCIE_CONFIG_REQUEST (R55). -/
  | pcieConfigRequest (port : Nat)
  /-- SP_IDENT (R91). Here and below: the frame that the controller writes to the command window, and the byte that it then writes to the
  doorbell (R88, R89). -/
  | spIdent (frame : List Byte) (bell : Nat)
  /-- SP_STATUS (R91). -/
  | spStatus (frame : List Byte) (bell : Nat)
  /-- SP_CLAMP_READ (R92). -/
  | spClampRead (frame : List Byte) (bell : Nat)
  /-- SP_KEEPER_GET (R91). -/
  | spKeeperGet (frame : List Byte) (bell : Nat)
  /-- SP_KEEPER_SET (R93). -/
  | spKeeperSet (frame : List Byte) (bell : Nat)
  /-- SP_FLASH_ERASE (R94). -/
  | spFlashErase (frame : List Byte) (bell : Nat)
  /-- SP_FLASH_ERASE_DONE (R91). -/
  | spFlashEraseDone
  /-- SP_FLASH_WRITE (R94). -/
  | spFlashWrite (frame : List Byte) (bell : Nat)
  /-- SP_FLASH_READ (R94). -/
  | spFlashRead (frame : List Byte) (bell : Nat)
  /-- SP_FLASH_VERIFY (R91). -/
  | spFlashVerify (frame : List Byte) (bell : Nat)
  /-- OVER_EDGE (R31). The measured one-way sideband delay of a follower (R579), and what is found. -/
  | overEdge (sbDelayPs : Nat) (r : EdgeReport)
  /-- BALL_EDGE (R32). -/
  | ballEdge
  /-- EDGE_MISSED (R29). -/
  | edgeMissed
  /-- HOLDOVER_EXPIRED (R23). -/
  | holdoverExpired
  /-- FREE_RUN_WITHOUT_REFERENCE (R21). -/
  | freeRunWithoutReference
  /-- REFERENCE_LOST (R522). -/
  | referenceLost
  /-- SLEW_DONE (R24). -/
  | slewDone
  /-- SIDEBAND_ALIGNED (R26). What the time source sends: its OVER_COUNT, the phase error to the sideband in ns (R24, R26), and its applied Over geometry (R579, R580). -/
  | sidebandAligned (count : Nat) (err : Int) (steps balls phase : Nat)
  /-- ALIGN_LOST (R28). -/
  | alignLost
  /-- TIME_ADJ_RATE (R522). -/
  | timeAdjRate (m : Master) (value : Nat)
  /-- TIME_ADJ_OFFSET (R522). -/
  | timeAdjOffset (m : Master) (value : Nat)
  /-- TIME_SET (R522). -/
  | timeSet (m : Master) (ns : Nat)
  /-- TIME_NOW_READ (R521). -/
  | timeNowRead (m : Master)
  /-- REGISTER_WRITE (R78). A write of `size` bytes at set-up offset `off`. -/
  | registerWrite (m : Master) (off size value : Nat)
  /-- GLB_CFG_APPLY (R34). -/
  | glbCfgApply (m : Master) (value : Nat)
  /-- CFG_APPLY (R82). -/
  | cfgApply (m : Master) (value : Nat)
  /-- QE_CFG_APPLY (R110). -/
  | qeCfgApply (m : Master) (inst value : Nat)
  /-- TILE_CFG_APPLY (R182). -/
  | tileCfgApply (m : Master) (t value : Nat)
  /-- UMP_CFG_APPLY (R383). -/
  | umpCfgApply (m : Master) (k value : Nat)
  /-- KV_CFG_APPLY (R311). -/
  | kvCfgApply (m : Master) (value : Nat)
  /-- KV_INIT_DONE (R311). -/
  | kvInitDone
  /-- GFX_CFG_APPLY (R490). Page 0 graphics, 1 displays, 2 cameras, 3 codecs. -/
  | gfxCfgApply (m : Master) (page value : Nat)
  /-- GW_CFG_APPLY (R501). Page 0 global, 1 ports, 2 buses, 3 receive rings. -/
  | gwCfgApply (m : Master) (page value : Nat)
  /-- IBR_CFG_APPLY (R401). -/
  | ibrCfgApply (m : Master) (value : Nat)
  /-- ISL_CFG_APPLY (R447). -/
  | islCfgApply (m : Master) (value : Nat)
  /-- LJ_CFG_APPLY (R448). -/
  | ljCfgApply (m : Master) (value : Nat)
  /-- LJ_SHADOW_CHANGE (R448). -/
  | ljShadowChange
  /-- KPR_CFG_APPLY (R449). -/
  | kprCfgApply (m : Master) (value : Nat)
  /-- STEST_CFG_APPLY (R451). -/
  | stestCfgApply (m : Master) (value : Nat)
  /-- WLD_CFG_APPLY (R567). -/
  | wldCfgApply (m : Master) (value : Nat)
  /-- PWR_CFG_APPLY (R569). -/
  | pwrCfgApply (m : Master) (value : Nat)
  /-- MBX_CFG_APPLY (R570). -/
  | mbxCfgApply (m : Master) (c value : Nat)
  /-- IVM_CFG_APPLY (R580). -/
  | ivmCfgApply (m : Master) (value : Nat)
  /-- DOORBELL_WRITE (R101). A write of a doorbell's eight bytes, as it becomes visible. -/
  | doorbellWrite (m : Master) (db : DbTarget) (w : DbWord)
  /-- COMMAND_PICKUP (R102). -/
  | commandPickup (inst : Nat) (r : RingRead)
  /-- QE_CPL_CONS_WRITE (R103). -/
  | qeCplConsWrite (m : Master) (inst c value : Nat)
  /-- RUN_PLAN (R116). The running command, and the engine operations its streams perform next, in the order they complete. -/
  | runPlan (id : Nat) (ops : List PlanOp)
  /-- LOAD_PLAN (R324). What the streams of the image declare; what ECC finds in the read. -/
  | loadPlan (id : Nat) (code : CodeInfo) (ecc : Ecc)
  /-- EVICT_PLAN (R116). -/
  | evictPlan (id : Nat)
  /-- COPY (R116). What ECC finds in the reads of the source. -/
  | copy (id : Nat) (ecc : Ecc)
  /-- FILL (R116). -/
  | fill (id : Nat)
  /-- CHECK (R529). What ECC finds in the reads of the source. -/
  | check (id : Nat) (ecc : Ecc)
  /-- KV_ALLOC (R294). -/
  | kvAlloc (id : Nat)
  /-- KV_FREE (R296). -/
  | kvFree (id : Nat)
  /-- KV_FORK (R295). -/
  | kvFork (id : Nat)
  /-- DRAW_LIST (R458). The running command, and what its front end and tiles do next. -/
  | drawList (id : Nat) (ops : List DrawOp)
  /-- FENCE (R116). -/
  | fence (id : Nat)
  /-- TIMESTAMP (R116). -/
  | timestamp (id : Nat)
  /-- SEND (R508). What ECC finds in the read of the frame. -/
  | send (id : Nat) (ecc : Ecc)
  /-- COMMAND_START (R333). -/
  | commandStart (id : Nat)
  /-- PLAN_LOAD_START (R327). The load that starts. -/
  | planLoadStart (l : LoadRef)
  /-- PLAN_LOAD_DONE (R330). -/
  | planLoadDone (l : LoadEnd)
  /-- COMMIT (R120). -/
  | commitPoint (id : Nat)
  /-- TILE_KILL (R173). A killed command whose tiles have stopped. -/
  | tileKill (id : Nat)
  /-- RUNAHEAD_DISCARD (R379). The address of the read that is discarded. -/
  | runaheadDiscard (addr : Nat)
  /-- BUDGET_OVERRUN_KILL (R338). -/
  | budgetOverrunKill (id : Nat)
  /-- SAFETY_BUDGET_ELAPSED (R339). -/
  | safetyBudgetElapsed (id : Nat)
  /-- TEARDOWN_COMPLETE (R345). -/
  | teardownComplete (inst : Nat)
  /-- SCH_PART_RESET (R345). -/
  | schPartReset (m : Master) (p value : Nat)
  /-- PARTITION_RESET_END (R345). -/
  | partitionResetEnd (p : Nat)
  /-- INSTANCE_PARTITION_CHANGE (R348). -/
  | instancePartitionChange (inst : Nat)
  /-- FREEZE (R353). -/
  | freeze (m : Master) (inst : Nat)
  /-- FREEZE_DONE (R353). -/
  | freezeDone (inst : Nat)
  /-- SAVE (R354). -/
  | save (m : Master) (inst : Nat)
  /-- SAVE_DONE (R355). -/
  | saveDone (inst : Nat)
  /-- RESTORE (R356). -/
  | restore (m : Master) (inst : Nat)
  /-- RESTORE_DONE (R356). What ECC finds in the reads; what the streams of each plan declare, in the order of the image. -/
  | restoreDone (inst : Nat) (ecc : Ecc) (codes : List CodeInfo)
  /-- THAW (R352). -/
  | thaw (m : Master) (inst : Nat)
  /-- DISCARD (R352). -/
  | discard (m : Master) (inst : Nat)
  /-- KV_RSV_SEQ_CHANGE (R305). -/
  | kvRsvSeqChange (r : Nat)
  /-- BANK_HANDOVER (R237). -/
  | bankHandover (t b : Nat)
  /-- SCRATCHPAD_MAIN_ACCESS (R233). The bytes written, or the length read; what the bank's ECC finds. -/
  | scratchpadMainAccess (m : Master) (addr : Nat) (k : AccessKind) (bytes : List Byte) (len : Nat) (ecc : Ecc)
  /-- BTEST_REGION (R242). One region test of tile `t`; the tile cycles since the test before it; the first word, 0 to 3, whose March read mismatches, if any. -/
  | btestRegion (t cycles : Nat) (failWord : Option Nat)
  /-- THERMAL_DERATE (R138). The tile and its junction temperature in 1/16 °C. -/
  | thermalDerate (t : Nat) (temp : Int)
  /-- DERATE_RELEASE (R138). The tile and its junction temperature in 1/16 °C. -/
  | derateRelease (t : Nat) (temp : Int)
  /-- ROUTER_LINK_FAIL (R186). The tile and its link (0 north, 1 east, 2 south, 3 west, 4 the bridge port), and the commands whose traffic crossed it. -/
  | routerLinkFail (t link : Nat) (ids : List Nat)
  /-- UMPIRE_WINDOW (R384). Site and pseudo-channel; what happened there in the window that ends. -/
  | umpireWindow (k p : Nat) (traffic : List UmpEvent)
  /-- HP_REQUEST (R386). The master of a transaction, whether the application cluster serves it, as a read of a line that is dirty there, which is
  charged as if it had reached HBM (R369), its physical address and its bursts. -/
  | hpRequest (m : HbmMaster) (dirty : Bool) (addr bursts : Nat)
  /-- UMP_CNT_CLEAR (R389). -/
  | umpCntClear (m : Master) (k value : Nat)
  /-- REFRESH_2X (R368). Site `k`; whether the stack is above 85 °C. -/
  | refresh2x (k : Nat) (hot : Bool)
  /-- ISLAND_READ (R396). The pair that reads; how long the island bus is held; whether a crossing is met (R399); what ECC finds. -/
  | islandRead (p addr len ns : Nat) (crossing : Bool) (ecc : Ecc)
  /-- READ_TIMEOUT (R396). The pair whose read is not answered in 10 µs. -/
  | readTimeout (p addr : Nat)
  /-- ISLAND_WRITE (R397). The pair that writes; the buffered writes that have drained by then; how long the island bus is held. -/
  | islandWrite (p addr : Nat) (bytes : List Byte) (drained ns : Nat)
  /-- WRITE_ERROR (R397). The oldest posted write receives an error response. -/
  | writeError
  /-- MAIN_ISLAND_ACCESS (R398). An exclusive or atomic access; the island bus as it meets it. -/
  | mainIslandAccess (m : Master) (addr : Nat) (k : AccessKind) (bytes : List Byte) (len : Nat) (exclusive : Bool) (bus : BusGrants) (ecc : Ecc)
  /-- MAIN_TIMEOUT (R398). The grants of the island bus up to the timeout, as in MAIN_ISLAND_ACCESS. -/
  | mainTimeout (m : Master) (addr : Nat) (k : AccessKind) (bytes : List Byte) (len : Nat) (bus : List (Nat × Bool))
  /-- EXCLUSIVE_LOAD (R400). The pair; how its read holds the island bus. -/
  | exclusiveLoad (p addr len : Nat) (h : Hold)
  /-- EXCLUSIVE_STORE (R400). -/
  | exclusiveStore (p addr : Nat) (bytes : List Byte)
  /-- LOCKED_READ_WRITE (R400). How it holds the island bus. -/
  | lockedReadWrite (p addr : Nat) (bytes : List Byte) (h : Hold)
  /-- ATOMIC_OPERATION (R400). How it holds the island bus. -/
  | atomicOperation (p addr width : Nat) (op : AtomicOp) (operand : W64) (h : Hold)
  /-- SEMAPHORE_CLEAR (R400). The main-side write to a watched line. -/
  | semaphoreClear (m : Master) (addr : Nat) (bytes : List Byte)
  /-- LINE_JUDGE_COMPARE (R434). The safety command whose copies have both finished. -/
  | lineJudgeCompare (id : Nat)
  /-- KPR_RELEASE (R411). -/
  | kprRelease (m : Master) (value : Nat)
  /-- LOCKSTEP_MISMATCH (R438). The pair, what its comparator meets, and the count of retired instructions. -/
  | lockstepMismatch (p : Nat) (what : LockFault) (retired : Nat)
  /-- PAIR_RESTART (R438). -/
  | pairRestart (p : Nat)
  /-- KEEPER_SELF_MISMATCH (R428). -/
  | keeperSelfMismatch
  /-- KEEPER_LOOP_STEP (R424). The loop, and the 12-bit code of its analog input at the step. -/
  | keeperLoopStep (l code : Nat)
  /-- KEEPER_CAN_RECEIVE (R420). -/
  | keeperCanReceive (ch id : Nat) (ext : Bool) (payload : List Byte)
  /-- INPUT_STALE (R425). -/
  | inputStale (j : Nat)
  /-- KEEPER_FRAME_TX (R426). -/
  | keeperFrameTx (n : Nat)
  /-- DEBUG_HALT (R440). The pair; `run`: the halt ends. -/
  | debugHalt (p : Nat) (run : Bool)
  /-- DEBUG_REGISTER_WRITE (R440). -/
  | debugRegisterWrite (p reg : Nat) (value : W64)
  /-- DEBUG_MEMORY_WRITE (R440). -/
  | debugMemoryWrite (p addr : Nat) (bytes : List Byte)
  /-- DEBUG_SINGLE_STEP (R440). -/
  | debugSingleStep (p : Nat)
  /-- SELFTEST_PIECE_DONE (R442). -/
  | selftestPieceDone (t : Nat) (ok : Bool)
  /-- LATENT (R444). The tile, and which of its two test ages, of the logic test and of the scratchpad pass, the event is about. -/
  | latent (t : Nat) (logic scratch : Bool)
  /-- DISPLAY_LATCH (R474). The pipe. -/
  | displayLatch (p : Nat)
  /-- DISPLAY_FRAME_END (R480). The pipe, and the pixels, column and row, whose data did not arrive in time. -/
  | displayFrameEnd (p : Nat) (late : List (Nat × Nat))
  /-- CAMERA_FRAME_START (R485). The input, and what a frame still open had received. -/
  | cameraFrameStart (c : Nat) (prev : CamEnd)
  /-- CAMERA_FRAME_END (R486). The input, and what the frame received. -/
  | cameraFrameEnd (c : Nat) (e : CamEnd)
  /-- CAMERA_FRAME_TIMEOUT (R486). The input, and what the frame received. -/
  | cameraFrameTimeout (c : Nat) (e : CamEnd)
  /-- DECODE_JOB (R489). -/
  | decodeJob (j : JobRead)
  /-- ENCODE_JOB (R487). -/
  | encodeJob (j : JobRead)
  /-- CODEC_JOB_DONE (R489). What the codec standard makes of the job: a supported stream, a picture put out, a key picture, concealed errors, its presentation time and its bytes; what ECC finds in the reads. -/
  | codecJobDone (v : Nat) (supported picture key concealed : Bool) (pts : Nat) (out : List Byte) (ecc : Ecc)
  /-- FRAME_RECEIVE (R504). The port; the frame without FCS and, when protected, as MACsec leaves it; whether its FCS is good; its SecTAG; by how
  many ns its timestamp differs from hardware time, at most 8 either way (R523). -/
  | frameReceive (p : Nat) (frame : List Byte) (fcsOk : Bool) (sec : Option MacRx) (skew : Int)
  /-- FRAME_TRANSMIT (R499). The port, the frame as MACsec protects it, and by how many ns its timestamp differs from hardware time, at most 8
  either way (R523). -/
  | frameTransmit (p : Nat) (secured : List Byte) (skew : Int)
  /-- GCL_ENTRY (R510). The list whose entry's interval ends. -/
  | gclEntry (l : Nat)
  /-- LOAD_DONE (R501). -/
  | loadDone
  /-- RECOVERY_RESET (R506). The flow. -/
  | recoveryReset (f : Nat)
  /-- FLOW_COUNTER_WRITE (R507). The flow. -/
  | flowCounterWrite (f : Nat)
  /-- CAN_FRAME_RECEIVE (R513). Channel, identifier, and the frame's marks: bit 0 ESI, 1 FD, 2 BRS, 4 remote, 5 XL. -/
  | canFrameReceive (ch id : Nat) (ext : Bool) (marks : Nat) (payload : List Byte)
  /-- BUS_OFF (R513). -/
  | busOff (ch : Nat)
  /-- BUS_OFF_RECOVERY (R513). -/
  | busOffRecovery (ch : Nat)
  /-- LIN_SLOT (R515). -/
  | linSlot (ch : Nat)
  /-- LIN_RESPONSE (R515). The channel, the response's data and its checksum byte. -/
  | linResponse (ch : Nat) (payload : List Byte) (checksum : Nat)
  /-- NO_RESPONSE (R515). -/
  | noResponse (ch : Nat)
  /-- RX_TIMEOUT (R519). The RX PDU. -/
  | rxTimeout (n : Nat)
  /-- PDU_DUE (R520). The PDU; the CAN PDUs whose queued instances have begun on their buses before. -/
  | pduDue (n : Nat) (begun : List Nat)
  /-- TIME_CAPTURE (R525). -/
  | timeCapture (n : Nat) (rising : Bool)
  /-- CAP_POP (R525). -/
  | capPop (m : Master) (n value : Nat)
  /-- TXTS_POP (R524). -/
  | txtsPop (m : Master) (p value : Nat)
  /-- PULSE (R526). -/
  | pulse (o : Nat)
  /-- GATE (R538). The core. -/
  | gate (n : Nat)
  /-- WGATE (R539). The core and its registers. -/
  | wgate (n rd rs1 : Nat)
  /-- WRET (R541). The core and its register. -/
  | wret (n rs1 : Nat)
  /-- SECURE_INTERRUPT (R542). The core and the cause. -/
  | secureInterrupt (n cause : Nat)
  /-- WSAVE_WRITE (R543). The core. -/
  | wsaveWrite (n : Nat) (value : W64)
  /-- DMA_START (R548). The channel and the value written to DMA_CMD. -/
  | dmaStart (m : Master) (c value : Nat)
  /-- DMA_ABORT (R548). The channel, the value written to DMA_CMD, and the bytes copied by then. -/
  | dmaAbort (m : Master) (c value done : Nat)
  /-- DMA_DONE (R548). The channel; the bytes copied before an access that ends the copy; what ECC finds in the reads. -/
  | dmaDone (c done : Nat) (ecc : Ecc)
  /-- WDG_SERVICE (R549). -/
  | wdgService (m : Master) (value : Nat)
  /-- PRE_WARNING (R549). -/
  | preWarning
  /-- WATCHDOG_EXPIRY (R550). -/
  | watchdogExpiry
  /-- WATCHDOG_RESTART (R550). The pins at the hub die's new power good. -/
  | watchdogRestart (straps modId modCnt : Nat)
  /-- VOX_HEARTBEAT (R553). -/
  | voxHeartbeat (m : Master) (value : Nat)
  /-- MBX_SUBMIT (R555). The channel and the value written. -/
  | mbxSubmit (m : Master) (c value : Nat)
  /-- MBX_RESPONSE (R556). The channel, and which of its requests, oldest first, Voxsar's answer is to. -/
  | mbxResponse (c k : Nat)
  /-- MBX_TIMEOUT (R556). The channel and the request. -/
  | mbxTimeout (c k : Nat)
  /-- PWR_GET (R558). The channel, the request that Voxsar serves, and the junctions measured for the answer, in 1/16 °C (R566). -/
  | pwrGet (c k : Nat) (temps : List (Nat × Int))
  /-- PWR_SET_CAP (R558). The channel and the request. -/
  | pwrSetCap (c k : Nat)
  /-- THERM_SET_TARGET (R558). The channel and the request. -/
  | thermSetTarget (c k : Nat)
  /-- DOM_SET (R561). The channel and the request; whether the cores of a core domain are halted. -/
  | domSet (c k : Nat) (halted : Bool)
  /-- DOM_GET (R558). The channel and the request. -/
  | domGet (c k : Nat)
  /-- OPP_STORE (R564). The channel and the request, and the copy that Voxsar writes. -/
  | oppStore (c k : Nat) (points : List Byte)
  /-- ATTEST (R558). The channel and the request, and the signed report. -/
  | attest (c k : Nat) (report : List Byte)
  /-- DOMAIN_ON (R561). -/
  | domainOn (m : Master) (dom tag : Nat)
  /-- DOMAIN_GATE (R561). `halted`: the cores of a core domain are halted. -/
  | domainGate (m : Master) (dom tag : Nat) (halted : Bool)
  /-- DOMAIN_OFF (R561). `halted`: the cores of a core domain are halted. -/
  | domainOff (m : Master) (dom tag : Nat) (halted : Bool)
  /-- DOMAIN_WAKE_DONE (R562). -/
  | domainWakeDone (dom : Nat)
  /-- OPP_STORE_TIMER (R564). The copy that Voxsar writes. -/
  | oppStoreTimer (points : List Byte)
  /-- SUPPLY_LIMIT_FALL (R565). The input voltage measured. -/
  | supplyLimitFall (mv : Nat)
  /-- SUPPLY_LIMIT_RISE (R565). The input voltage measured. -/
  | supplyLimitRise (mv : Nat)
  /-- POWER_LIMIT_EXCEEDED (R565). The input power averaged over 100 ms. -/
  | powerLimitExceeded (mw : Nat)
  /-- THERMAL_CRIT (R566). -/
  | thermalCrit (r : HotReport)
  /-- THERMAL_TRIP (R566). The hottest junction in °C. -/
  | thermalTrip (temp : Nat)
  /-- PORT_UP (R574). The index of R581; what the peer sends over the sideband: its module number, port and half; the lanes trained; what the peer says of itself. -/
  | portUp (p peer peerPort : Nat) (peerHalf : Bool) (lanes : Nat) (known : PeerInfo)
  /-- FLIT_RETRY (R576). -/
  | flitRetry (f : FlitTry)
  /-- PORT_DOWN (R576). The index of R581, and the commands with accesses in flight on it. -/
  | portDown (p : Nat) (ids : List Nat)
  /-- MODULE_START (R589). -/
  | moduleStart
  /-- MODULE_TURN_OFF (R590). Whether the cause is the input current. -/
  | moduleTurnOff (overcurrent : Bool)
  /-- OVERCURRENT_HOLDOFF (R589). -/
  | overcurrentHoldoff
  /-- TAP_RESET (R595). -/
  | tapReset
  /-- IDCODE (R596). -/
  | idcode
  /-- SAMPLE_PRELOAD (R595). The pins sampled, and the cells shifted in. -/
  | samplePreload (pins cells : Nat)
  /-- EXTEST (R597). The pins captured, and the cells shifted in. -/
  | extest (pins cells : Nat)
  /-- HIGHZ (R597). -/
  | highz
  /-- CLAMP (R597). -/
  | clamp
  /-- EXTEST_PULSE (R597). -/
  | extestPulse
  /-- EXTEST_TRAIN (R597). -/
  | extestTrain
  /-- DEBUG (R595). -/
  | debug
  /-- BYPASS (R595). -/
  | bypass
  /-- CONTROL_TRANSFER (R539). The core, where control goes, and the privilege there (a trap return may change it): 0 U, 1 S, 3 M, and 4 more in
  virtualization mode (R7). -/
  | controlTransfer (n target priv : Nat)
  /-- MAIN_FABRIC_ACCESS (R374). The bytes written, or the length read; what the ECC of the memory finds. -/
  | mainFabricAccess (m : Master) (addr : Nat) (k : AccessKind) (bytes : List Byte) (len : Nat) (ecc : Ecc)
  /-- LINK_DOWN (R534). -/
  | linkDown (p : Nat)
  /-- LINK_UP (R534). -/
  | linkUp (p : Nat)
  /-- DISPLAY_LINK_DOWN (R492). -/
  | displayLinkDown (p : Nat)
  /-- DISPLAY_LINK_TRAINED (R492). -/
  | displayLinkTrained (p : Nat)
  /-- CAMERA_LINK_DOWN (R493). -/
  | cameraLinkDown (c : Nat)
  /-- CAMERA_LINK_UP (R493). -/
  | cameraLinkUp (c : Nat)
  deriving DecidableEq, Repr

end Sys2Proof
end

