-- ==== Sys2Proof/Decode.lean ====
section
/-! DEFINITION. Decode.lean: commands read from words. The opcode table gives no row any bits, so no word spells a command. -/

namespace Sys2Proof

/-- The command that a word of `nbits` bits spells by the opcode table's bits: the table gives no bits, so none (log 2). -/
def decodeTableWord (_nbits _w : Nat) : Option Instr := none

end Sys2Proof
end

