-- ==== Sys2Proof/Config.lean ====
section
/-! DEFINITION. Config.lean: the values the spec leaves open. Each is opaque: nothing can evaluate it, so a claim holds whatever it is. -/

namespace Sys2Proof.Config

/-- The contents of hub ROM (R44): Luasil's, not in the spec. -/
opaque romByte : Nat → Byte

/-- The n-th free value of 32 bits: a result within stated bounds whose exact value the spec leaves open (R141, R202, R205, R308). -/
opaque freeWord : Nat → BitVec 32

/-- The n-th free value of 64 bits. -/
opaque freeWord64 : Nat → BitVec 64

/-- The n-th free byte (undefined contents). -/
opaque freeByte : Nat → Byte

/-- A seed from the hub's entropy source (R177). -/
opaque entropy : Nat → Nat

/-- The n-th draw of 16 bits of a tile's random source after a reseed with a seed (R177, R208). -/
opaque draw : Nat → Nat → BitVec 16

/-- The order, free in the spec, in which the n-th group of additions is made: a permutation is read from it (R141, R202). -/
opaque order : Nat → List Nat

/-- The 8-byte identifier of the device (R72): it comes from the device's PUF-derived identity key. -/
opaque deviceIdent : Nat → Byte

/-- Where a parallel scan of elements `lo` to `hi` splits with a number of levels left (R156): the spec fixes the tree's depth, not its shape. -/
opaque scanSplit : Nat → Nat → Nat → Nat

/-- The scratchpad allocation per tile that a pixel shader's plan image declares (R465): the spec gives no field for it. -/
opaque shaderScratch : List Byte → Nat

end Sys2Proof.Config
end

