-- ==== Sys2Proof/Machine/Bits.lean ====
section
/-! DEFINITION. Machine/Bits.lean: bit fields, byte orders, saturating counts and the sparse map's operations. -/

namespace Sys2Proof.Machine

/-! ### The sparse map -/

/-- The value at key `k`, if any. -/
def KMap.find {α : Type} (m : KMap α) (k : Nat) : Option α :=
  match m with
  | [] => none
  | (j, v) :: t => if j = k then some v else KMap.find t k

/-- `m` with key `k` mapped to `v`; the keys stay strictly rising. -/
def KMap.put {α : Type} (m : KMap α) (k : Nat) (v : α) : KMap α :=
  match m with
  | [] => [(k, v)]
  | (j, w) :: t => if k < j then (k, v) :: (j, w) :: t else if k = j then (k, v) :: t else (j, w) :: KMap.put t k v

/-- `m` without key `k`. -/
def KMap.del {α : Type} (m : KMap α) (k : Nat) : KMap α := m.filter (fun p => decide (p.1 ≠ k))

/-- The value at `k`, or `d`. -/
def KMap.getD {α : Type} (m : KMap α) (k : Nat) (d : α) : α := (KMap.find m k).getD d

/-- `m` with the value at `k` (or `d`) changed by `f`. -/
def KMap.upd {α : Type} (m : KMap α) (k : Nat) (d : α) (f : α → α) : KMap α := KMap.put m k (f (KMap.getD m k d))

/-- `m` with every value changed by `f`. -/
def KMap.mapV {α : Type} (m : KMap α) (f : Nat → α → α) : KMap α := m.map (fun p => (p.1, f p.1 p.2))

/-! ### Fields of a register word -/

/-- Bits `hi` down to `lo` of `v`, as a number. -/
def fld (v : W64) (hi lo : Nat) : Nat := v.toNat / 2 ^ lo % 2 ^ (hi + 1 - lo)

/-- `v` with bits `hi` down to `lo` replaced by `x` (cut to the field's width). -/
def setFld (v : W64) (hi lo x : Nat) : W64 :=
  BitVec.ofNat 64 (v.toNat - fld v hi lo * 2 ^ lo + x % 2 ^ (hi + 1 - lo) * 2 ^ lo)

/-- Bit `b` of `v`. -/
def bitOf (v : W64) (b : Nat) : Bool := fld v b b == 1

/-- `v` with bit `b` set to `x`. -/
def setBit (v : W64) (b : Nat) (x : Bool) : W64 := setFld v b b (cond x 1 0)

/-- The mask of bits `hi` down to `lo`. -/
def maskOf (hi lo : Nat) : W64 := BitVec.ofNat 64 ((2 ^ (hi + 1 - lo) - 1) * 2 ^ lo)

/-- Bit `b` of a number. -/
def nbit (n b : Nat) : Bool := n / 2 ^ b % 2 == 1

/-- Bits `hi` down to `lo` of a number. -/
def nfld (n hi lo : Nat) : Nat := n / 2 ^ lo % 2 ^ (hi + 1 - lo)

/-- `n` read as a signed number of `w` bits. -/
def signedOf (w n : Nat) : Int := if n % 2 ^ w < 2 ^ (w - 1) then (n % 2 ^ w : Nat) else (n % 2 ^ w : Nat) - (2 ^ w : Nat)

/-- The two's complement of `i` in `w` bits. -/
def unsignedOf (w : Nat) (i : Int) : Nat := (i % (2 ^ w : Nat)).toNat

/-- The count of set bits among bits `0` to `n - 1`. -/
def popcount (v n : Nat) : Nat := ((List.range n).filter (fun b => nbit v b)).length

/-- One more, saturating at `2^w - 1`. -/
def satInc (w n : Nat) : Nat := min (n + 1) (2 ^ w - 1)

/-- `k` more, saturating at `2^w - 1`. -/
def satAdd (w n k : Nat) : Nat := min (n + k) (2 ^ w - 1)

/-- A number brought into `lo` to `hi` (`lo` when the range is empty, R79). -/
def clampNat (lo hi n : Nat) : Nat := if hi < lo then lo else if n < lo then lo else if hi < n then hi else n

/-- An integer brought into `lo` to `hi`. -/
def clampInt (lo hi n : Int) : Int := if n < lo then lo else if hi < n then hi else n

/-! ### Bytes, little-endian (R11) -/

/-- The `k` bytes of `n`, lowest first. -/
def leBytes : Nat → Nat → List Byte
  | 0, _ => []
  | k + 1, n => BitVec.ofNat 8 n :: leBytes k (n / 256)

/-- The number a byte string holds, lowest byte first. -/
def leNat : List Byte → Nat
  | [] => 0
  | b :: t => b.toNat + 256 * leNat t

/-- The number a byte string holds, highest byte first (network order). -/
def beNat (bs : List Byte) : Nat := leNat bs.reverse

/-- The `k` bytes of `n`, highest first. -/
def beBytes (k n : Nat) : List Byte := (leBytes k n).reverse

/-- `n` bytes of `bs` from `off`. -/
def slice (bs : List Byte) (off n : Nat) : List Byte := (bs.drop off).take n

/-- The little-endian number in the `n` bytes of `bs` from `off`. -/
def leAt (bs : List Byte) (off n : Nat) : Nat := leNat (slice bs off n)

/-- The big-endian number in the `n` bytes of `bs` from `off`. -/
def beAt (bs : List Byte) (off n : Nat) : Nat := beNat (slice bs off n)

/-- `bs` with the bytes from `off` replaced by `new` (within its length). -/
def splice (bs : List Byte) (off : Nat) (new : List Byte) : List Byte :=
  (bs.take off ++ new ++ bs.drop (off + new.length)).take bs.length

/-- `n` zero bytes. -/
def zeros (n : Nat) : List Byte := List.replicate n 0

/-! ### Check values (R527) -/

/-- `n` with its low `w` bits in reverse order. -/
def reflect : Nat → Nat → Nat
  | 0, _ => 0
  | w + 1, n => (n % 2) * 2 ^ w + reflect w (n / 2)

/-- One bit of a polynomial division, highest bit first. -/
def crcBit (w poly : Nat) (crc : Nat) : Nat :=
  if nbit crc (w - 1) then Nat.xor (crc * 2 % 2 ^ w) poly else crc * 2 % 2 ^ w

/-- `k` bits of division. -/
def crcBits (w poly : Nat) : Nat → Nat → Nat
  | 0, crc => crc
  | k + 1, crc => crcBits w poly k (crcBit w poly crc)

/-- The remainder after the bytes; `refl`: each byte enters lowest bit first. -/
def crcRun (w poly : Nat) (refl : Bool) : List Byte → Nat → Nat
  | [], crc => crc
  | b :: t, crc =>
    crcRun w poly refl t
      (crcBits w poly 8 (Nat.xor crc ((if refl then reflect 8 b.toNat else b.toNat) * 2 ^ (w - 8))))

/-- The four polynomials of R527, by POLY: 0 CRC-32C, 1 CRC-64, 2 CRC-16/CCITT, 3 CRC-8. -/
def crcOf (poly : Nat) (bs : List Byte) : Nat :=
  if poly = 0 then Nat.xor (reflect 32 (crcRun 32 0x1EDC6F41 true bs 0xFFFFFFFF)) 0xFFFFFFFF
  else if poly = 1 then crcRun 64 0x42F0E1EBA9EA3693 false bs 0
  else if poly = 2 then crcRun 16 0x1021 false bs 0xFFFF
  else Nat.xor (crcRun 8 0x1D false bs 0xFF) 0xFF

/-- The width in bits of a check value (R527). -/
def crcWidth (poly : Nat) : Nat := match poly with | 0 => 32 | 1 => 64 | 2 => 16 | _ => 8

/-- The check value of R528, folded over a sequence and an identifier, or not. -/
def checkValue (poly : Nat) (fold : Bool) (seq id : Nat) (data : List Byte) : Nat :=
  crcOf poly (if fold then leBytes 4 seq ++ leBytes 4 id ++ data else data)

end Sys2Proof.Machine
end

