-- ==== Sys2Proof/Machine/NumFmt.lean ====
section
/-! DEFINITION. Machine/NumFmt.lean: the 16 number formats, their exact values, rounding, overflow and FP32 arithmetic (R190 to R215). -/

namespace Sys2Proof.Machine

/-! ### Exact values -/

/-- A value of some format, exactly: a NaN, an infinity, or a signed fraction `p / q` with `q` above 0 (a zero keeps its sign). -/
inductive Num where
  | nan
  | inf (neg : Bool)
  | val (neg : Bool) (p q : Nat)
  deriving DecidableEq, Repr

/-- The value of an integer. -/
def Num.ofInt (i : Int) : Num := .val (decide (i < 0)) i.natAbs 1

/-- The magnitude `m × 2^e`. -/
def dyadic (neg : Bool) (m : Nat) (e : Int) : Num :=
  if 0 ≤ e then .val neg (m * 2 ^ e.toNat) 1 else .val neg m (2 ^ (-e).toNat)

/-- The product, exactly. -/
def Num.mul : Num → Num → Num
  | .nan, _ => .nan
  | _, .nan => .nan
  | .inf a, .inf b => .inf (a != b)
  | .inf a, .val b p _ => if p = 0 then .nan else .inf (a != b)
  | .val b p _, .inf a => if p = 0 then .nan else .inf (a != b)
  | .val a p q, .val b r s => .val (a != b) (p * r) (q * s)

/-- The sum, exactly; a zero sum of unlike signs is positive. -/
def Num.add : Num → Num → Num
  | .nan, _ => .nan
  | _, .nan => .nan
  | .inf a, .inf b => if a = b then .inf a else .nan
  | .inf a, .val _ _ _ => .inf a
  | .val _ _ _, .inf a => .inf a
  | .val a p q, .val b r s =>
    if a = b then .val a (p * s + r * q) (q * s)
    else if p * s = r * q then .val false 0 1
    else if r * q < p * s then .val a (p * s - r * q) (q * s)
    else .val b (r * q - p * s) (q * s)

/-- The value with its sign turned. -/
def Num.neg : Num → Num
  | .nan => .nan
  | .inf a => .inf (!a)
  | .val a p q => .val (!a) p q

/-- The magnitude. -/
def Num.abs : Num → Num
  | .nan => .nan
  | .inf _ => .inf false
  | .val _ p q => .val false p q

/-- `a` divided by a finite non-zero `b`; by a zero, an infinity, or a NaN for zero by zero. -/
def Num.div : Num → Num → Num
  | .nan, _ => .nan
  | _, .nan => .nan
  | .inf _, .inf _ => .nan
  | .inf a, .val b _ _ => .inf (a != b)
  | .val a _ _, .inf b => .val (a != b) 0 1
  | .val a p q, .val b r s => if r = 0 then (if p = 0 then .nan else .inf (a != b)) else .val (a != b) (p * s) (q * r)

/-- Strictly less, as IEEE 754 compares (false with a NaN). -/
def Num.lt : Num → Num → Bool
  | .nan, _ => false
  | _, .nan => false
  | .inf a, .inf b => a && !b
  | .inf a, .val _ _ _ => a
  | .val _ _ _, .inf b => !b
  | .val a p q, .val b r s =>
    match a, b with
    | false, false => decide (p * s < r * q)
    | true, true => decide (r * q < p * s)
    | true, false => !(p == 0 && r == 0)
    | false, true => false

/-- A NaN. -/
def Num.isNan : Num → Bool
  | .nan => true
  | _ => false

/-- Less or equal (false with a NaN). -/
def Num.le (a b : Num) : Bool := !a.isNan && !b.isNan && !b.lt a

/-- Equal as IEEE 754 compares. -/
def Num.eqv (a b : Num) : Bool := a.le b && b.le a

/-- The larger, or the other where one is a NaN. -/
def Num.max (a b : Num) : Num := if a.isNan then b else if b.isNan then a else if a.lt b then b else a

/-- The smaller, or the other where one is a NaN. -/
def Num.min (a b : Num) : Num := if a.isNan then b else if b.isNan then a else if b.lt a then b else a

/-- A zero. -/
def Num.isZero : Num → Bool
  | .val _ p _ => p == 0
  | _ => false

/-- The sign is set. -/
def Num.isNeg : Num → Bool
  | .nan => false
  | .inf a => a
  | .val a _ _ => a

/-- The larger as IEEE 754-2019 maximum (R205): a NaN where either is one, +0 above −0. -/
def Num.maximum (a b : Num) : Num :=
  if a.isNan || b.isNan then .nan else if a.isZero && b.isZero then (if a.isNeg then b else a) else if a.lt b then b else a

/-- The smaller as IEEE 754-2019 minimum (R205). -/
def Num.minimum (a b : Num) : Num :=
  if a.isNan || b.isNan then .nan else if a.isZero && b.isZero then (if a.isNeg then a else b) else if b.lt a then b else a

/-! ### Formats -/

/-- The parameters of a floating-point format (R194, R195). -/
structure FpFmt where
  ebits : Nat
  mbits : Nat
  bias : Nat
  /-- The code of the largest finite magnitude. -/
  maxCode : Nat
  inf : Option Nat
  nan : Option Nat
  deriving DecidableEq, Repr

def fp4 : FpFmt := ⟨2, 1, 1, 0x7, none, none⟩
def fp6e2 : FpFmt := ⟨2, 3, 1, 0x1F, none, none⟩
def fp6e3 : FpFmt := ⟨3, 2, 3, 0x1F, none, none⟩
def fp8e4 : FpFmt := ⟨4, 3, 7, 0x7E, none, some 0x7F⟩
def fp8e5 : FpFmt := ⟨5, 2, 15, 0x7B, some 0x7C, some 0x7E⟩
def fp16 : FpFmt := ⟨5, 10, 15, 0x7BFF, some 0x7C00, some 0x7E00⟩
def bf16 : FpFmt := ⟨8, 7, 127, 0x7F7F, some 0x7F80, some 0x7FC0⟩
def fp19 : FpFmt := ⟨8, 10, 127, 0x3FBFF, some 0x3FC00, some 0x3FE00⟩
def fp32 : FpFmt := ⟨8, 23, 127, 0x7F7FFFFF, some 0x7F800000, some 0x7FC00000⟩

/-- Bits of an element of a floating-point format. -/
def FpFmt.width (x : FpFmt) : Nat := 1 + x.ebits + x.mbits

/-- The value of a code (R194, R195). -/
def FpFmt.value (x : FpFmt) (code : Nat) : Num :=
  let mag := code % 2 ^ (x.width - 1)
  let neg := nbit code (x.width - 1)
  if x.maxCode < mag then (if x.inf = some mag then .inf neg else .nan)
  else if mag < 2 ^ x.mbits then dyadic neg mag (1 - (x.bias : Int) - x.mbits)
  else dyadic neg (2 ^ x.mbits + mag % 2 ^ x.mbits) ((mag / 2 ^ x.mbits : Nat) - (x.bias : Int) - x.mbits)

/-- `p / q` rounded to an integer: to nearest, ties to even (R207). -/
def rneDiv (p q : Nat) : Nat :=
  if q < 2 * (p % q) ∨ (2 * (p % q) = q ∧ p / q % 2 = 1) then p / q + 1 else p / q

/-- `p / q` rounded stochastically with the draw `u`, and whether it was inexact (R208). -/
def srDiv (p q u : Nat) : Nat := if u < 65536 * (p % q) / q then p / q + 1 else p / q

/-- floor(log2 (p / q)) for `p`, `q` above 0. -/
def floorLog2 (p q : Nat) : Int :=
  let k : Int := (Nat.log2 p : Int) - Nat.log2 q
  if 0 ≤ k then (if p < q * 2 ^ k.toNat then k - 1 else k) else (if p * 2 ^ (-k).toNat < q then k - 1 else k)

/-- The magnitude code next to `p / q` in a format, before the overflow check; `sr` holds the 16 bits drawn for
stochastic rounding (R207, R208). -/
def FpFmt.roundMag (x : FpFmt) (p q : Nat) (sr : Option Nat) : Nat :=
  if p = 0 then 0
  else
    let k : Int := max (floorLog2 p q) (1 - x.bias)
    let qe : Int := k - x.mbits
    let a := if 0 ≤ qe then p else p * 2 ^ (-qe).toNat
    let b := if 0 ≤ qe then q * 2 ^ qe.toNat else q
    let n := match sr with | none => rneDiv a b | some u => srDiv a b u
    (k + x.bias - 1).toNat * 2 ^ x.mbits + n

/-- The conversion of a value to a floating-point format (R209, R210): the code, and whether the element is counted as
saturated; `ovf`: IEEE overflow. -/
def FpFmt.encode (x : FpFmt) (v : Num) (sr : Option Nat) (ovf : Bool) : Nat × Bool :=
  let sign (n : Bool) : Nat := cond n (2 ^ (x.width - 1)) 0
  match v with
  | .nan => match x.nan with | some c => (c, false) | none => (0, true)
  | .inf n =>
    if ovf then (match x.inf with | some c => (c + sign n, false) | none => (x.nan.getD x.maxCode, false))
    else (x.maxCode + sign n, true)
  | .val n p q =>
    let c := x.roundMag p q sr
    if x.maxCode < c then
      (if ovf then (match x.inf with | some i => (i + sign n, false) | none => (x.nan.getD x.maxCode, false))
       else (x.maxCode + sign n, true))
    else (c + sign n, false)

/-- The conversion to an integer range (R209, R210). -/
def encodeInt (lo hi : Int) (v : Num) (sr : Option Nat) : Int × Bool :=
  match v with
  | .nan => (0, true)
  | .inf n => (if n then lo else hi, true)
  | .val n p q =>
    let m := match sr with | none => rneDiv p q | some u => srDiv p q u
    let i : Int := if n then -(m : Int) else m
    if i < lo then (lo, true) else if hi < i then (hi, true) else (i, false)

/-- E8M0 from a value: the exponent, truncated (R214). -/
def encodeE8M0 (v : Num) : Nat × Bool :=
  match v with
  | .nan => (0xFF, false)
  | .inf _ => (0xFE, true)
  | .val _ p q =>
    if p = 0 then (0, true)
    else
      let k := floorLog2 p q + 127
      if k < 0 then (0, true) else if 0xFE < k then (0xFE, true) else (k.toNat, false)

/-- The value of an E8M0 code (R198). -/
def e8m0Value (c : Nat) : Num := if c = 0xFF then .nan else dyadic false 1 ((c : Int) - 127)

/-- Element widths in bits of the format codes (R190); FP19 is held in 32. -/
def fmtBits (f : Nat) : Nat :=
  match f with
  | 0 => 4 | 1 => 8 | 2 => 8 | 3 => 16 | 4 => 32 | 5 => 4 | 6 => 6 | 7 => 6 | 8 => 8 | 9 => 8
  | 10 => 16 | 11 => 16 | 12 => 32 | 13 => 32 | 14 => 8 | _ => 4

/-- The floating-point format of a code, if it is one. -/
def fmtFp (f : Nat) : Option FpFmt :=
  match f with
  | 5 => some fp4 | 6 => some fp6e2 | 7 => some fp6e3 | 8 => some fp8e4 | 9 => some fp8e5
  | 10 => some fp16 | 11 => some bf16 | 12 => some fp19 | 13 => some fp32 | _ => none

/-- The value of a raw element of a format, without its block scale. -/
def fmtValue (f raw : Nat) : Num :=
  match f with
  | 0 => .ofInt (signedOf 4 raw)
  | 1 => .ofInt (signedOf 8 raw)
  | 2 => .ofInt (raw % 256 : Nat)
  | 3 => .ofInt (signedOf 16 raw)
  | 4 => .ofInt (signedOf 32 raw)
  | 12 => fp19.value (raw / 2 ^ 13)
  | 14 => e8m0Value (raw % 256)
  | 15 => .ofInt (signedOf 4 raw)
  | _ => match fmtFp f with | some x => x.value raw | none => .nan

/-- The raw bits of a value converted to an unscaled format (R207 to R210, R214), and whether it is counted. -/
def fmtEncode (f : Nat) (v : Num) (sr : Option Nat) (ovf : Bool) : Nat × Bool :=
  match f with
  | 0 => let r := encodeInt (-8) 7 v sr; (unsignedOf 4 r.1, r.2)
  | 1 => let r := encodeInt (-128) 127 v sr; (unsignedOf 8 r.1, r.2)
  | 2 => let r := encodeInt 0 255 v sr; (unsignedOf 8 r.1, r.2)
  | 3 => let r := encodeInt (-32768) 32767 v sr; (unsignedOf 16 r.1, r.2)
  | 4 => let r := encodeInt (-2147483648) 2147483647 v sr; (unsignedOf 32 r.1, r.2)
  | 12 => let r := fp19.encode v sr ovf; (r.1 * 2 ^ 13, r.2)
  | 14 => encodeE8M0 v
  | 15 => let r := encodeInt (-8) 7 v sr; (unsignedOf 4 r.1, r.2)
  | _ => match fmtFp f with | some x => x.encode v sr ovf | none => (0, false)

/-- A magnitude is representable, as if the exponent range went on above the largest finite one (R208). -/
def FpFmt.exact (x : FpFmt) (p q : Nat) : Bool :=
  let qe : Int := max (floorLog2 p q) (1 - x.bias) - x.mbits
  p == 0 || (if 0 ≤ qe then p % (q * 2 ^ qe.toNat) == 0 else p * 2 ^ (-qe).toNat % q == 0)

/-- Whether rounding a value to a format is inexact, so that stochastic rounding draws (R208). -/
def drawsFor (f : Nat) (v : Num) : Bool :=
  match v with
  | .val _ p q => match fmtFp f with | none => p % q != 0 | some x => !x.exact p q
  | _ => false

/-- The element `i` of a packed array (R201). -/
def elemAt (f : Nat) (bs : List Byte) (i : Nat) : Nat :=
  match fmtBits f with
  | 4 => leAt bs (i / 2) 1 / 2 ^ (4 * (i % 2)) % 16
  | 6 => leAt bs (i / 4 * 3) 3 / 2 ^ (6 * (i % 4)) % 64
  | w => leAt bs (i * (w / 8)) (w / 8)

/-- The bytes of a packed array of raw elements (R201). -/
def packElems (f : Nat) (raws : List Nat) : List Byte :=
  match fmtBits f with
  | 4 => (List.range ((raws.length + 1) / 2)).map (fun j => BitVec.ofNat 8 (raws.getD (2 * j) 0 % 16 + raws.getD (2 * j + 1) 0 % 16 * 16))
  | 6 => (List.range ((raws.length + 3) / 4)).flatMap (fun j =>
      leBytes 3 (raws.getD (4 * j) 0 + raws.getD (4 * j + 1) 0 * 2 ^ 6 + raws.getD (4 * j + 2) 0 * 2 ^ 12 + raws.getD (4 * j + 3) 0 * 2 ^ 18))
  | w => raws.flatMap (leBytes (w / 8))

/-- Bytes of `n` packed elements. -/
def elemBytes (f n : Nat) : Nat := (n * fmtBits f + 7) / 8

/-- A conversion byte (R191). -/
structure Conv where
  fmt : Nat
  sr : Bool
  ovf : Bool
  mx : Bool
  deriving DecidableEq, Repr

/-- The fields of a conversion byte. -/
def convOf (b : Nat) : Conv := { fmt := b % 16, sr := nbit b 4, ovf := nbit b 5, mx := nbit b 6 }

/-- A conversion byte that no plan may hold as a target (R192). -/
def convBad (b : Nat) : Bool :=
  let c := convOf b
  (c.mx && !([1, 5, 6, 7, 8, 9].contains c.fmt)) || (c.ovf && [0, 1, 2, 3, 4, 5, 6, 7, 14, 15].contains c.fmt) ||
    (c.sr && c.fmt == 14) || nbit b 7

/-- A conversion byte that no plan may hold as a source (R192). -/
def srcConvBad (b : Nat) : Bool := convBad b || nbit b 4 || nbit b 5

/-- Elements of one block of a scaled form (R199, R200); 0 when the form has no scales. -/
def Conv.block (c : Conv) : Nat := if c.fmt = 15 then 16 else if c.mx then 32 else 0

/-- The exact value of element `i` of an array, its block scale included (R199, R200, R211). -/
def Conv.value (c : Conv) (elems scales : List Byte) (i : Nat) : Num :=
  let v := fmtValue c.fmt (elemAt c.fmt elems i)
  if c.fmt = 15 then (fp8e4.value (leAt scales (i / 16) 1)).mul v
  else if c.mx then
    (e8m0Value (leAt scales (i / 32) 1)).mul (if c.fmt = 1 then v.mul (.val false 1 64) else v)
  else v

/-- The draws of stochastic rounding, one for each inexact element (R208): the next draw follows the count. -/
def draw16 (seed n : Nat) : Nat := (Config.draw seed n).toNat

/-- The result of a conversion: raw elements, scales, elements counted as saturated, draws made. -/
structure Converted where
  raws : List Nat
  scales : List Nat
  counted : Nat
  draws : Nat
  deriving DecidableEq, Repr

/-- Elements of an unscaled target, one by one. -/
def convPlain (c : Conv) (seed : Nat) (count : Bool) (vs : List Num) (start : Nat) : Converted :=
  vs.foldl (fun r v =>
    let d := c.sr && drawsFor c.fmt v
    let e := fmtEncode c.fmt v (if d then some (draw16 seed (start + r.draws)) else none) c.ovf
    { r with raws := r.raws ++ [e.1], counted := r.counted + cond (count && e.2) 1 0, draws := r.draws + cond d 1 0 })
    { raws := [], scales := [], counted := 0, draws := 0 }

/-- The largest magnitude among the finite values of a block. -/
def amaxOf (vs : List Num) : Num :=
  vs.foldl (fun m v => match v with | .val _ _ _ => m.max v.abs | _ => m) (.val false 0 1)

/-- emax of an MX element format (R212). -/
def mxEmax (f : Nat) : Int := match f with | 5 => 2 | 6 => 2 | 7 => 4 | 8 => 8 | 9 => 15 | _ => 0

/-- One block of 32 into MX form (R212). -/
def convMxBlock (c : Conv) (seed start : Nat) (vs : List Num) : Converted :=
  if vs.any (fun v => match v with | .val _ _ _ => false | _ => true) then
    { raws := vs.map (fun _ => 0), scales := [0xFF], counted := 0, draws := 0 }
  else match amaxOf vs with
    | .val _ p q =>
      if p = 0 then
        { raws := vs.map (fun v => (fmtEncode c.fmt v none false).1), scales := [0], counted := 0, draws := 0 }
      else
        let e := clampInt (-127) 127 (floorLog2 p q - mxEmax c.fmt)
        -- an MX INT8 element is its two's complement value × 2^-6 (R199)
        let unit := if c.fmt = 1 then dyadic false 1 (6 - e) else dyadic false 1 (-e)
        let r := convPlain { c with ovf := false } seed false (vs.map (fun v => v.mul unit)) start
        { r with scales := [(e + 127).toNat] }
    | _ => { raws := [], scales := [], counted := 0, draws := 0 }

/-- One block of 16 into BINT4 (R213). -/
def convBint4Block (c : Conv) (seed start : Nat) (vs : List Num) : Converted :=
  if vs.any (fun v => match v with | .val _ _ _ => false | _ => true) then
    { raws := vs.map (fun _ => 0), scales := [0x7F], counted := 0, draws := 0 }
  else
    let a := amaxOf vs
    if a.isZero then { raws := vs.map (fun _ => 0), scales := [0], counted := 0, draws := 0 }
    else
      let s := fp8e4.encode (a.mul (.val false 1 7)) none false
      let sv := fp8e4.value s.1
      -- a scale that rounds to zero leaves every quotient infinite, which saturates (log 12)
      let r := convPlain { c with ovf := false } seed s.2 (vs.map (fun v => if v.isZero then v else v.div sv)) start
      { r with scales := [s.1] }

/-- The values cut into blocks of `n`. -/
def blocksOf {α : Type} (n : Nat) : Nat → List α → List (List α)
  | 0, _ => []
  | fuel + 1, l => if l = [] ∨ n = 0 then [] else l.take n :: blocksOf n fuel (l.drop n)
termination_by structural f => f

/-- Values padded with zero elements to whole blocks of `n` (R199, R200). -/
def padBlock (n : Nat) (vs : List Num) : List Num :=
  vs ++ List.replicate ((n - vs.length % max 1 n) % max 1 n) (.val false 0 1)

/-- A conversion of values into a target form (R207 to R215), padded to whole blocks in a scaled form (R199, R200); `seed` and `start` give the
random source's next draw. -/
def convert (c : Conv) (seed start : Nat) (vs : List Num) : Converted :=
  if c.block = 0 then convPlain c seed true vs start
  else
    (blocksOf c.block (vs.length + c.block) (padBlock c.block vs)).foldl (fun r b =>
      let x := if c.fmt = 15 then convBint4Block c seed (start + r.draws) b else convMxBlock c seed (start + r.draws) b
      { raws := r.raws ++ x.raws, scales := r.scales ++ x.scales, counted := r.counted + x.counted, draws := r.draws + x.draws })
      { raws := [], scales := [], counted := 0, draws := 0 }

/-! ### FP32 arithmetic, round-to-nearest-even (R202, R205 to R207) -/

/-- The value of an FP32 word. -/
def f32v (w : W32) : Num := fp32.value w.toNat

/-- A value rounded to FP32; overflow gives an infinity. -/
def f32 (v : Num) : W32 := BitVec.ofNat 32 (fp32.encode v none true).1

/-- FP32 add. -/
def f32Add (a b : W32) : W32 := f32 ((f32v a).add (f32v b))

/-- FP32 subtract. -/
def f32Sub (a b : W32) : W32 := f32 ((f32v a).add (f32v b).neg)

/-- FP32 multiply. -/
def f32Mul (a b : W32) : W32 := f32 ((f32v a).mul (f32v b))

/-- FP32 fused multiply-add: a × b + c, rounded once. -/
def f32Fma (a b c : W32) : W32 := f32 (((f32v a).mul (f32v b)).add (f32v c))

/-- FP32 divide, correctly rounded (the Keeper's frame scaling, R426). -/
def f32Div (a b : W32) : W32 := f32 ((f32v a).div (f32v b))

/-- `a` brought between `lo` and `hi`. -/
def f32Clamp (lo hi a : W32) : W32 :=
  if (f32v a).lt (f32v lo) then lo else if (f32v hi).lt (f32v a) then hi else a

/-- A NaN. -/
def f32IsNan (a : W32) : Bool := (f32v a).isNan

/-- Neither an infinity nor a NaN. -/
def f32Finite (a : W32) : Bool := match f32v a with | .val _ _ _ => true | _ => false

/-- Strictly less. -/
def f32Lt (a b : W32) : Bool := (f32v a).lt (f32v b)

/-- The FP32 of a whole number. -/
def f32OfInt (i : Int) : W32 := f32 (.ofInt i)

end Sys2Proof.Machine
end

