-- ==== Sys2Proof/Machine/Fp.lean ====
section
/-! DEFINITION. Machine/Fp.lean: sums in an open order, transcendental functions within 2 units in the last place, packed halves, the scan (R141, R156, R202, R205, R219). -/

namespace Sys2Proof.Machine

/-! ### Sums whose order and roundings the spec leaves open (R141, R202, R217) -/

/-- Number `k` of a list of open choices, below `m`. -/
def openPick (l : List Nat) (k m : Nat) : Nat := if m = 0 then 0 else l.getD k 0 % m

/-- The sum of terms: two of them at a time, chosen by `l`, each addition rounded to FP32 or exact as `l` chooses; `fuel` bounds it. -/
def sumTerms (l : List Nat) : Nat → Nat → List Num → Num
  | 0, _, xs => xs.foldl Num.add (.val false 0 1)
  | fuel + 1, k, xs =>
    match xs with
    | [] => .val false 0 1
    | [x] => x
    | _ =>
      let i := openPick l (3 * k) xs.length
      let rest := xs.eraseIdx i
      let j := openPick l (3 * k + 1) rest.length
      let s := (xs.getD i (.val false 0 1)).add (rest.getD j (.val false 0 1))
      sumTerms l fuel (k + 1) ((if openPick l (3 * k + 2) 2 = 0 then s else f32v (f32 s)) :: rest.eraseIdx j)

/-- The FP32 sum of terms in the `n`-th open order. -/
def sumFree (n : Nat) (xs : List Num) : W32 := f32 (sumTerms (Config.order n) xs.length 0 xs)

/-! ### Within 2 units in the last place (R205) -/

/-- 2^96: the unit of the fixed-point evaluations. -/
def fxOne : Int := 79228162514264337593543950336

/-- ln 2 in units of 2^-96. -/
def fxLn2 : Int := 54916777467707473351141471128

/-- exp(r) for 0 ≤ r < ln 2 in units of 2^-96: the Taylor sum, from term `k` down. -/
def fxExp (r : Int) : Nat → Int → Int
  | 0, acc => acc
  | k + 1, acc => fxExp r k (fxOne + r * acc / (((k + 1 : Nat) : Int) * fxOne))

/-- A signed fraction in units of 2^-96. -/
def fxOf (neg : Bool) (p q : Nat) : Int := if neg then -((p * 2 ^ 96 / q : Nat) : Int) else ((p * 2 ^ 96 / q : Nat) : Int)

/-- exp of a fraction of magnitude below 128, as a value. -/
def expNum (neg : Bool) (p q : Nat) : Num :=
  let x := fxOf neg p q
  let n := x / fxLn2
  dyadic false (fxExp (x - n * fxLn2) 32 fxOne).toNat (n - 96)

/-- The sum of z^(2i+1)/(2i+1) in units of 2^-96, for i from 0; `t` is z^(2i+1). -/
def fxAtanh (z2 : Int) : Nat → Nat → Int → Int
  | 0, _, _ => 0
  | k + 1, i, t => t / (2 * (i : Int) + 1) + fxAtanh z2 k (i + 1) (t * z2 / fxOne)

/-- ln of a fraction above 0, in units of 2^-96. -/
def fxLog (p q : Nat) : Int :=
  let k := floorLog2 p q
  let m : Int := if 0 ≤ k then ((p * 2 ^ 96 / (q * 2 ^ k.toNat) : Nat) : Int) else ((p * 2 ^ ((-k).toNat + 96) / q : Nat) : Int)
  let z := (m - fxOne) * fxOne / (m + fxOne)
  k * fxLn2 + 2 * fxAtanh (z * z / fxOne) 48 0 z

/-- An FP32 word within 2 units in the last place of a value above 0, chosen by `free`. -/
def nearPos (p q : Nat) (free : Nat) : W32 :=
  let c := (fp32.encode (.val false p q) none true).1
  let x := c + free % 5 - 2
  let e := max (floorLog2 p q) (-126) - 23
  match fp32.value x with
  | .val _ r s =>
    -- |r/s − p/q| ≤ 2 × 2^e
    let diff := if r * q ≤ p * s then p * s - r * q else r * q - p * s
    let ok := if 0 ≤ e then decide (diff ≤ 2 * 2 ^ e.toNat * (s * q)) else decide (diff * 2 ^ (-e).toNat ≤ 2 * (s * q))
    BitVec.ofNat 32 (if ok then x else c)
  | _ => BitVec.ofNat 32 c

/-- As `nearPos`, of any value; a zero, an infinity and a NaN are exact. -/
def nearNum (v : Num) (free : Nat) : W32 :=
  match v with
  | .val n p q => if p = 0 then f32 v else nearPos p q free ||| (if n then 0x80000000 else 0)
  | _ => f32 v

/-- Exponential: within 2 units in the last place, exp(±0) = 1 (R205). -/
def f32Exp (a : W32) (free : Nat) : W32 :=
  match f32v a with
  | .nan => f32 .nan
  | .inf n => if n then 0 else f32 (.inf false)
  | .val n p q =>
    if p = 0 then 0x3F800000
    else if 128 * q ≤ p then (if n then nearNum (.val false 1 (2 ^ 160)) free else f32 (.inf false))
    else nearNum (expNum n p q) free

/-- Natural logarithm: log(±0) = −infinity, a negative value gives a NaN (R205). -/
def f32Log (a : W32) (free : Nat) : W32 :=
  match f32v a with
  | .nan => f32 .nan
  | .inf n => if n then f32 .nan else f32 (.inf false)
  | .val n p q =>
    if p = 0 then f32 (.inf true)
    else if n then f32 .nan
    else
      let x := fxLog p q
      nearNum (.val (decide (x < 0)) x.natAbs (2 ^ 96)) free

/-- Reciprocal (R205). -/
def f32Rcp (a : W32) (free : Nat) : W32 := nearNum ((Num.ofInt 1).div (f32v a)) free

/-- Reciprocal square root (R205). -/
def f32Rsqrt (a : W32) (free : Nat) : W32 :=
  match f32v a with
  | .nan => f32 .nan
  | .inf n => if n then f32 .nan else 0
  | .val n p q =>
    if p = 0 then f32 (.inf n)
    else if n then f32 .nan
    else nearNum (.val false (Nat.sqrt (q * 2 ^ 400 / p)) (2 ^ 200)) free

/-! ### Packed halves (R157, R205) -/

/-- The format of a packed half. -/
def halfFmt (bf : Bool) : FpFmt := if bf then bf16 else fp16

/-- An operation on each half of three words, rounded to nearest even in the half's format. -/
def onHalves (bf : Bool) (f : Num → Num → Num → Num) (a b c : W32) : W32 :=
  let x := halfFmt bf
  let h := fun (w : W32) (i : Nat) => x.value (w.toNat / 2 ^ (16 * i) % 2 ^ 16)
  let r := fun (i : Nat) => (x.encode (f (h a i) (h b i) (h c i)) none true).1
  BitVec.ofNat 32 (r 0 + r 1 * 2 ^ 16)

/-- A comparison of each half of two words: a half is 1 where it holds, else 0, as `boolWord` of a whole register. DESIGN CHOICE (log 20). -/
def cmpHalves (bf : Bool) (f : Num → Num → Bool) (a b : W32) : W32 :=
  let x := halfFmt bf
  let h := fun (w : W32) (i : Nat) => x.value (w.toNat / 2 ^ (16 * i) % 2 ^ 16)
  let r := fun (i : Nat) => cond (f (h a i) (h b i)) 1 0
  BitVec.ofNat 32 (r 0 + r 1 * 2 ^ 16)

/-- Four products of bytes summed into a word, modulo 2^32 (R157, R205). -/
def dot4 (sa sb : Bool) (a b c : W32) : W32 :=
  let e := fun (s : Bool) (w : W32) (i : Nat) =>
    if s then signedOf 8 (w.toNat / 2 ^ (8 * i)) else ((w.toNat / 2 ^ (8 * i) % 256 : Nat) : Int)
  c + BitVec.ofInt 32 (((List.range 4).map (fun i => e sa a i * e sb b i)).sum)

/-- A truth value as a register holds it. DESIGN CHOICE (log 20). -/
def boolWord (b : Bool) : W32 := if b then 1 else 0

/-- The larger as IEEE 754-2019 maximum: a NaN where either is one, +0 above −0. -/
def f32Max (a b : W32) : W32 :=
  if f32IsNan a || f32IsNan b then f32 .nan
  else if (f32v a).isZero && (f32v b).isZero then a &&& b
  else if f32Lt a b then b else a

/-- The smaller as IEEE 754-2019 minimum. -/
def f32Min (a b : W32) : W32 :=
  if f32IsNan a || f32IsNan b then f32 .nan
  else if (f32v a).isZero && (f32v b).isZero then a ||| b
  else if f32Lt b a then b else a

/-- A shift by less than the width; the spec states no result for a longer one, so it is the free word. -/
def shiftOr (f : W32 → Nat → W32) (a b : W32) (free : Nat) : W32 := if b.toNat < 32 then f a b.toNat else BitVec.ofNat 32 free

/-- The result of a vector operation on one thread's registers; `free` chooses within the bounds of R205. -/
def vecResult (op : VecOp) (a b c : W32) (free : Nat) : W32 :=
  match op with
  | .fadd => f32Add a b
  | .fsub => f32Sub a b
  | .fmul => f32Mul a b
  | .ffma => f32Fma a b c
  | .fmin => f32Min a b
  | .fmax => f32Max a b
  | .flt => boolWord (f32Lt a b)
  | .fle => boolWord ((f32v a).le (f32v b))
  | .feq => boolWord ((f32v a).eqv (f32v b))
  | .fexp => f32Exp a free
  | .flog => f32Log a free
  | .frcp => f32Rcp a free
  | .frsqrt => f32Rsqrt a free
  | .padd bf => onHalves bf (fun x y _ => x.add y) a b c
  | .psub bf => onHalves bf (fun x y _ => x.add y.neg) a b c
  | .pmul bf => onHalves bf (fun x y _ => x.mul y) a b c
  | .pmin bf => onHalves bf (fun x y _ => x.minimum y) a b c
  | .pmax bf => onHalves bf (fun x y _ => x.maximum y) a b c
  | .plt bf => cmpHalves bf Num.lt a b
  | .ple bf => cmpHalves bf Num.le a b
  | .peq bf => cmpHalves bf Num.eqv a b
  | .pfma bf => onHalves bf (fun x y z => (x.mul y).add z) a b c
  | .iadd => a + b
  | .isub => a - b
  | .imul => a * b
  | .iand => a &&& b
  | .ior => a ||| b
  | .ixor => a ^^^ b
  | .ishl => shiftOr (fun x n => x <<< n) a b free
  | .ishr => shiftOr (fun x n => x >>> n) a b free
  | .isar => shiftOr (fun x n => x.sshiftRight n) a b free
  | .ilt => boolWord (a.slt b)
  | .iltu => boolWord (a.ult b)
  | .ieq => boolWord (a == b)
  | .imin => if a.slt b then a else b
  | .imax => if a.slt b then b else a
  | .dot4 sa sb => dot4 sa sb a b c
  | .sel => if a = 0 then b else c
  | .mov => a

/-! ### The parallel scan (R156) -/

/-- `(a1, b1)` then `(a2, b2)`, each operation rounded once. -/
def scanJoin (x y : W32 × W32) : W32 × W32 := (f32Mul x.1 y.1, f32Fma y.1 x.2 y.2)

/-- Elements `lo` to `lo + n - 1` combined in a tree of at most `lv` levels whose shape is open. -/
def scanRange (e : List (W32 × W32)) : Nat → Nat → Nat → W32 × W32
  | 0, lo, _ => e.getD lo (0x3F800000, 0)
  | lv + 1, lo, n =>
    if n ≤ 1 then e.getD lo (0x3F800000, 0)
    else
      -- the left part holds from max(1, n − 2^lv) to min(2^lv, n − 1) elements
      let least := max 1 (n - 2 ^ lv)
      let most := min (2 ^ lv) (n - 1)
      let k := least + Config.scanSplit lo n lv % (most - least + 1)
      scanJoin (scanRange e lv lo k) (scanRange e lv (lo + k) (n - k))

/-- The inclusive scan of up to 32 elements with a carry-in, and the running product of `a` that its tree yields (R156, R219, R278). -/
def scanAll (e : List (W32 × W32)) (carry : W32) : List (W32 × W32) :=
  (List.range e.length).map (fun j => let r := scanRange e 5 0 (j + 1); (f32Fma r.1 carry r.2, r.1))

end Sys2Proof.Machine
end

