-- ==== Sys2Proof/Machine/Pixel.lean ====
section
/-! DEFINITION. Machine/Pixel.lean: pixel formats, coverage, depth, stencil and blending (R158 to R160, R456, R461, R466). -/

namespace Sys2Proof.Machine

/-! ### Channels -/

/-- A value brought into 0 to 1, as a fraction; a NaN counts as 0. -/
def unit01 (v : Num) : Nat × Nat :=
  match v with
  | .nan => (0, 1)
  | .inf n => if n then (0, 1) else (1, 1)
  | .val n p q => if n then (0, 1) else if q < p then (1, 1) else (p, q)

/-- A value as an unsigned normalised code of `w` bits; between two codes the spec states no rounding, so `free` picks one. -/
def unormFree (w : Nat) (v : Num) (free : Nat) : Nat :=
  let x := unit01 v
  let p := x.1 * (2 ^ w - 1)
  p / x.2 + (if p % x.2 = 0 then 0 else free % 2)

/-- A value as an unsigned normalised code of `w` bits, to nearest, ties to even. -/
def unormRne (w : Nat) (v : Num) : Nat :=
  let x := unit01 v
  rneDiv (x.1 * (2 ^ w - 1)) x.2

/-- The value of an unsigned normalised code. -/
def unormValue (w c : Nat) : Num := .val false c (2 ^ w - 1)

/-- `p / q` is at least the linear value of the sRGB code half a step below `c`: beyond it the nearest code is `c` or higher.
PRESUMED (log 30): the transfer function of IEC 61966-2-1. -/
def srgbAtLeast (p q c : Nat) : Bool :=
  let a := 2 * c - 1
  if a * 100000 ≤ 4045 * 510 then
    decide (q * (a * 100) < p * (510 * 1292)) || (decide (q * (a * 100) = p * (510 * 1292)) && c % 2 == 0)
  else decide (q ^ 5 * (a * 1000 + 55 * 510) ^ 12 ≤ p ^ 5 * (510 * 1055) ^ 12)

/-- A linear value as an sRGB code, to nearest (R159, R466). -/
def srgbEncode (v : Num) : Nat :=
  let x := unit01 v
  ((List.range 256).filter (fun c => decide (0 < c) && srgbAtLeast x.1 x.2 c)).length

/-- The linear value of an sRGB code is at least that of an FP32 word. -/
def srgbReaches (c w : Nat) : Bool :=
  match fp32.value w with
  | .val _ p q => decide (p ^ 5 * (255 * 1055) ^ 12 ≤ q ^ 5 * (c * 1000 + 55 * 255) ^ 12)
  | _ => false

/-- The linear value of an sRGB code in FP32; where it lies between two words `free` picks one (R159). -/
def srgbDecode (c free : Nat) : Num :=
  if c * 100000 ≤ 4045 * 255 then f32v (f32 (.val false (c * 100) (255 * 1292)))
  else if 255 ≤ c then .val false 1 1
  else
    let w := (List.range 30).foldl (fun (w : Nat) i => if srgbReaches c (w + 2 ^ (29 - i)) then w + 2 ^ (29 - i) else w) 0
    fp32.value (w + free % 2)

/-! ### Target formats: 0 RGBA8 UNORM, 1 RGBA8 sRGB, 2 RGB10A2 UNORM, 3 RGBA16F (R456) -/

/-- Bytes per pixel of a target format (R465). -/
def texelBytes (fmt : Nat) : Nat := if fmt = 3 then 8 else 4

/-- Bits of channel `k` (R, G, B, A) of a format. -/
def chanBits (fmt k : Nat) : Nat := match fmt with | 2 => (if k = 3 then 2 else 10) | 3 => 16 | _ => 8

/-- The bit at which channel `k` begins: R lowest. PRESUMED (log 31). -/
def chanAt (fmt k : Nat) : Nat := k * (match fmt with | 2 => 10 | 3 => 16 | _ => 8)

/-- The code of channel `k` of a texel. -/
def chanCode (fmt k texel : Nat) : Nat := texel / 2 ^ chanAt fmt k % 2 ^ chanBits fmt k

/-- The linear value of channel `k` of a texel. -/
def chanValue (fmt k texel free : Nat) : Num :=
  let c := chanCode fmt k texel
  match fmt with
  | 1 => if k = 3 then unormValue 8 c else srgbDecode c free
  | 3 => fp16.value c
  | _ => unormValue (chanBits fmt k) c

/-- The code of a linear value in channel `k`; UNORM roundings of a blend are free. -/
def chanEncode (fmt k : Nat) (v : Num) (free : Nat) : Nat :=
  match fmt with
  | 1 => if k = 3 then unormFree 8 v free else srgbEncode v
  | 3 => (fp16.encode v none true).1
  | _ => unormFree (chanBits fmt k) v free

/-- The code of a linear value in channel `k`, to nearest even (R466). -/
def chanRne (fmt k : Nat) (v : Num) : Nat :=
  match fmt with
  | 1 => if k = 3 then unormRne 8 v else srgbEncode v
  | 3 => (fp16.encode v none true).1
  | _ => unormRne (chanBits fmt k) v

/-- A texel of four channel codes. -/
def texelOf (fmt : Nat) (codes : List Nat) : Nat :=
  ((List.range 4).map (fun k => codes.getD k 0 * 2 ^ chanAt fmt k)).sum

/-! ### Coverage (R461) -/

/-- Sample offsets in 1/8 pixel: the centre for 1 sample, the four of R461 for 4. -/
def sampleAt (samples s : Nat) : Int × Int :=
  if samples = 1 then (4, 4) else match s with | 0 => (3, 1) | 1 => (7, 3) | 2 => (1, 5) | _ => (5, 7)

/-- The position of a sample in 1/256 pixel. -/
def samplePos (samples x y s : Nat) : Int × Int := ((x : Int) * 256 + (sampleAt samples s).1 * 32, (y : Int) * 256 + (sampleAt samples s).2 * 32)

/-- Twice the signed area of the triangle from an edge to a point. -/
def edgeArea (a b p : Int × Int) : Int := (b.1 - a.1) * (p.2 - a.2) - (b.2 - a.2) * (p.1 - a.1)

/-- The edge is a top or a left edge of a triangle of positive area (y grows downwards). -/
def topLeft (a b : Int × Int) : Bool := decide (b.2 < a.2) || (a.2 == b.2 && decide (a.1 < b.1))

/-- A point lies inside an edge under the top-left rule. -/
def insideEdge (a b p : Int × Int) : Bool := decide (0 < edgeArea a b p) || (edgeArea a b p == 0 && topLeft a b)

/-- A triangle covers a point: its vertices are taken in the order that gives positive area. -/
def covers (a b c p : Int × Int) : Bool :=
  let k := edgeArea a b c
  if k = 0 then false
  else if 0 < k then insideEdge a b p && insideEdge b c p && insideEdge c a p
  else insideEdge a c p && insideEdge c b p && insideEdge b a p

/-! ### Compare and stencil functions (R158, R456) -/

/-- A compare function of R158, by its code: `lt`, `eq` are of the new value against the stored. -/
def compareFn (f : Nat) (lt eq : Bool) : Bool :=
  match f with
  | 0 => false
  | 1 => lt
  | 2 => eq
  | 3 => lt || eq
  | 4 => !lt && !eq
  | 5 => !eq
  | 6 => !lt
  | _ => true

/-- The depth test: D16 codes compare as numbers, D32F words as FP32. -/
def depthPasses (f depthFmt new stored : Nat) : Bool :=
  if depthFmt = 2 then
    let a := fp32.value new
    let b := fp32.value stored
    if a.isNan || b.isNan then f == 5 || f == 7 else compareFn f (a.lt b) (a.eqv b)
  else compareFn f (decide (new < stored)) (new == stored)

/-- A stencil operation of R158, by its code. -/
def stencilOp (op ref v : Nat) : Nat :=
  match op with
  | 0 => v
  | 1 => 0
  | 2 => ref
  | 3 => min (v + 1) 255
  | 4 => v - 1
  | 5 => 255 - v
  | 6 => (v + 1) % 256
  | _ => (v + 255) % 256

/-- `new` where `mask` has ones, `old` elsewhere. -/
def maskInto (mask old new : Nat) : Nat := Nat.lor (Nat.land old (255 - mask)) (Nat.land new mask)

/-! ### Blending (R159, R456) -/

/-- A blend factor by its code, for channel `k` of the source, destination and constant colours. -/
def blendFactor (code k : Nat) (s d c : Nat → Num) : Num :=
  let one : Num := .val false 1 1
  let minus := fun (v : Num) => one.add v.neg
  match code with
  | 0 => .val false 0 1
  | 1 => one
  | 2 => s k
  | 3 => minus (s k)
  | 4 => d k
  | 5 => minus (d k)
  | 6 => s 3
  | 7 => minus (s 3)
  | 8 => d 3
  | 9 => minus (d 3)
  | 10 => c k
  | _ => minus (c k)

/-- A blend equation by its code. -/
def blendEq (code : Nat) (s sf d df : Num) : Num :=
  match code with
  | 0 => (s.mul sf).add (d.mul df)
  | 1 => (s.mul sf).add (d.mul df).neg
  | 2 => (d.mul df).add (s.mul sf).neg
  | 3 => s.min d
  | _ => s.max d

/-- A texel after a fragment's colour is blended into it: BLEND of the STATE record, its constant, and free roundings. -/
def blendTexel (fmt blend const texel : Nat) (colour : List W32) (free : Nat) : Nat :=
  let s := fun k => f32v (colour.getD k 0)
  let d := fun k => chanValue fmt k texel (free / 2 ^ k)
  let c := fun k => unormValue 8 (const / 2 ^ (8 * k) % 256)
  texelOf fmt ((List.range 4).map (fun k =>
    if !nbit blend (23 + k) then chanCode fmt k texel
    else
      let v := if !nbit blend 0 then s k
        else if k = 3 then blendEq (nfld blend 22 20) (s 3) (blendFactor (nfld blend 15 12) 3 s d c) (d 3) (blendFactor (nfld blend 19 16) 3 s d c)
        else blendEq (nfld blend 11 9) (s k) (blendFactor (nfld blend 4 1) k s d c) (d k) (blendFactor (nfld blend 8 5) k s d c)
      chanEncode fmt k v (free / 2 ^ (4 + k))))

/-- The colour of a pixel with 4 samples: each made linear, averaged in FP32, and encoded to nearest even (R466); `order` picks the order of
the sum, which the spec leaves open. -/
def resolveTexel (fmt order free : Nat) (texels : List Nat) : Nat :=
  texelOf fmt ((List.range 4).map (fun k =>
    let vs := texels.map (fun t => f32v (f32 (chanValue fmt k t (free / 2 ^ k))))
    chanRne fmt k (f32v (f32Mul (sumFree (order + k) vs) 0x3E800000))))

end Sys2Proof.Machine
end

