-- ==== Sys2Proof/Machine/RegTable.lean ====
section
/-! DEFINITION. Machine/RegTable.lean: every set-up register of the spec (chapters 01 to 15, the register tables): its offset,
access type (R9), reset value, and the fields a write stages, each with its legal values (R79). -/

namespace Sys2Proof.Machine

/-- The access types of R9; `ns` is an RW register that its table calls "not staged". -/
inductive Acc where
  | ro | rw | ns | w1c | wo
  deriving DecidableEq, Repr

/-- The dependent ranges of the register tables, each computed by `depValue` (R79). -/
inductive Dep where
  | bankId
  | binMib
  | camEnable
  | camOutH
  | camOutW
  | camStride
  | canData
  | canNom
  | capEdge
  | ceilMhz
  | dispEnable
  | displayMask
  | gwPortEn
  | ibrEnable
  | ivmMin
  | kvDirPages
  | kvEnable
  | kvPoolPages
  | kvRsvPages
  | lastBall
  | linBaud
  | linkLanes
  | linkRate
  | loadCount
  | overBalls
  | overLen
  | overPhase
  | pciePort
  | pclk
  | pickup
  | pow2Ring
  | pulseBall
  | pulsePeriod
  | pulseWidth
  | qeCmdSize
  | qeCplSize
  | rsvEnable
  | rsvFirst
  | rsvMaxRows
  | rsvSpare
  | rtEnable
  | rtLimitHi
  | rtLimitLo
  | rxSize
  | setupSec
  | slewLimit
  | umpMin
  | umpQuota
  | vcSize
  | wdgLock
  | wdgTimeout
  | wdgWarn
  deriving DecidableEq, Repr

/-- The legal values of a field (R79). -/
inductive Legal where
  /-- Every value of the field is legal. -/
  | any
  /-- `lo` to `hi` in steps of `step` from `lo`; an illegal value takes the nearest legal one, the lower of two. -/
  | range (lo hi step : Nat)
  /-- The codes up to `max`, and `also`, are legal; another is replaced by `repl`. -/
  | codes (max repl also : Nat)
  /-- While the enable bit `bit` of the register `lockOff - selfOff` away is 1 and stays 1, a write is replaced by the applied value. -/
  | locked (lockOff selfOff bit : Nat)
  /-- The range depends on another field or on the part: `depValue` computes it. -/
  | dep (d : Dep)
  deriving DecidableEq, Repr

/-- One segment of a register, bits `hi` down to `lo`: a field, or a reserved run (R10). -/
structure Seg where
  hi : Nat
  lo : Nat
  legal : Option Legal   -- `none`: reserved
  deriving DecidableEq, Repr

/-- A register, or an array of registers. -/
structure RegDesc where
  off : Nat
  acc : Acc
  reset : Nat
  dims : List (Nat × Nat)   -- (count, stride), outer first
  wide : Bool               -- 64 bits
  segs : List Seg
  deriving DecidableEq, Repr

/-- A set-up block: `n` instances of it, `stride` apart from `base`. -/
structure Block where
  base : Nat
  n : Nat
  stride : Nat
  regs : List RegDesc
  deriving DecidableEq, Repr

/-- Registers of the block Global (part 0). -/
def regsGlobal0 : List RegDesc := [
  ⟨0x0, .ro, 0x0, [], false, []⟩,  -- LS_IDENT
  ⟨0x8, .ro, 0x0, [], false, []⟩,  -- GLB_MODULE
  ⟨0x10, .rw, 0x100014, [], false, [⟨8, 0, some (.dep .overLen)⟩, ⟨15, 9, none⟩, ⟨22, 16, some (.dep .overBalls)⟩, ⟨23, 23, none⟩, ⟨24, 24, some .any⟩, ⟨26, 25, some (.codes 1 1 1)⟩, ⟨31, 27, none⟩]⟩,  -- OVER_CTRL
  ⟨0x14, .rw, 0x0, [], false, [⟨31, 0, some (.dep .overPhase)⟩]⟩,  -- OVER_PHASE
  ⟨0x18, .rw, 0x3E8, [], false, [⟨15, 0, some (.range 10 60000 1)⟩, ⟨31, 16, none⟩]⟩,  -- OVER_HOLDOVER
  ⟨0x1C, .rw, 0x64, [], false, [⟨15, 0, some (.dep .slewLimit)⟩, ⟨31, 16, none⟩]⟩,  -- OVER_SLEW_LIMIT
  ⟨0x20, .ro, 0x0, [], false, []⟩,  -- OVER_COUNT
  ⟨0x24, .ro, 0x4, [], false, []⟩,  -- OVER_STATUS
  ⟨0x28, .w1c, 0x0, [], false, [⟨5, 0, some .any⟩]⟩,  -- OVER_EVENTS
  ⟨0x2C, .rw, 0x0, [], false, [⟨5, 0, some .any⟩, ⟨31, 6, none⟩]⟩,  -- OVER_INT_EN
  ⟨0x30, .ro, 0x0, [], false, []⟩,  -- OVER_EDGE_NS
  ⟨0x34, .ro, 0x0, [], false, []⟩,  -- OVER_EDGE_SEC
  ⟨0x38, .ro, 0x0, [], false, []⟩,  -- OVER_BALL
  ⟨0x3C, .ro, 0x0, [], false, []⟩,  -- OVER_PHASE_ERR
  ⟨0x100, .rw, 0x140F, [], false, [⟨3, 0, some (.codes 7 15 15)⟩, ⟨7, 4, some .any⟩, ⟨17, 8, some (.range 0 1000 1)⟩, ⟨31, 18, none⟩]⟩,  -- SCH_CTRL
  ⟨0x104, .ro, 0x0, [], false, []⟩]  -- SCH_STATUS

/-- Registers of the block Global (part 1). -/
def regsGlobal1 : List RegDesc := [
  ⟨0x108, .w1c, 0x0, [], false, [⟨4, 0, some .any⟩]⟩,  -- SCH_EVENTS
  ⟨0x10C, .rw, 0x0, [], false, [⟨4, 0, some .any⟩, ⟨31, 5, none⟩]⟩,  -- SCH_INT_EN
  ⟨0x110, .ro, 0x0, [], false, []⟩,  -- SCH_CNT_REJECT
  ⟨0x114, .ro, 0x0, [], false, []⟩,  -- SCH_CNT_KILL
  ⟨0x118, .ro, 0x0, [], false, []⟩,  -- SCH_CNT_OVERRUN
  ⟨0x11C, .ro, 0x0, [], false, []⟩,  -- SCH_LOADER_BW
  ⟨0x120, .rw, 0x0, [(8, 0x10)], false, [⟨0, 0, some .any⟩, ⟨2, 1, some .any⟩, ⟨3, 3, none⟩, ⟨7, 4, some .any⟩, ⟨10, 8, some (.codes 4 4 4)⟩, ⟨11, 11, some .any⟩, ⟨15, 12, none⟩, ⟨22, 16, some (.range 0 50 1)⟩, ⟨31, 23, none⟩]⟩,  -- SCH_PART_CTRL
  ⟨0x124, .rw, 0x3F00, [(8, 0x10)], false, [⟨5, 0, some (.range 0 63 1)⟩, ⟨7, 6, none⟩, ⟨13, 8, some (.dep .lastBall)⟩, ⟨31, 14, none⟩]⟩,  -- SCH_PART_WIN
  ⟨0x128, .ro, 0x0, [(8, 0x10)], false, []⟩,  -- SCH_PART_STATUS
  ⟨0x12C, .wo, 0x0, [(8, 0x10)], false, []⟩,  -- SCH_PART_RESET
  ⟨0x200, .ro, 0x0, [(16, 0x4)], false, []⟩,  -- BW_CLASS_MIN
  ⟨0x240, .w1c, 0x0, [], false, [⟨1, 0, some .any⟩]⟩,  -- RT_EVENTS
  ⟨0x244, .rw, 0x0, [], false, [⟨1, 0, some .any⟩, ⟨31, 2, none⟩]⟩,  -- RT_INT_EN
  ⟨0x248, .ro, 0x0, [], false, []⟩,  -- RT_DENIED
  ⟨0x24C, .ro, 0x0, [], false, []⟩,  -- RT_DENY_ADDR_LO
  ⟨0x250, .ro, 0x0, [], false, []⟩]  -- RT_DENY_ADDR_HI

/-- Registers of the block Global (part 2). -/
def regsGlobal2 : List RegDesc := [
  ⟨0xFFC, .wo, 0x0, [], false, []⟩,  -- GLB_CFG_APPLY
  ⟨0x1000, .rw, 0x0, [(64, 0x20)], false, [⟨11, 0, none⟩, ⟨31, 12, some .any⟩]⟩,  -- RT_BASE_LO
  ⟨0x1004, .rw, 0x0, [(64, 0x20)], false, [⟨19, 0, some .any⟩, ⟨31, 20, none⟩]⟩,  -- RT_BASE_HI
  ⟨0x1008, .rw, 0x1000, [(64, 0x20)], false, [⟨11, 0, none⟩, ⟨31, 12, some (.dep .rtLimitLo)⟩]⟩,  -- RT_LIMIT_LO
  ⟨0x100C, .rw, 0x0, [(64, 0x20)], false, [⟨19, 0, some (.dep .rtLimitHi)⟩, ⟨31, 20, none⟩]⟩,  -- RT_LIMIT_HI
  ⟨0x1010, .rw, 0x0, [(64, 0x20)], false, [⟨0, 0, some (.dep .rtEnable)⟩, ⟨1, 1, some .any⟩, ⟨2, 2, some .any⟩, ⟨3, 3, some .any⟩, ⟨4, 4, some .any⟩, ⟨5, 5, some .any⟩, ⟨7, 6, none⟩, ⟨11, 8, some .any⟩, ⟨31, 12, none⟩]⟩,  -- RT_ATTR
  ⟨0x1014, .ro, 0x0, [(64, 0x20)], false, []⟩,  -- RT_DISCARD_CNT
  ⟨0x1018, .ro, 0x0, [(64, 0x20)], false, []⟩,  -- RT_DISCARD_ADDR_LO
  ⟨0x101C, .ro, 0x0, [(64, 0x20)], false, []⟩]  -- RT_DISCARD_ADDR_HI

/-- Registers of the block Cfg (part 0). -/
def regsCfg : List RegDesc := [
  ⟨0x0, .ro, 0x0, [], false, []⟩,  -- START_STAGE
  ⟨0x4, .ro, 0x0, [], false, []⟩,  -- START_FAIL
  ⟨0x8, .ro, 0x0, [], false, []⟩,  -- START_STRAPS
  ⟨0xC, .ro, 0x0, [], false, []⟩,  -- CFG_REC_STATUS
  ⟨0x10, .ro, 0x0, [], false, []⟩,  -- CFG_REC_SEQ
  ⟨0x14, .wo, 0x0, [], false, []⟩,  -- START_CTRL
  ⟨0x20, .rw, 0x0, [], false, [⟨5, 0, none⟩, ⟨31, 6, some .any⟩]⟩,  -- CLAMP_RING_BASE_LO
  ⟨0x24, .rw, 0x0, [], false, [⟨19, 0, some .any⟩, ⟨31, 20, none⟩]⟩,  -- CLAMP_RING_BASE_HI
  ⟨0x28, .rw, 0x200, [], false, [⟨31, 0, some (.dep .pow2Ring)⟩]⟩,  -- CLAMP_RING_SIZE
  ⟨0x2C, .ro, 0x0, [], false, []⟩,  -- CLAMP_PROD
  ⟨0x30, .ns, 0x0, [], false, [⟨31, 0, some .any⟩]⟩,  -- CLAMP_CONS
  ⟨0x34, .ro, 0x0, [], false, []⟩,  -- CLAMP_DROPPED
  ⟨0xFFC, .wo, 0x0, [], false, []⟩]  -- CFG_APPLY

/-- Registers of the block Tile (part 0). -/
def regsTile0 : List RegDesc := [
  ⟨0x0, .ro, 0x0, [], false, []⟩,  -- TILE_IDENT
  ⟨0x4, .rw, 0xF1, [], false, [⟨0, 0, some .any⟩, ⟨3, 1, none⟩, ⟨7, 4, some (.codes 7 15 15)⟩, ⟨8, 8, some .any⟩, ⟨31, 9, none⟩]⟩,  -- TILE_CTRL
  ⟨0x8, .rw, 0x4E203E8, [], false, [⟨10, 0, some (.range 600 1000 25)⟩, ⟨15, 11, none⟩, ⟨26, 16, some (.dep .ceilMhz)⟩, ⟨31, 27, none⟩]⟩,  -- TILE_FREQ_CTRL
  ⟨0xC, .ro, 0x5, [], false, []⟩,  -- TILE_STATUS
  ⟨0x10, .w1c, 0x0, [], false, [⟨5, 0, some .any⟩]⟩,  -- TILE_EVENTS
  ⟨0x14, .rw, 0x0, [], false, [⟨5, 0, some .any⟩, ⟨31, 6, none⟩]⟩,  -- TILE_INT_EN
  ⟨0x18, .ro, 0x3E8, [], false, []⟩,  -- TILE_FREQ
  ⟨0x1C, .ro, 0x0, [], false, []⟩,  -- TILE_TEMP
  ⟨0x20, .rw, 0x2000040, [], false, [⟨6, 0, some (.range 1 64 1)⟩, ⟨15, 7, none⟩, ⟨25, 16, some (.range 16 512 1)⟩, ⟨31, 26, none⟩]⟩,  -- TILE_AE_CTRL
  ⟨0x24, .ro, 0x0, [], false, []⟩,  -- TILE_AE_STATUS
  ⟨0x28, .rw, 0x0, [], false, [⟨0, 0, some .any⟩, ⟨31, 1, none⟩]⟩,  -- TILE_RNG_CTRL
  ⟨0x2C, .rw, 0x0, [], false, [⟨31, 0, some .any⟩]⟩,  -- TILE_RNG_SEED
  ⟨0x30, .ro, 0x0, [], false, []⟩,  -- TILE_ECC_CE
  ⟨0x34, .ro, 0x0, [], false, []⟩,  -- TILE_ECC_UE
  ⟨0x38, .ro, 0x0, [], false, []⟩,  -- TILE_FAULT_ADDR_LO
  ⟨0x3C, .ro, 0x0, [], false, []⟩]  -- TILE_FAULT_ADDR_HI

/-- Registers of the block Tile (part 1). -/
def regsTile1 : List RegDesc := [
  ⟨0x40, .ro, 0x0, [], true, []⟩,  -- TILE_CNT_BUSY
  ⟨0x48, .ro, 0x0, [], true, []⟩,  -- TILE_CNT_MX
  ⟨0x50, .ro, 0x0, [], true, []⟩,  -- TILE_CNT_VU
  ⟨0x58, .ro, 0x0, [], true, []⟩,  -- TILE_CNT_AE_WAIT
  ⟨0x60, .ro, 0x0, [], true, []⟩,  -- TILE_CNT_AE_BYTES
  ⟨0x68, .ro, 0x0, [], true, []⟩,  -- TILE_CNT_ST_BYTES
  ⟨0x70, .ro, 0x0, [], true, []⟩,  -- TILE_CNT_RT_BYTES
  ⟨0x80, .ro, 0x0, [], false, []⟩,  -- TILE_ROUTER_STATUS
  ⟨0x84, .ro, 0x0, [], false, []⟩,  -- TILE_ROUTER_ERR
  ⟨0x100, .rw, 0x0, [(32, 0x4)], false, [⟨2, 0, some (.codes 3 0 3)⟩, ⟨3, 3, none⟩, ⟨7, 4, some (.dep .bankId)⟩, ⟨8, 8, some .any⟩, ⟨9, 9, some .any⟩, ⟨10, 10, some .any⟩, ⟨11, 11, some .any⟩, ⟨31, 12, none⟩]⟩,  -- TILE_BANK_OWNER
  ⟨0x180, .ro, 0x0, [(32, 0x4)], false, []⟩,  -- TILE_BANK_STATUS
  ⟨0x200, .rw, 0x1001, [], false, [⟨0, 0, some .any⟩, ⟨7, 1, none⟩, ⟨19, 8, some (.range 4 4095 1)⟩, ⟨31, 20, none⟩]⟩,  -- TILE_BTEST_CTRL
  ⟨0x204, .rw, 0xFFFFFFFF, [], false, [⟨31, 0, some .any⟩]⟩,  -- TILE_BTEST_MASK
  ⟨0x208, .ro, 0x0, [], false, []⟩,  -- TILE_BTEST_STATUS
  ⟨0x20C, .w1c, 0x0, [], false, [⟨4, 0, some .any⟩]⟩,  -- TILE_BTEST_EVENTS
  ⟨0x210, .rw, 0x0, [], false, [⟨4, 0, some .any⟩, ⟨31, 5, none⟩]⟩]  -- TILE_BTEST_INT_EN

/-- Registers of the block Tile (part 2). -/
def regsTile2 : List RegDesc := [
  ⟨0x214, .ro, 0x0, [], false, []⟩,  -- TILE_BTEST_FAIL_OFF
  ⟨0x218, .ro, 0x0, [], false, []⟩,  -- TILE_SP_ECC_CE
  ⟨0x21C, .ro, 0x0, [], false, []⟩,  -- TILE_SP_ECC_UE
  ⟨0x220, .ro, 0x0, [], false, []⟩,  -- TILE_SP_ECC_OFF
  ⟨0x224, .ro, 0x0, [], false, []⟩,  -- TILE_MAIN_DENIED
  ⟨0x228, .ro, 0x0, [], false, []⟩,  -- TILE_PASS_CYCLES
  ⟨0xFFC, .wo, 0x0, [], false, []⟩]  -- TILE_CFG_APPLY

/-- Registers of the block Ump (part 0). -/
def regsUmp0 : List RegDesc := [
  ⟨0x0, .ro, 0x0, [], false, []⟩,  -- UMP_IDENT
  ⟨0x4, .rw, 0x303, [], false, [⟨3, 0, some .any⟩, ⟨7, 4, none⟩, ⟨13, 8, some .any⟩, ⟨31, 14, none⟩]⟩,  -- UMP_CTRL
  ⟨0x8, .ro, 0x0, [], false, []⟩,  -- UMP_STATUS
  ⟨0xC, .w1c, 0x0, [], false, [⟨3, 0, some .any⟩]⟩,  -- UMP_EVENTS
  ⟨0x10, .rw, 0x0, [], false, [⟨3, 0, some .any⟩, ⟨31, 4, none⟩]⟩,  -- UMP_INT_EN
  ⟨0x14, .ro, 0x0, [], false, []⟩,  -- UMP_ECC_CE
  ⟨0x18, .ro, 0x0, [], false, []⟩,  -- UMP_ECC_UE
  ⟨0x1C, .ro, 0x0, [], false, []⟩,  -- UMP_ECC_ADDR_LO
  ⟨0x20, .ro, 0x0, [], false, []⟩,  -- UMP_ECC_ADDR_HI
  ⟨0x24, .ro, 0x0, [], false, []⟩,  -- UMP_MISS_LAST
  ⟨0x28, .wo, 0x0, [], false, []⟩,  -- UMP_CNT_CLEAR
  ⟨0x100, .rw, 0x0, [(16, 0x4)], false, [⟨15, 15, some .any⟩, ⟨11, 0, some (.dep .umpMin)⟩, ⟨14, 12, none⟩, ⟨27, 16, some (.dep .umpQuota)⟩, ⟨31, 28, none⟩]⟩,  -- UMP_CLASS_CTRL
  ⟨0x140, .rw, 0x0, [(16, 0x4)], false, [⟨7, 0, some .any⟩, ⟨31, 8, none⟩]⟩,  -- UMP_WEIGHT
  ⟨0x200, .ro, 0x0, [(16, 0x20)], true, []⟩,  -- UMP_CNT_GRANT
  ⟨0x208, .ro, 0x0, [(16, 0x20)], true, []⟩,  -- UMP_CNT_WAIT
  ⟨0x210, .ro, 0x0, [(16, 0x20)], false, []⟩]  -- UMP_MAX_WAIT

/-- Registers of the block Ump (part 1). -/
def regsUmp1 : List RegDesc := [
  ⟨0x214, .ro, 0x0, [(16, 0x20)], false, []⟩,  -- UMP_CNT_REVOKE
  ⟨0x218, .ro, 0x0, [(16, 0x20)], false, []⟩,  -- UMP_CNT_MISS
  ⟨0xFFC, .wo, 0x0, [], false, []⟩]  -- UMP_CFG_APPLY

/-- Registers of the block Qe (part 0). -/
def regsQe0 : List RegDesc := [
  ⟨0x0, .rw, 0x0, [], false, [⟨0, 0, some .any⟩, ⟨2, 1, some (.codes 2 0 2)⟩, ⟨3, 3, some (.dep .pciePort)⟩, ⟨31, 4, none⟩]⟩,  -- QE_INST_CTRL
  ⟨0x4, .ro, 0x0, [], false, []⟩,  -- QE_INST_STATUS
  ⟨0x8, .w1c, 0x0, [], false, [⟨3, 0, some .any⟩]⟩,  -- QE_INST_EVENTS
  ⟨0xC, .rw, 0x0, [], false, [⟨3, 0, some .any⟩, ⟨31, 4, none⟩]⟩,  -- QE_INST_INT_EN
  ⟨0x10, .rw, 0x0, [], false, [⟨2, 0, some .any⟩, ⟨7, 3, none⟩, ⟨15, 8, some .any⟩, ⟨17, 16, some .any⟩, ⟨31, 18, none⟩]⟩,  -- QE_INST_SCHED
  ⟨0x14, .rw, 0x0, [], false, [⟨31, 0, some .any⟩]⟩,  -- QE_RATE_CMDS
  ⟨0x18, .rw, 0x0, [], false, [⟨31, 0, some .any⟩]⟩,  -- QE_RATE_TILE_US
  ⟨0x1C, .rw, 0x0, [], false, [⟨31, 0, some .any⟩]⟩,  -- QE_RATE_KIB
  ⟨0x20, .ro, 0x0, [], false, []⟩,  -- QE_KILL_DROPPED
  ⟨0x24, .ro, 0x0, [], false, []⟩,  -- QE_STALE_DB
  ⟨0x28, .wo, 0x0, [], false, []⟩,  -- QE_FREEZE
  ⟨0x2C, .ro, 0x0, [], false, []⟩,  -- QE_FREEZE_STATUS
  ⟨0x30, .rw, 0x0, [], false, [⟨5, 0, none⟩, ⟨31, 6, some .any⟩]⟩,  -- QE_SAVE_BASE_LO
  ⟨0x34, .rw, 0x0, [], false, [⟨19, 0, some .any⟩, ⟨31, 20, none⟩]⟩,  -- QE_SAVE_BASE_HI
  ⟨0x38, .rw, 0x0, [], false, [⟨31, 0, some .any⟩]⟩,  -- QE_SAVE_BYTES
  ⟨0x3C, .ro, 0x0, [], false, []⟩]  -- QE_SAVE_USED

/-- Registers of the block Qe (part 1). -/
def regsQe1 : List RegDesc := [
  ⟨0x100, .rw, 0x0, [(16, 0x20)], false, [⟨11, 0, none⟩, ⟨31, 12, some (.locked 264 256 0)⟩]⟩,  -- QE_CMD_BASE_LO
  ⟨0x104, .rw, 0x0, [(16, 0x20)], false, [⟨19, 0, some (.locked 264 260 0)⟩, ⟨31, 20, none⟩]⟩,  -- QE_CMD_BASE_HI
  ⟨0x108, .rw, 0x400, [(16, 0x20)], false, [⟨0, 0, some .any⟩, ⟨1, 1, some (.dep .pickup)⟩, ⟨7, 2, none⟩, ⟨12, 8, some (.dep .qeCmdSize)⟩, ⟨31, 13, none⟩]⟩,  -- QE_CMD_CTRL
  ⟨0x10C, .rw, 0x0, [(16, 0x20)], false, [⟨2, 0, none⟩, ⟨31, 3, some (.locked 264 268 0)⟩]⟩,  -- QE_DB_ADDR_LO
  ⟨0x110, .rw, 0x0, [(16, 0x20)], false, [⟨19, 0, some (.locked 264 272 0)⟩, ⟨31, 20, none⟩]⟩,  -- QE_DB_ADDR_HI
  ⟨0x114, .ro, 0x0, [(16, 0x20)], false, []⟩,  -- QE_DB_GEN
  ⟨0x118, .ro, 0x0, [(16, 0x20)], false, []⟩,  -- QE_CMD_CONS
  ⟨0x11C, .ro, 0x0, [(16, 0x20)], false, []⟩,  -- QE_CMD_STATUS
  ⟨0x300, .rw, 0x0, [(16, 0x20)], false, [⟨11, 0, none⟩, ⟨31, 12, some (.locked 776 768 0)⟩]⟩,  -- QE_CPL_BASE_LO
  ⟨0x304, .rw, 0x0, [(16, 0x20)], false, [⟨19, 0, some (.locked 776 772 0)⟩, ⟨31, 20, none⟩]⟩,  -- QE_CPL_BASE_HI
  ⟨0x308, .rw, 0x400, [(16, 0x20)], false, [⟨0, 0, some .any⟩, ⟨7, 1, none⟩, ⟨12, 8, some (.dep .qeCplSize)⟩, ⟨15, 13, none⟩, ⟨20, 16, some .any⟩, ⟨31, 21, none⟩]⟩,  -- QE_CPL_CTRL
  ⟨0x30C, .ro, 0x0, [(16, 0x20)], false, []⟩,  -- QE_CPL_PROD
  ⟨0x310, .ns, 0x0, [(16, 0x20)], false, [⟨31, 0, some .any⟩]⟩,  -- QE_CPL_CONS
  ⟨0x314, .ro, 0x0, [(16, 0x20)], false, []⟩,  -- QE_CPL_RESV
  ⟨0xFFC, .wo, 0x0, [], false, []⟩]  -- QE_CFG_APPLY

/-- Registers of the block Kv (part 0). -/
def regsKv0 : List RegDesc := [
  ⟨0x0, .rw, 0x0, [], false, [⟨0, 0, some (.dep .kvEnable)⟩, ⟨31, 1, none⟩]⟩,  -- KV_CTRL
  ⟨0x4, .ro, 0x0, [], false, []⟩,  -- KV_STATUS
  ⟨0x8, .rw, 0x0, [], false, [⟨15, 0, none⟩, ⟨31, 16, some (.locked 0 8 0)⟩]⟩,  -- KV_POOL_BASE_LO
  ⟨0xC, .rw, 0x0, [], false, [⟨19, 0, some (.locked 0 12 0)⟩, ⟨31, 20, none⟩]⟩,  -- KV_POOL_BASE_HI
  ⟨0x10, .rw, 0x0, [], false, [⟨31, 0, some (.dep .kvPoolPages)⟩]⟩,  -- KV_POOL_PAGES
  ⟨0x14, .rw, 0x0, [], false, [⟨31, 0, some (.dep .kvDirPages)⟩]⟩,  -- KV_DIR_PAGES
  ⟨0x18, .rw, 0x0, [], false, [⟨11, 0, none⟩, ⟨31, 12, some (.locked 0 24 0)⟩]⟩,  -- KV_INDEX_BASE_LO
  ⟨0x1C, .rw, 0x0, [], false, [⟨19, 0, some (.locked 0 28 0)⟩, ⟨31, 20, none⟩]⟩,  -- KV_INDEX_BASE_HI
  ⟨0x20, .rw, 0x0, [], false, [⟨15, 0, none⟩, ⟨31, 16, some (.locked 0 32 0)⟩]⟩,  -- KV_TABLE_BASE_LO
  ⟨0x24, .rw, 0x0, [], false, [⟨19, 0, some (.locked 0 36 0)⟩, ⟨31, 20, none⟩]⟩,  -- KV_TABLE_BASE_HI
  ⟨0x28, .rw, 0x0, [], false, [⟨31, 0, some .any⟩]⟩,  -- KV_LOW_WATER
  ⟨0x2C, .w1c, 0x0, [], false, [⟨3, 0, some .any⟩]⟩,  -- KV_EVENTS
  ⟨0x30, .rw, 0x0, [], false, [⟨3, 0, some .any⟩, ⟨31, 4, none⟩]⟩,  -- KV_INT_EN
  ⟨0x34, .ro, 0x0, [], false, []⟩,  -- KV_FREE_PAGES
  ⟨0x38, .ro, 0x0, [], false, []⟩,  -- KV_FREE_DIR
  ⟨0x3C, .ro, 0xFE00, [], false, []⟩]  -- KV_FREE_RECORDS

/-- Registers of the block Kv (part 1). -/
def regsKv1 : List RegDesc := [
  ⟨0x40, .ro, 0x0, [], false, []⟩,  -- KV_CNT_EXHAUSTED
  ⟨0x44, .ro, 0x0, [], false, []⟩,  -- KV_CNT_RECYCLED
  ⟨0x48, .ro, 0x0, [], false, []⟩,  -- KV_CNT_COW
  ⟨0x100, .rw, 0x0, [(8, 0x10)], false, [⟨15, 0, none⟩, ⟨31, 16, some .any⟩]⟩,  -- KV_RSV_BASE_LO
  ⟨0x104, .rw, 0x0, [(8, 0x10)], false, [⟨19, 0, some .any⟩, ⟨31, 20, none⟩]⟩,  -- KV_RSV_BASE_HI
  ⟨0x108, .rw, 0x0, [(8, 0x10)], false, [⟨31, 0, some (.dep .kvRsvPages)⟩]⟩,  -- KV_RSV_PAGES
  ⟨0xFFC, .wo, 0x0, [], false, []⟩,  -- KV_CFG_APPLY
  ⟨0x1000, .rw, 0x0, [(512, 0x8)], true, [⟨32, 29, some (.range 0 10 1)⟩, ⟨20, 0, some (.dep .rsvMaxRows)⟩, ⟨28, 21, some .any⟩, ⟨39, 33, some (.dep .rsvFirst)⟩, ⟨47, 47, some .any⟩, ⟨46, 40, some (.dep .rsvSpare)⟩, ⟨48, 48, some .any⟩, ⟨62, 49, none⟩, ⟨63, 63, some (.dep .rsvEnable)⟩]⟩,  -- KV_RSV_SEQ
  ⟨0x2000, .ro, 0x0, [(512, 0x8)], true, []⟩,  -- KV_RSV_LEN
  ⟨0x3000, .ro, 0x0, [(512, 0x4)], false, []⟩]  -- KV_RSV_BT

/-- Registers of the block Gfx (part 0). -/
def regsGfx0 : List RegDesc := [
  ⟨0x0, .ro, 0x0, [], false, []⟩,  -- GFX_STATUS
  ⟨0x4, .w1c, 0x0, [], false, [⟨3, 0, some .any⟩]⟩,  -- GFX_EVENTS
  ⟨0x8, .rw, 0x0, [], false, [⟨3, 0, some .any⟩, ⟨31, 4, none⟩]⟩,  -- GFX_INT_EN
  ⟨0x100, .rw, 0x0, [(16, 0x40)], false, [⟨0, 0, some .any⟩, ⟨2, 1, some .any⟩, ⟨3, 3, some .any⟩, ⟨7, 4, none⟩, ⟨15, 8, some .any⟩, ⟨21, 16, some (.dep .displayMask)⟩, ⟨31, 22, none⟩]⟩,  -- GFX_CTX_CTRL
  ⟨0x104, .rw, 0x32, [(16, 0x40)], false, [⟨9, 0, some (.range 10 1000 1)⟩, ⟨31, 10, none⟩]⟩,  -- GFX_CTX_JOB
  ⟨0x108, .rw, 0x0, [(16, 0x40)], false, [⟨15, 0, none⟩, ⟨31, 16, some (.locked 256 264 0)⟩]⟩,  -- GFX_BIN_BASE_LO
  ⟨0x10C, .rw, 0x0, [(16, 0x40)], false, [⟨19, 0, some (.locked 256 268 0)⟩, ⟨31, 20, none⟩]⟩,  -- GFX_BIN_BASE_HI
  ⟨0x110, .rw, 0x8, [(16, 0x40)], false, [⟨11, 0, some (.dep .binMib)⟩, ⟨31, 12, none⟩]⟩,  -- GFX_BIN_MIB
  ⟨0x114, .rw, 0x0, [(16, 0x40)], false, [⟨15, 0, none⟩, ⟨31, 16, some (.locked 256 276 0)⟩]⟩,  -- GFX_EXT_BASE_LO
  ⟨0x118, .rw, 0x0, [(16, 0x40)], false, [⟨19, 0, some (.locked 256 280 0)⟩, ⟨31, 20, none⟩]⟩,  -- GFX_EXT_BASE_HI
  ⟨0x11C, .rw, 0x0, [(16, 0x40)], false, [⟨11, 0, some (.locked 256 284 0)⟩, ⟨31, 12, none⟩]⟩,  -- GFX_EXT_MIB
  ⟨0x120, .ro, 0x0, [(16, 0x40)], false, []⟩,  -- GFX_CTX_STATUS
  ⟨0x124, .ro, 0x0, [(16, 0x40)], false, []⟩,  -- GFX_CTX_ERR_OFF
  ⟨0x128, .ro, 0x0, [(16, 0x40)], false, []⟩,  -- GFX_CNT_EXT
  ⟨0x12C, .ro, 0x0, [(16, 0x40)], false, []⟩,  -- GFX_CNT_PARTIAL
  ⟨0x130, .ro, 0x0, [(16, 0x40)], false, []⟩]  -- GFX_CNT_LATE_YIELD

/-- Registers of the block Gfx (part 1). -/
def regsGfx1 : List RegDesc := [
  ⟨0x134, .ro, 0x0, [(16, 0x40)], false, []⟩,  -- GFX_POOL_PEAK
  ⟨0xFFC, .wo, 0x0, [], false, []⟩]  -- GFX_CFG_APPLY

/-- Registers of the block Disp (part 0). -/
def regsDisp0 : List RegDesc := [
  ⟨0x0, .rw, 0x0, [(6, 0x80)], false, [⟨1, 1, some .any⟩, ⟨2, 2, some .any⟩, ⟨31, 3, none⟩, ⟨0, 0, some (.dep .dispEnable)⟩]⟩,  -- DISP_CTRL
  ⟨0x4, .rw, 0x0, [(6, 0x80)], false, [⟨15, 0, some (.locked 0 4 0)⟩, ⟨31, 16, some (.locked 0 4 0)⟩]⟩,  -- DISP_H
  ⟨0x8, .rw, 0x0, [(6, 0x80)], false, [⟨15, 0, some (.locked 0 8 0)⟩, ⟨31, 16, some (.locked 0 8 0)⟩]⟩,  -- DISP_V
  ⟨0xC, .rw, 0x0, [(6, 0x80)], false, [⟨15, 0, some (.locked 0 12 0)⟩, ⟨31, 16, some (.locked 0 12 0)⟩]⟩,  -- DISP_HSYNC
  ⟨0x10, .rw, 0x0, [(6, 0x80)], false, [⟨15, 0, some (.locked 0 16 0)⟩, ⟨31, 16, some (.locked 0 16 0)⟩]⟩,  -- DISP_VSYNC
  ⟨0x14, .rw, 0x61A8, [(6, 0x80)], false, [⟨31, 0, some (.dep .pclk)⟩]⟩,  -- DISP_PCLK_KHZ
  ⟨0x18, .rw, 0x0, [(6, 0x80)], false, [⟨2, 0, some (.dep .linkRate)⟩, ⟨3, 3, none⟩, ⟨5, 4, some (.dep .linkLanes)⟩, ⟨31, 6, none⟩]⟩,  -- DISP_LINK
  ⟨0x1C, .rw, 0x0, [(6, 0x80)], false, [⟨29, 0, some .any⟩, ⟨31, 30, none⟩]⟩,  -- DISP_BORDER
  ⟨0x20, .rw, 0x0, [(6, 0x80)], false, [⟨15, 0, some .any⟩, ⟨31, 16, some .any⟩]⟩,  -- DISP_ROI_POS
  ⟨0x24, .rw, 0x0, [(6, 0x80)], false, [⟨15, 0, some .any⟩, ⟨31, 16, some .any⟩]⟩,  -- DISP_ROI_SIZE
  ⟨0x28, .ro, 0x0, [(6, 0x80)], false, []⟩,  -- DISP_STATUS
  ⟨0x2C, .w1c, 0x0, [(6, 0x80)], false, [⟨4, 0, some .any⟩]⟩,  -- DISP_EVENTS
  ⟨0x30, .rw, 0x0, [(6, 0x80)], false, [⟨4, 0, some .any⟩, ⟨31, 5, none⟩]⟩,  -- DISP_INT_EN
  ⟨0x34, .ro, 0x0, [(6, 0x80)], false, []⟩,  -- DISP_CNT_REPEAT
  ⟨0x38, .ro, 0x0, [(6, 0x80)], false, []⟩,  -- DISP_CNT_SKIP
  ⟨0x3C, .ro, 0x0, [(6, 0x80)], false, []⟩]  -- DISP_CNT_UNDERRUN

/-- Registers of the block Disp (part 1). -/
def regsDisp1 : List RegDesc := [
  ⟨0x40, .ro, 0x0, [(6, 0x80)], false, []⟩,  -- DISP_FRAMES
  ⟨0x44, .ro, 0x0, [(6, 0x80)], false, []⟩,  -- DISP_CRC
  ⟨0x48, .ro, 0x0, [(6, 0x80)], false, []⟩,  -- DISP_CRC_FRAME
  ⟨0x4C, .ro, 0x0, [(6, 0x80)], false, []⟩,  -- DISP_LATCH_NS
  ⟨0x50, .ro, 0x0, [(6, 0x80)], false, []⟩,  -- DISP_LATCH_OVER
  ⟨0x58, .ro, 0x0, [(6, 0x80)], true, []⟩,  -- DISP_SCAN_ADDR
  ⟨0xFFC, .wo, 0x0, [], false, []⟩]  -- DISP_CFG_APPLY

/-- Registers of the block Cam (part 0). -/
def regsCam0 : List RegDesc := [
  ⟨0x0, .rw, 0x0, [(16, 0xC0)], false, [⟨1, 1, some .any⟩, ⟨4, 2, some (.codes 4 0 4)⟩, ⟨6, 5, some .any⟩, ⟨7, 7, none⟩, ⟨11, 8, some .any⟩, ⟨15, 12, none⟩, ⟨23, 16, some (.range 1 240 1)⟩, ⟨31, 24, none⟩, ⟨0, 0, some (.dep .camEnable)⟩]⟩,  -- CAM_CTRL
  ⟨0x4, .rw, 0x400040, [(16, 0xC0)], false, [⟨15, 0, some (.range 64 8192 2)⟩, ⟨31, 16, some (.range 64 8192 2)⟩]⟩,  -- CAM_SIZE
  ⟨0x8, .rw, 0x0, [(16, 0xC0)], false, [⟨5, 0, none⟩, ⟨31, 6, some .any⟩]⟩,  -- CAM_PARAM_LO
  ⟨0xC, .rw, 0x0, [(16, 0xC0)], false, [⟨19, 0, some .any⟩, ⟨31, 20, none⟩]⟩,  -- CAM_PARAM_HI
  ⟨0x10, .ro, 0x0, [(16, 0xC0)], false, []⟩,  -- CAM_STATUS
  ⟨0x14, .w1c, 0x0, [(16, 0xC0)], false, [⟨4, 0, some .any⟩]⟩,  -- CAM_EVENTS
  ⟨0x18, .rw, 0x0, [(16, 0xC0)], false, [⟨4, 0, some .any⟩, ⟨31, 5, none⟩]⟩,  -- CAM_INT_EN
  ⟨0x1C, .ro, 0x0, [(16, 0xC0)], false, []⟩,  -- CAM_CNT_DROP
  ⟨0x20, .ro, 0x0, [(16, 0xC0)], false, []⟩,  -- CAM_CNT_ERR
  ⟨0x40, .rw, 0x10, [(16, 0xC0), (2, 0x40)], false, [⟨0, 0, some .any⟩, ⟨3, 1, some (.codes 4 0 4)⟩, ⟨5, 4, some (.locked 64 64 0)⟩, ⟨31, 6, none⟩]⟩,  -- CAM_OUT_CTRL
  ⟨0x44, .rw, 0x400040, [(16, 0xC0), (2, 0x40)], false, [⟨15, 0, some (.dep .camOutW)⟩, ⟨31, 16, some (.dep .camOutH)⟩]⟩,  -- CAM_OUT_SIZE
  ⟨0x48, .rw, 0x0, [(16, 0xC0), (2, 0x40)], false, [⟨5, 0, none⟩, ⟨31, 6, some (.locked 64 72 0)⟩]⟩,  -- CAM_BUF_BASE_LO
  ⟨0x4C, .rw, 0x0, [(16, 0xC0), (2, 0x40)], false, [⟨19, 0, some (.locked 64 76 0)⟩, ⟨31, 20, none⟩]⟩,  -- CAM_BUF_BASE_HI
  ⟨0x50, .rw, 0x0, [(16, 0xC0), (2, 0x40)], false, [⟨5, 0, none⟩, ⟨31, 6, some (.dep .camStride)⟩]⟩,  -- CAM_BUF_STRIDE
  ⟨0x54, .rw, 0x0, [(16, 0xC0), (2, 0x40)], false, [⟨4, 0, none⟩, ⟨31, 5, some (.locked 64 84 0)⟩]⟩,  -- CAM_REC_BASE_LO
  ⟨0x58, .rw, 0x0, [(16, 0xC0), (2, 0x40)], false, [⟨19, 0, some (.locked 64 88 0)⟩, ⟨31, 20, none⟩]⟩]  -- CAM_REC_BASE_HI

/-- Registers of the block Cam (part 1). -/
def regsCam1 : List RegDesc := [
  ⟨0x60, .ro, 0x0, [(16, 0xC0), (2, 0x40)], false, []⟩,  -- CAM_PROD
  ⟨0x64, .ns, 0x0, [(16, 0xC0), (2, 0x40)], false, [⟨31, 0, some .any⟩]⟩,  -- CAM_CONS
  ⟨0xFFC, .wo, 0x0, [], false, []⟩]  -- CAM_CFG_APPLY

/-- Registers of the block Vc (part 0). -/
def regsVc : List RegDesc := [
  ⟨0x0, .rw, 0x0, [(16, 0x40)], false, [⟨0, 0, some .any⟩, ⟨1, 1, some .any⟩, ⟨2, 2, some .any⟩, ⟨7, 3, none⟩, ⟨15, 8, some .any⟩, ⟨20, 16, some .any⟩, ⟨23, 21, none⟩, ⟨27, 24, some (.dep .vcSize)⟩, ⟨31, 28, none⟩]⟩,  -- VC_CTRL
  ⟨0x4, .rw, 0x0, [(16, 0x40)], false, [⟨11, 0, none⟩, ⟨31, 12, some (.locked 0 4 0)⟩]⟩,  -- VC_RING_BASE_LO
  ⟨0x8, .rw, 0x0, [(16, 0x40)], false, [⟨19, 0, some (.locked 0 8 0)⟩, ⟨31, 20, none⟩]⟩,  -- VC_RING_BASE_HI
  ⟨0xC, .rw, 0x0, [(16, 0x40)], false, [⟨2, 0, none⟩, ⟨31, 3, some (.locked 0 12 0)⟩]⟩,  -- VC_DB_ADDR_LO
  ⟨0x10, .rw, 0x0, [(16, 0x40)], false, [⟨19, 0, some (.locked 0 16 0)⟩, ⟨31, 20, none⟩]⟩,  -- VC_DB_ADDR_HI
  ⟨0x14, .rw, 0x0, [(16, 0x40)], false, [⟨11, 0, none⟩, ⟨31, 12, some (.locked 0 20 0)⟩]⟩,  -- VC_CPL_BASE_LO
  ⟨0x18, .rw, 0x0, [(16, 0x40)], false, [⟨19, 0, some (.locked 0 24 0)⟩, ⟨31, 20, none⟩]⟩,  -- VC_CPL_BASE_HI
  ⟨0x1C, .rw, 0x0, [(16, 0x40)], false, [⟨11, 0, none⟩, ⟨31, 12, some (.locked 0 28 0)⟩]⟩,  -- VC_CTX_BASE_LO
  ⟨0x20, .rw, 0x0, [(16, 0x40)], false, [⟨19, 0, some (.locked 0 32 0)⟩, ⟨31, 20, none⟩]⟩,  -- VC_CTX_BASE_HI
  ⟨0x24, .rw, 0x0, [(16, 0x40)], false, [⟨31, 0, some (.locked 0 36 0)⟩]⟩,  -- VC_CTX_MIB
  ⟨0x28, .ro, 0x0, [(16, 0x40)], false, []⟩,  -- VC_DB_GEN
  ⟨0x2C, .ro, 0x0, [(16, 0x40)], false, []⟩,  -- VC_CONS
  ⟨0x30, .ro, 0x0, [(16, 0x40)], false, []⟩,  -- VC_CPL_PROD
  ⟨0x34, .ns, 0x0, [(16, 0x40)], false, [⟨31, 0, some .any⟩]⟩,  -- VC_CPL_CONS
  ⟨0x38, .ro, 0x0, [(16, 0x40)], false, []⟩,  -- VC_STATUS
  ⟨0xFFC, .wo, 0x0, [], false, []⟩]  -- VC_CFG_APPLY

/-- Registers of the block Gw0 (part 0). -/
def regsGw00 : List RegDesc := [
  ⟨0x0, .rw, 0x0, [], false, [⟨0, 0, some .any⟩, ⟨7, 1, none⟩, ⟨14, 8, some .any⟩, ⟨31, 15, none⟩]⟩,  -- GW_CTRL
  ⟨0x4, .ro, 0x0, [], false, []⟩,  -- GW_STATUS
  ⟨0x8, .w1c, 0x0, [], false, [⟨4, 0, some .any⟩]⟩,  -- GW_EVENTS
  ⟨0xC, .rw, 0x0, [], false, [⟨4, 0, some .any⟩, ⟨31, 5, none⟩]⟩,  -- GW_INT_EN
  ⟨0x10, .rw, 0x0, [], false, [⟨15, 0, none⟩, ⟨31, 16, some .any⟩]⟩,  -- GW_TAB_BASE_LO
  ⟨0x14, .rw, 0x0, [], false, [⟨19, 0, some .any⟩, ⟨31, 20, none⟩]⟩,  -- GW_TAB_BASE_HI
  ⟨0x18, .rw, 0x0, [], false, [⟨31, 0, some .any⟩]⟩,  -- GW_MAC_LO
  ⟨0x1C, .rw, 0x0, [], false, [⟨15, 0, some .any⟩, ⟨31, 16, none⟩]⟩,  -- GW_MAC_HI
  ⟨0x20, .rw, 0x0, [], false, [⟨2, 0, some (.codes 4 0 4)⟩, ⟨15, 3, none⟩, ⟨31, 16, some .any⟩]⟩,  -- GW_LOAD_SEL
  ⟨0x24, .rw, 0x0, [], false, [⟨16, 0, some (.dep .loadCount)⟩, ⟨31, 17, none⟩]⟩,  -- GW_LOAD_COUNT
  ⟨0x28, .ro, 0x0, [], false, []⟩,  -- GW_CNT_MISS
  ⟨0x2C, .ro, 0x0, [], false, []⟩,  -- GW_CNT_CV_FAIL
  ⟨0x30, .ro, 0x0, [], false, []⟩,  -- GW_CNT_SEQ_GAP
  ⟨0x34, .ro, 0x0, [], false, []⟩,  -- GW_CNT_LOAD_REJECT
  ⟨0x40, .ro, 0x0, [], false, []⟩,  -- TIME_NOW_NS
  ⟨0x44, .ro, 0x0, [], false, []⟩]  -- TIME_LATCH_SEC_LO

/-- Registers of the block Gw0 (part 1). -/
def regsGw01 : List RegDesc := [
  ⟨0x48, .ro, 0x0, [], false, []⟩,  -- TIME_LATCH_SEC_HI
  ⟨0x50, .wo, 0x0, [], false, []⟩,  -- TIME_ADJ_RATE
  ⟨0x58, .wo, 0x0, [], true, []⟩,  -- TIME_ADJ_OFFSET
  ⟨0x60, .wo, 0x0, [], false, []⟩,  -- TIME_SET_NS
  ⟨0x64, .wo, 0x0, [], false, []⟩,  -- TIME_SET_SEC_LO
  ⟨0x68, .wo, 0x0, [], false, []⟩,  -- TIME_SET_SEC_HI
  ⟨0x100, .rw, 0x0, [(4, 0x20)], false, [⟨0, 0, some .any⟩, ⟨2, 1, some (.dep .capEdge)⟩, ⟨31, 3, none⟩]⟩,  -- CAP_CTRL
  ⟨0x104, .wo, 0x0, [(4, 0x20)], false, []⟩,  -- CAP_POP
  ⟨0x108, .ro, 0x0, [(4, 0x20)], true, []⟩,  -- CAP_HEAD
  ⟨0x110, .ro, 0x0, [(4, 0x20)], false, []⟩,  -- CAP_CNT_DROP
  ⟨0x200, .rw, 0x0, [(8, 0x20)], false, [⟨1, 0, some .any⟩, ⟨2, 2, some .any⟩, ⟨7, 3, none⟩, ⟨13, 8, some (.dep .pulseBall)⟩, ⟨15, 14, none⟩, ⟨31, 16, some .any⟩]⟩,  -- PULSE_CTRL
  ⟨0x204, .rw, 0x0, [(8, 0x20)], false, [⟨31, 0, some (.range 0 999999999 1)⟩]⟩,  -- PULSE_START_NS
  ⟨0x208, .rw, 0x0, [(8, 0x20)], false, [⟨31, 0, some .any⟩]⟩,  -- PULSE_START_SEC_LO
  ⟨0x20C, .rw, 0x0, [(8, 0x20)], false, [⟨15, 0, some .any⟩, ⟨31, 16, none⟩]⟩,  -- PULSE_START_SEC_HI
  ⟨0x210, .rw, 0x0, [(8, 0x20)], false, [⟨31, 0, some (.dep .pulsePeriod)⟩]⟩,  -- PULSE_PERIOD_NS
  ⟨0x214, .rw, 0x8, [(8, 0x20)], false, [⟨31, 0, some (.dep .pulseWidth)⟩]⟩]  -- PULSE_WIDTH_NS

/-- Registers of the block Gw0 (part 2). -/
def regsGw02 : List RegDesc := [
  ⟨0x218, .ro, 0x0, [(8, 0x20)], false, []⟩,  -- PULSE_STATUS
  ⟨0xFFC, .wo, 0x0, [], false, []⟩]  -- GW_CFG_APPLY

/-- Registers of the block Gw1 (part 0). -/
def regsGw1 : List RegDesc := [
  ⟨0x0, .rw, 0x10000, [(18, 0x100)], false, [⟨0, 0, some (.dep .gwPortEn)⟩, ⟨1, 1, some (.locked 0 0 0)⟩, ⟨2, 2, some .any⟩, ⟨3, 3, some .any⟩, ⟨5, 4, some (.codes 1 0 1)⟩, ⟨7, 6, none⟩, ⟨10, 8, some .any⟩, ⟨15, 11, none⟩, ⟨27, 16, some (.range 1 4094 1)⟩, ⟨31, 28, none⟩]⟩,  -- GW_PORT_CTRL
  ⟨0x4, .rw, 0x0, [(18, 0x100)], false, [⟨0, 0, some .any⟩, ⟨7, 1, none⟩, ⟨13, 8, some .any⟩, ⟨31, 14, none⟩]⟩,  -- GW_PORT_GCL
  ⟨0x8, .rw, 0x100, [(18, 0x100)], false, [⟨10, 0, some (.range 16 1024 1)⟩, ⟨31, 11, none⟩]⟩,  -- GW_PORT_QLIMIT
  ⟨0xC, .ro, 0x0, [(18, 0x100)], false, []⟩,  -- GW_PORT_STATUS
  ⟨0x10, .w1c, 0x0, [(18, 0x100)], false, [⟨4, 0, some .any⟩]⟩,  -- GW_PORT_EVENTS
  ⟨0x14, .rw, 0x0, [(18, 0x100)], false, [⟨4, 0, some .any⟩, ⟨31, 5, none⟩]⟩,  -- GW_PORT_INT_EN
  ⟨0x18, .ro, 0x0, [(18, 0x100)], true, []⟩,  -- GW_PORT_TXTS_HEAD
  ⟨0x20, .wo, 0x0, [(18, 0x100)], false, []⟩,  -- GW_PORT_TXTS_POP
  ⟨0x24, .ro, 0x0, [(18, 0x100)], false, []⟩,  -- GW_PORT_TXTS_DROP
  ⟨0x28, .ro, 0x0, [(18, 0x100)], false, []⟩,  -- GW_PORT_RX_FRAMES
  ⟨0x2C, .ro, 0x0, [(18, 0x100)], false, []⟩,  -- GW_PORT_TX_FRAMES
  ⟨0x30, .ro, 0x0, [(18, 0x100)], false, []⟩,  -- GW_PORT_RX_ERR
  ⟨0x34, .ro, 0x0, [(18, 0x100)], false, []⟩,  -- GW_PORT_Q_DROP
  ⟨0x38, .ro, 0x0, [(18, 0x100)], false, []⟩,  -- GW_PORT_MACSEC_DROP
  ⟨0x3C, .ro, 0x0, [(18, 0x100)], false, []⟩,  -- GW_PORT_CUT_THROUGH
  ⟨0xFFC, .wo, 0x0, [], false, []⟩]  -- GW1_CFG_APPLY

/-- Registers of the block Gw2 (part 0). -/
def regsGw20 : List RegDesc := [
  ⟨0x0, .rw, 0x0, [(12, 0x40)], false, [⟨0, 0, some .any⟩, ⟨1, 1, some .any⟩, ⟨2, 2, some .any⟩, ⟨3, 3, some .any⟩, ⟨4, 4, some .any⟩, ⟨5, 5, some .any⟩, ⟨15, 6, none⟩, ⟨31, 16, some .any⟩]⟩,  -- CAN_CTRL
  ⟨0x4, .rw, 0x1F4, [(12, 0x40)], false, [⟨10, 0, some (.dep .canNom)⟩, ⟨15, 11, none⟩, ⟨30, 16, some (.dep .canData)⟩, ⟨31, 31, none⟩]⟩,  -- CAN_RATE
  ⟨0x8, .rw, 0x2BC0320, [(12, 0x40)], false, [⟨9, 0, some (.range 600 900 1)⟩, ⟨15, 10, none⟩, ⟨25, 16, some (.range 600 900 1)⟩, ⟨31, 26, none⟩]⟩,  -- CAN_SAMPLE
  ⟨0xC, .ro, 0x3, [(12, 0x40)], false, []⟩,  -- CAN_STATUS
  ⟨0x10, .w1c, 0x0, [(12, 0x40)], false, [⟨3, 0, some .any⟩]⟩,  -- CAN_EVENTS
  ⟨0x14, .rw, 0x0, [(12, 0x40)], false, [⟨3, 0, some .any⟩, ⟨31, 4, none⟩]⟩,  -- CAN_INT_EN
  ⟨0x18, .ro, 0x0, [(12, 0x40)], false, []⟩,  -- CAN_RX_FRAMES
  ⟨0x1C, .ro, 0x0, [(12, 0x40)], false, []⟩,  -- CAN_TX_FRAMES
  ⟨0x20, .ro, 0x0, [(12, 0x40)], false, []⟩,  -- CAN_DROPS
  ⟨0x400, .rw, 0x4B000000, [(8, 0x20)], false, [⟨0, 0, some .any⟩, ⟨15, 1, none⟩, ⟨30, 16, some (.dep .linBaud)⟩, ⟨31, 31, none⟩]⟩,  -- LIN_CTRL
  ⟨0x404, .rw, 0x2710, [(8, 0x20)], false, [⟨16, 0, some (.range 1000 50000 1)⟩, ⟨31, 17, none⟩]⟩,  -- LIN_SLOT
  ⟨0x408, .ro, 0x0, [(8, 0x20)], false, []⟩,  -- LIN_STATUS
  ⟨0x40C, .w1c, 0x0, [(8, 0x20)], false, [⟨2, 0, some .any⟩]⟩,  -- LIN_EVENTS
  ⟨0x410, .rw, 0x0, [(8, 0x20)], false, [⟨2, 0, some .any⟩, ⟨31, 3, none⟩]⟩,  -- LIN_INT_EN
  ⟨0x414, .ro, 0x0, [(8, 0x20)], false, []⟩,  -- LIN_CNT_ERR
  ⟨0x600, .rw, 0x0, [(2, 0x20)], false, [⟨0, 0, some .any⟩, ⟨1, 1, some .any⟩, ⟨7, 2, none⟩, ⟨15, 8, some (.range 0 254 1)⟩, ⟨23, 16, some (.range 1 255 1)⟩, ⟨31, 24, none⟩]⟩]  -- T1S_CTRL

/-- Registers of the block Gw2 (part 1). -/
def regsGw21 : List RegDesc := [
  ⟨0x604, .rw, 0x800020, [(2, 0x20)], false, [⟨7, 0, some .any⟩, ⟨15, 8, some .any⟩, ⟨23, 16, some .any⟩, ⟨31, 24, none⟩]⟩,  -- T1S_PLCA
  ⟨0x608, .ro, 0x0, [(2, 0x20)], false, []⟩,  -- T1S_STATUS
  ⟨0x60C, .ro, 0x0, [(2, 0x20)], false, []⟩,  -- T1S_CNT_COLL
  ⟨0x700, .rw, 0x0, [], false, [⟨0, 0, some .any⟩, ⟨31, 1, none⟩]⟩,  -- SG_CTRL
  ⟨0x704, .w1c, 0x0, [], false, [⟨2, 0, some .any⟩]⟩,  -- SG_EVENTS
  ⟨0x708, .rw, 0x0, [], false, [⟨2, 0, some .any⟩, ⟨31, 3, none⟩]⟩,  -- SG_INT_EN
  ⟨0x70C, .ro, 0x0, [], false, []⟩,  -- SG_CNT_TIMEOUT
  ⟨0x710, .ro, 0x0, [], false, []⟩,  -- SG_CNT_E2E_FAIL
  ⟨0x714, .ro, 0x0, [], false, []⟩,  -- SG_CNT_REPLACED
  ⟨0x718, .ro, 0x0, [], false, []⟩,  -- SG_CNT_TUNNEL_DENIED
  ⟨0xFFC, .wo, 0x0, [], false, []⟩]  -- GW2_CFG_APPLY

/-- Registers of the block Gw3 (part 0). -/
def regsGw3 : List RegDesc := [
  ⟨0x0, .rw, 0x0, [(48, 0x20)], false, [⟨11, 0, none⟩, ⟨31, 12, some (.locked 8 0 0)⟩]⟩,  -- GW_RX_BASE_LO
  ⟨0x4, .rw, 0x0, [(48, 0x20)], false, [⟨19, 0, some (.locked 8 4 0)⟩, ⟨31, 20, none⟩]⟩,  -- GW_RX_BASE_HI
  ⟨0x8, .rw, 0x400, [(48, 0x20)], false, [⟨0, 0, some .any⟩, ⟨7, 1, none⟩, ⟨12, 8, some (.dep .rxSize)⟩, ⟨15, 13, none⟩, ⟨17, 16, some (.locked 8 8 0)⟩, ⟨19, 18, none⟩, ⟨20, 20, some .any⟩, ⟨31, 21, none⟩]⟩,  -- GW_RX_CTRL
  ⟨0xC, .ro, 0x0, [(48, 0x20)], false, []⟩,  -- GW_RX_PROD
  ⟨0x10, .ns, 0x0, [(48, 0x20)], false, [⟨31, 0, some .any⟩]⟩,  -- GW_RX_CONS
  ⟨0x14, .ro, 0x0, [(48, 0x20)], false, []⟩,  -- GW_RX_DROP
  ⟨0xFFC, .wo, 0x0, [], false, []⟩]  -- GW3_CFG_APPLY

/-- Registers of the block Isl (part 0). -/
def regsIsl : List RegDesc := [
  ⟨0x0, .rw, 0x3, [], false, [⟨0, 0, some .any⟩, ⟨1, 1, some .any⟩, ⟨31, 2, none⟩]⟩,  -- ISL_CTRL
  ⟨0x4, .ro, 0x0, [], false, []⟩,  -- ISL_STATUS
  ⟨0x8, .w1c, 0x0, [], false, [⟨3, 0, some .any⟩]⟩,  -- ISL_EVENTS
  ⟨0xC, .rw, 0x0, [], false, [⟨3, 0, some .any⟩, ⟨31, 4, none⟩]⟩,  -- ISL_INT_EN
  ⟨0x10, .ro, 0x0, [(2, 0x4)], false, []⟩,  -- ISL_MISMATCH_INFO
  ⟨0x18, .ro, 0x0, [], false, []⟩,  -- ISL_CNT_MISMATCH
  ⟨0xFFC, .wo, 0x0, [], false, []⟩]  -- ISL_CFG_APPLY

/-- Registers of the block Lj (part 0). -/
def regsLj : List RegDesc := [
  ⟨0x0, .rw, 0x0, [], false, [⟨7, 0, some .any⟩, ⟨11, 8, some .any⟩, ⟨31, 12, none⟩]⟩,  -- LJ_CTRL
  ⟨0x4, .rw, 0x0, [], false, [⟨11, 0, none⟩, ⟨31, 12, some .any⟩]⟩,  -- LJ_SHADOW_BASE_LO
  ⟨0x8, .rw, 0x0, [], false, [⟨19, 0, some .any⟩, ⟨31, 20, none⟩]⟩,  -- LJ_SHADOW_BASE_HI
  ⟨0xC, .rw, 0x0, [], false, [⟨5, 0, none⟩, ⟨31, 6, some .any⟩]⟩,  -- LJ_SHADOW_BYTES
  ⟨0x10, .ro, 0x0, [], false, []⟩,  -- LJ_VERDICT
  ⟨0x14, .ro, 0x0, [], false, []⟩,  -- LJ_VERDICT_OVER
  ⟨0x18, .w1c, 0x0, [], false, [⟨1, 0, some .any⟩]⟩,  -- LJ_EVENTS
  ⟨0x1C, .rw, 0x0, [], false, [⟨1, 0, some .any⟩, ⟨31, 2, none⟩]⟩,  -- LJ_INT_EN
  ⟨0x20, .ro, 0x0, [], false, []⟩,  -- LJ_LAST_FAIL
  ⟨0x24, .ro, 0x0, [], false, []⟩,  -- LJ_LAST_INDEX
  ⟨0x28, .ro, 0x0, [], false, []⟩,  -- LJ_CNT_COMPARED
  ⟨0x2C, .ro, 0x0, [], false, []⟩,  -- LJ_CNT_DISAGREE
  ⟨0xFFC, .wo, 0x0, [], false, []⟩]  -- LJ_CFG_APPLY

/-- Registers of the block Kpr (part 0). -/
def regsKpr0 : List RegDesc := [
  ⟨0x0, .rw, 0x8, [], false, [⟨7, 0, some (.range 1 255 1)⟩, ⟨8, 8, some .any⟩, ⟨31, 9, none⟩]⟩,  -- KPR_CTRL
  ⟨0x4, .rw, 0x30802, [], false, [⟨3, 0, some (.range 2 15 1)⟩, ⟨7, 4, none⟩, ⟨15, 8, some (.range 2 255 1)⟩, ⟨24, 16, some .any⟩, ⟨31, 25, some .any⟩]⟩,  -- KPR_CARD_CTRL
  ⟨0x8, .ro, 0x0, [], false, []⟩,  -- KPR_STATUS
  ⟨0xC, .w1c, 0x0, [], false, [⟨9, 0, some .any⟩]⟩,  -- KPR_EVENTS
  ⟨0x10, .rw, 0x0, [], false, [⟨9, 0, some .any⟩, ⟨31, 10, none⟩]⟩,  -- KPR_INT_EN
  ⟨0x14, .w1c, 0x0, [], false, [⟨8, 0, some .any⟩]⟩,  -- KPR_DOUBT
  ⟨0x18, .wo, 0x0, [], false, []⟩,  -- KPR_RELEASE
  ⟨0x1C, .ro, 0x0, [], false, []⟩,  -- KPR_TABLE_SEQ
  ⟨0x20, .ro, 0x0, [], false, []⟩,  -- KPR_CNT_TAKEOVER
  ⟨0x24, .ro, 0x0, [], false, []⟩,  -- KPR_CNT_YELLOW
  ⟨0x28, .ro, 0x0, [], false, []⟩,  -- KPR_CNT_RED
  ⟨0x2C, .ro, 0x0, [], false, []⟩,  -- KPR_CNT_SP_DISCARDED
  ⟨0x30, .ro, 0x0, [], false, []⟩,  -- KPR_CNT_SP_CLAMPED
  ⟨0x34, .ro, 0x0, [], false, []⟩,  -- KPR_CNT_SP_REFUSED
  ⟨0x38, .ro, 0x0, [], false, []⟩,  -- KPR_CNT_STALE
  ⟨0x3C, .ro, 0x0, [], false, []⟩]  -- KPR_LOG_PROD

/-- Registers of the block Kpr (part 1). -/
def regsKpr1 : List RegDesc := [
  ⟨0x40, .ro, 0x0, [], false, []⟩,  -- KPR_CNT_SP_OVERRIDDEN
  ⟨0x400, .ro, 0x0, [(64, 0x10)], true, []⟩,  -- KPR_LOG_A
  ⟨0x408, .ro, 0x0, [(64, 0x10)], true, []⟩,  -- KPR_LOG_B
  ⟨0x800, .ro, 0x0, [(64, 0x4)], false, []⟩,  -- KPR_SLOT
  ⟨0xA00, .ro, 0x0, [(32, 0x4)], false, []⟩,  -- KPR_LOOP_SP
  ⟨0xFFC, .wo, 0x0, [], false, []⟩]  -- KPR_CFG_APPLY

/-- Registers of the block Stest (part 0). -/
def regsStest : List RegDesc := [
  ⟨0x0, .ro, 0x0, [], false, []⟩,  -- WUP_STATUS
  ⟨0x4, .ro, 0x0, [], false, []⟩,  -- WUP_TIME_US
  ⟨0x10, .rw, 0x640001, [], false, [⟨0, 0, some .any⟩, ⟨15, 1, none⟩, ⟨25, 16, some (.range 10 1000 1)⟩, ⟨31, 26, none⟩]⟩,  -- STEST_CTRL
  ⟨0x14, .rw, 0xFFFFFFFF, [], false, [⟨31, 0, some .any⟩]⟩,  -- STEST_MASK_LO
  ⟨0x18, .rw, 0xFFFFFFFF, [], false, [⟨31, 0, some .any⟩]⟩,  -- STEST_MASK_HI
  ⟨0x1C, .w1c, 0x0, [], false, [⟨1, 0, some .any⟩]⟩,  -- STEST_EVENTS
  ⟨0x20, .rw, 0x0, [], false, [⟨1, 0, some .any⟩, ⟨31, 2, none⟩]⟩,  -- STEST_INT_EN
  ⟨0x24, .ro, 0x0, [], false, []⟩,  -- STEST_LATENT_LO
  ⟨0x28, .ro, 0x0, [], false, []⟩,  -- STEST_LATENT_HI
  ⟨0x2C, .ro, 0x0, [], false, []⟩,  -- STEST_FAILED_LO
  ⟨0x30, .ro, 0x0, [], false, []⟩,  -- STEST_FAILED_HI
  ⟨0x34, .ro, 0x0, [], false, []⟩,  -- STEST_CNT_DEFER
  ⟨0x100, .ro, 0x0, [(64, 0x4)], false, []⟩,  -- STEST_AGE
  ⟨0xFFC, .wo, 0x0, [], false, []⟩]  -- STEST_CFG_APPLY

/-- Registers of the block Ibr (part 0). -/
def regsIbr : List RegDesc := [
  ⟨0x0, .rw, 0x140000, [], false, [⟨3, 0, some .any⟩, ⟨15, 4, none⟩, ⟨23, 16, some (.range 12 255 1)⟩, ⟨31, 24, none⟩]⟩,  -- IBR_CTRL
  ⟨0x4, .ro, 0x0, [], false, []⟩,  -- IBR_STATUS
  ⟨0x8, .w1c, 0x0, [], false, [⟨5, 0, some .any⟩]⟩,  -- IBR_EVENTS
  ⟨0xC, .rw, 0x0, [], false, [⟨5, 0, some .any⟩, ⟨31, 6, none⟩]⟩,  -- IBR_INT_EN
  ⟨0x10, .ro, 0x0, [], false, []⟩,  -- IBR_CNT_TIMEOUT
  ⟨0x14, .ro, 0x0, [], false, []⟩,  -- IBR_CNT_CROSS
  ⟨0x18, .ro, 0x0, [], false, []⟩,  -- IBR_CNT_LOCK_FAIL
  ⟨0x1C, .ro, 0x0, [], false, []⟩,  -- IBR_CNT_DENIED
  ⟨0x20, .ro, 0x0, [], false, []⟩,  -- IBR_ERR_ADDR_LO
  ⟨0x24, .ro, 0x0, [], false, []⟩,  -- IBR_ERR_ADDR_HI
  ⟨0x28, .ro, 0x0, [], false, []⟩,  -- IBR_MAX_HOLD
  ⟨0x100, .rw, 0x0, [(16, 0x8)], true, [⟨1, 1, some .any⟩, ⟨2, 2, some .any⟩, ⟨3, 3, some .any⟩, ⟨4, 4, some .any⟩, ⟨11, 5, none⟩, ⟨31, 12, some .any⟩, ⟨47, 32, some (.range 1 32768 1)⟩, ⟨63, 48, none⟩, ⟨0, 0, some (.dep .ibrEnable)⟩]⟩,  -- IBR_ACC
  ⟨0x200, .ro, 0x0, [(16, 0x8)], true, []⟩,  -- IBR_SEM
  ⟨0xFFC, .wo, 0x0, [], false, []⟩]  -- IBR_CFG_APPLY

/-- Registers of the block Mbx (part 0). -/
def regsMbx : List RegDesc := [
  ⟨0x0, .rw, 0x3E80003, [], false, [⟨0, 0, some .any⟩, ⟨1, 1, some .any⟩, ⟨7, 2, none⟩, ⟨12, 8, some .any⟩, ⟨15, 13, none⟩, ⟨29, 16, some (.range 10 10000 1)⟩, ⟨31, 30, none⟩]⟩,  -- MBX_CH_CTRL
  ⟨0x4, .ro, 0x0, [], false, []⟩,  -- MBX_CH_STATUS
  ⟨0x8, .wo, 0x0, [], false, []⟩,  -- MBX_SUBMIT
  ⟨0xC, .ro, 0x0, [], false, []⟩,  -- MBX_SUBMIT_STATUS
  ⟨0x10, .ro, 0x0, [], false, []⟩,  -- MBX_RSP_PROD
  ⟨0x14, .ns, 0x0, [], false, [⟨31, 0, some .any⟩]⟩,  -- MBX_RSP_CONS
  ⟨0x18, .w1c, 0x0, [], false, [⟨2, 0, some .any⟩]⟩,  -- MBX_CH_EVENTS
  ⟨0x1C, .rw, 0x0, [], false, [⟨2, 0, some .any⟩, ⟨31, 3, none⟩]⟩,  -- MBX_CH_INT_EN
  ⟨0xFFC, .wo, 0x0, [], false, []⟩]  -- MBX_CFG_APPLY

/-- Registers of the block Pwr (part 0). -/
def regsPwr : List RegDesc := [
  ⟨0x0, .rw, 0x230, [], false, [⟨31, 0, some (.range 150 560 1)⟩]⟩,  -- PWR_CAP_W
  ⟨0x4, .rw, 0x64, [], false, [⟨31, 0, some (.range 70 110 1)⟩]⟩,  -- PWR_THERM_TARGET
  ⟨0x8, .rw, 0xF, [], false, [⟨3, 0, some .any⟩, ⟨31, 4, none⟩]⟩,  -- PWR_VMARGIN
  ⟨0xC, .rw, 0x10, [], false, [⟨31, 0, some (.range 1 65535 1)⟩]⟩,  -- PWR_SCRUB_TARGET
  ⟨0x10, .rw, 0x1, [], false, [⟨0, 0, some .any⟩, ⟨31, 1, none⟩]⟩,  -- PWR_LOOP_CTRL
  ⟨0x14, .ro, 0x0, [], false, []⟩,  -- PWR_STATUS
  ⟨0x18, .w1c, 0x0, [], false, [⟨3, 0, some .any⟩]⟩,  -- PWR_EVENTS
  ⟨0x1C, .rw, 0x0, [], false, [⟨3, 0, some .any⟩, ⟨31, 4, none⟩]⟩,  -- PWR_INT_EN
  ⟨0x20, .ro, 0x0, [], false, []⟩,  -- PWR_INPUT_MV
  ⟨0x24, .ro, 0x0, [], false, []⟩,  -- PWR_INPUT_MW
  ⟨0x28, .ro, 0x12C, [], false, []⟩,  -- PWR_LIMIT_W
  ⟨0x30, .wo, 0x0, [], false, []⟩,  -- VOX_HEARTBEAT
  ⟨0x40, .rw, 0xFFFFFFFF, [], false, [⟨31, 0, some .any⟩]⟩,  -- PWR_DOM_OWNER_LO
  ⟨0x44, .rw, 0xFFFF, [], false, [⟨15, 0, some .any⟩, ⟨31, 16, none⟩]⟩,  -- PWR_DOM_OWNER_HI
  ⟨0x100, .ro, 0x1, [(48, 0x4)], false, []⟩,  -- PWR_DOM_STATE
  ⟨0xFFC, .wo, 0x0, [], false, []⟩]  -- PWR_CFG_APPLY

/-- Registers of the block Dom (part 0). -/
def regsDom : List RegDesc := [
  ⟨0x0, .wo, 0x0, [], false, []⟩,  -- PWR_DOM_REQ
  ⟨0x4, .ro, 0x0, [], false, []⟩]  -- PWR_DOM_RESULT

/-- Registers of the block Ivm (part 0). -/
def regsIvm : List RegDesc := [
  ⟨0x0, .rw, 0x0, [], false, [⟨0, 0, some .any⟩, ⟨3, 1, none⟩, ⟨5, 4, some .any⟩, ⟨31, 6, none⟩]⟩,  -- IVM_CTRL
  ⟨0x4, .ro, 0x0, [], false, []⟩,  -- IVM_STATUS
  ⟨0x8, .w1c, 0x0, [], false, [⟨3, 0, some .any⟩]⟩,  -- IVM_EVENTS
  ⟨0xC, .rw, 0x0, [], false, [⟨3, 0, some .any⟩, ⟨31, 4, none⟩]⟩,  -- IVM_INT_EN
  ⟨0x10, .ro, 0x0, [], false, []⟩,  -- IVM_SB_DELAY
  ⟨0x100, .rw, 0x0, [(16, 0x4)], false, [⟨10, 0, some (.dep .ivmMin)⟩, ⟨31, 11, none⟩]⟩,  -- IVM_CLASS_MIN
  ⟨0x140, .ro, 0x0, [(4, 0x4)], false, []⟩,  -- IVM_PEER_BW
  ⟨0xFFC, .wo, 0x0, [], false, []⟩,  -- IVM_CFG_APPLY
  ⟨0x1000, .ro, 0x3, [(12, 0x40)], false, []⟩,  -- IVM_PORT_STATUS
  ⟨0x1004, .ro, 0x0, [(12, 0x40)], false, []⟩,  -- IVM_PORT_RETRY
  ⟨0x1008, .ro, 0x0, [(12, 0x40)], false, []⟩]  -- IVM_PORT_DOWNS

/-- Registers of the block Wld (part 0). -/
def regsWld0 : List RegDesc := [
  ⟨0x0, .rw, 0xFFFFFFFF, [(8, 0x4)], false, [⟨31, 0, some (.dep .setupSec)⟩]⟩,  -- WLD_SETUP_SEC
  ⟨0x20, .rw, 0xFFFFFFFF, [], false, [⟨31, 0, some .any⟩]⟩,  -- WLD_PIN_SEC_LO
  ⟨0x24, .rw, 0xFFF, [], false, [⟨11, 0, some .any⟩, ⟨31, 12, none⟩]⟩,  -- WLD_PIN_SEC_HI
  ⟨0x28, .rw, 0xFFFF, [], false, [⟨15, 0, some .any⟩, ⟨31, 16, none⟩]⟩,  -- WLD_DMA_SEC
  ⟨0x2C, .rw, 0xF, [], false, [⟨3, 0, some .any⟩, ⟨31, 4, none⟩]⟩,  -- WLD_PCIE
  ⟨0x30, .w1c, 0x0, [], false, [⟨4, 0, some .any⟩]⟩,  -- WLD_EVENTS
  ⟨0x34, .rw, 0x0, [], false, [⟨4, 0, some .any⟩, ⟨31, 5, none⟩]⟩,  -- WLD_INT_EN
  ⟨0x38, .ro, 0x0, [], false, []⟩,  -- WLD_CNT_DENIED
  ⟨0x3C, .ro, 0x0, [], false, []⟩,  -- WLD_LOG_PROD
  ⟨0x40, .ro, 0x0, [], false, []⟩,  -- WLD_RESET_CAUSE
  ⟨0x100, .ro, 0x0, [(32, 0x10)], true, []⟩,  -- WLD_LOG_A
  ⟨0x108, .ro, 0x0, [(32, 0x10)], true, []⟩,  -- WLD_LOG_B
  ⟨0x400, .rw, 0x0, [], false, [⟨0, 0, some (.dep .wdgLock)⟩, ⟨15, 1, none⟩, ⟨29, 16, some (.dep .wdgTimeout)⟩, ⟨31, 30, none⟩]⟩,  -- WDG_CTRL
  ⟨0x404, .rw, 0x2710, [], false, [⟨31, 0, some (.dep .wdgWarn)⟩]⟩,  -- WDG_WARN_US
  ⟨0x408, .wo, 0x0, [], false, []⟩,  -- WDG_SERVICE
  ⟨0x40C, .w1c, 0x0, [], false, [⟨0, 0, some .any⟩]⟩]  -- WDG_EVENTS

/-- Registers of the block Wld (part 1). -/
def regsWld1 : List RegDesc := [
  ⟨0x410, .ro, 0x0, [], false, []⟩,  -- WDG_CNT_BAD
  ⟨0xFFC, .wo, 0x0, [], false, []⟩]  -- WLD_CFG_APPLY

/-- Registers of the block Dma (part 0). -/
def regsDma : List RegDesc := [
  ⟨0x0, .ns, 0x0, [(16, 0x20)], false, [⟨31, 0, some .any⟩]⟩,  -- DMA_SRC_LO
  ⟨0x4, .ns, 0x0, [(16, 0x20)], false, [⟨19, 0, some .any⟩]⟩,  -- DMA_SRC_HI
  ⟨0x8, .ns, 0x0, [(16, 0x20)], false, [⟨31, 0, some .any⟩]⟩,  -- DMA_DST_LO
  ⟨0xC, .ns, 0x0, [(16, 0x20)], false, [⟨19, 0, some .any⟩]⟩,  -- DMA_DST_HI
  ⟨0x10, .ns, 0x0, [(16, 0x20)], false, [⟨31, 0, some .any⟩]⟩,  -- DMA_LEN
  ⟨0x14, .wo, 0x0, [(16, 0x20)], false, []⟩,  -- DMA_CMD
  ⟨0x18, .ro, 0x0, [(16, 0x20)], false, []⟩]  -- DMA_STATUS

/-- Every set-up block (R48), with its registers. -/
def blocks : List Block := [
  ⟨0x0, 1, 0x10000, regsGlobal0 ++ regsGlobal1 ++ regsGlobal2⟩,
  ⟨0x10000, 1, 0x10000, regsCfg⟩,
  ⟨0x100000, 64, 0x10000, regsTile0 ++ regsTile1 ++ regsTile2⟩,
  ⟨0x600000, 8, 0x10000, regsUmp0 ++ regsUmp1⟩,
  ⟨0x700000, 256, 0x1000, regsQe0 ++ regsQe1⟩,
  ⟨0x800000, 1, 0x10000, regsKv0 ++ regsKv1⟩,
  ⟨0x900000, 1, 0x10000, regsGfx0 ++ regsGfx1⟩,
  ⟨0x910000, 1, 0x10000, regsDisp0 ++ regsDisp1⟩,
  ⟨0x920000, 1, 0x10000, regsCam0 ++ regsCam1⟩,
  ⟨0x930000, 1, 0x10000, regsVc⟩,
  ⟨0xA00000, 1, 0x10000, regsGw00 ++ regsGw01 ++ regsGw02⟩,
  ⟨0xA10000, 1, 0x10000, regsGw1⟩,
  ⟨0xA20000, 1, 0x10000, regsGw20 ++ regsGw21⟩,
  ⟨0xA30000, 1, 0x10000, regsGw3⟩,
  ⟨0xB00000, 1, 0x10000, regsIsl⟩,
  ⟨0xB10000, 1, 0x10000, regsLj⟩,
  ⟨0xB20000, 1, 0x10000, regsKpr0 ++ regsKpr1⟩,
  ⟨0xB30000, 1, 0x10000, regsStest⟩,
  ⟨0xBF0000, 1, 0x10000, regsIbr⟩,
  ⟨0xC10000, 16, 0x4000, regsMbx⟩,
  ⟨0xD00000, 1, 0x10000, regsPwr⟩,
  ⟨0xD10000, 1, 0x10000, regsDom⟩,
  ⟨0xE00000, 1, 0x10000, regsIvm⟩,
  ⟨0xF00000, 1, 0x10000, regsWld0 ++ regsWld1⟩,
  ⟨0xF10000, 1, 0x10000, regsDma⟩]

namespace Off

abbrev LS_IDENT : Nat := 0x0
abbrev GLB_MODULE : Nat := 0x8
abbrev OVER_CTRL : Nat := 0x10
abbrev OVER_PHASE : Nat := 0x14
abbrev OVER_HOLDOVER : Nat := 0x18
abbrev OVER_SLEW_LIMIT : Nat := 0x1C
abbrev OVER_COUNT : Nat := 0x20
abbrev OVER_STATUS : Nat := 0x24
abbrev OVER_EVENTS : Nat := 0x28
abbrev OVER_INT_EN : Nat := 0x2C
abbrev OVER_EDGE_NS : Nat := 0x30
abbrev OVER_EDGE_SEC : Nat := 0x34
abbrev OVER_BALL : Nat := 0x38
abbrev OVER_PHASE_ERR : Nat := 0x3C
abbrev SCH_CTRL : Nat := 0x100
abbrev SCH_STATUS : Nat := 0x104
abbrev SCH_EVENTS : Nat := 0x108
abbrev SCH_INT_EN : Nat := 0x10C
abbrev SCH_CNT_REJECT : Nat := 0x110
abbrev SCH_CNT_KILL : Nat := 0x114
abbrev SCH_CNT_OVERRUN : Nat := 0x118
abbrev SCH_LOADER_BW : Nat := 0x11C
abbrev SCH_PART_CTRL (i : Nat) : Nat := 0x120 + i * 0x10
abbrev SCH_PART_WIN (i : Nat) : Nat := 0x124 + i * 0x10
abbrev SCH_PART_STATUS (i : Nat) : Nat := 0x128 + i * 0x10
abbrev SCH_PART_RESET (i : Nat) : Nat := 0x12C + i * 0x10
abbrev BW_CLASS_MIN (i : Nat) : Nat := 0x200 + i * 0x4
abbrev RT_EVENTS : Nat := 0x240
abbrev RT_INT_EN : Nat := 0x244
abbrev RT_DENIED : Nat := 0x248
abbrev RT_DENY_ADDR_LO : Nat := 0x24C
abbrev RT_DENY_ADDR_HI : Nat := 0x250
abbrev GLB_CFG_APPLY : Nat := 0xFFC
abbrev RT_BASE_LO (i : Nat) : Nat := 0x1000 + i * 0x20
abbrev RT_BASE_HI (i : Nat) : Nat := 0x1004 + i * 0x20
abbrev RT_LIMIT_LO (i : Nat) : Nat := 0x1008 + i * 0x20
abbrev RT_LIMIT_HI (i : Nat) : Nat := 0x100C + i * 0x20
abbrev RT_ATTR (i : Nat) : Nat := 0x1010 + i * 0x20
abbrev RT_DISCARD_CNT (i : Nat) : Nat := 0x1014 + i * 0x20
abbrev RT_DISCARD_ADDR_LO (i : Nat) : Nat := 0x1018 + i * 0x20
abbrev RT_DISCARD_ADDR_HI (i : Nat) : Nat := 0x101C + i * 0x20
abbrev START_STAGE : Nat := 0x10000
abbrev START_FAIL : Nat := 0x10004
abbrev START_STRAPS : Nat := 0x10008
abbrev CFG_REC_STATUS : Nat := 0x1000C
abbrev CFG_REC_SEQ : Nat := 0x10010
abbrev START_CTRL : Nat := 0x10014
abbrev CLAMP_RING_BASE_LO : Nat := 0x10020
abbrev CLAMP_RING_BASE_HI : Nat := 0x10024
abbrev CLAMP_RING_SIZE : Nat := 0x10028
abbrev CLAMP_PROD : Nat := 0x1002C
abbrev CLAMP_CONS : Nat := 0x10030
abbrev CLAMP_DROPPED : Nat := 0x10034
abbrev CFG_APPLY : Nat := 0x10FFC
abbrev TILE_IDENT (i : Nat) : Nat := 0x100000 + i * 0x10000
abbrev TILE_CTRL (i : Nat) : Nat := 0x100004 + i * 0x10000
abbrev TILE_FREQ_CTRL (i : Nat) : Nat := 0x100008 + i * 0x10000
abbrev TILE_STATUS (i : Nat) : Nat := 0x10000C + i * 0x10000
abbrev TILE_EVENTS (i : Nat) : Nat := 0x100010 + i * 0x10000
abbrev TILE_INT_EN (i : Nat) : Nat := 0x100014 + i * 0x10000
abbrev TILE_FREQ (i : Nat) : Nat := 0x100018 + i * 0x10000
abbrev TILE_TEMP (i : Nat) : Nat := 0x10001C + i * 0x10000
abbrev TILE_AE_CTRL (i : Nat) : Nat := 0x100020 + i * 0x10000
abbrev TILE_AE_STATUS (i : Nat) : Nat := 0x100024 + i * 0x10000
abbrev TILE_RNG_CTRL (i : Nat) : Nat := 0x100028 + i * 0x10000
abbrev TILE_RNG_SEED (i : Nat) : Nat := 0x10002C + i * 0x10000
abbrev TILE_ECC_CE (i : Nat) : Nat := 0x100030 + i * 0x10000
abbrev TILE_ECC_UE (i : Nat) : Nat := 0x100034 + i * 0x10000
abbrev TILE_FAULT_ADDR_LO (i : Nat) : Nat := 0x100038 + i * 0x10000
abbrev TILE_FAULT_ADDR_HI (i : Nat) : Nat := 0x10003C + i * 0x10000
abbrev TILE_CNT_BUSY (i : Nat) : Nat := 0x100040 + i * 0x10000
abbrev TILE_CNT_MX (i : Nat) : Nat := 0x100048 + i * 0x10000
abbrev TILE_CNT_VU (i : Nat) : Nat := 0x100050 + i * 0x10000
abbrev TILE_CNT_AE_WAIT (i : Nat) : Nat := 0x100058 + i * 0x10000
abbrev TILE_CNT_AE_BYTES (i : Nat) : Nat := 0x100060 + i * 0x10000
abbrev TILE_CNT_ST_BYTES (i : Nat) : Nat := 0x100068 + i * 0x10000
abbrev TILE_CNT_RT_BYTES (i : Nat) : Nat := 0x100070 + i * 0x10000
abbrev TILE_ROUTER_STATUS (i : Nat) : Nat := 0x100080 + i * 0x10000
abbrev TILE_ROUTER_ERR (i : Nat) : Nat := 0x100084 + i * 0x10000
abbrev TILE_BANK_OWNER (i j : Nat) : Nat := 0x100100 + i * 0x10000 + j * 0x4
abbrev TILE_BANK_STATUS (i j : Nat) : Nat := 0x100180 + i * 0x10000 + j * 0x4
abbrev TILE_BTEST_CTRL (i : Nat) : Nat := 0x100200 + i * 0x10000
abbrev TILE_BTEST_MASK (i : Nat) : Nat := 0x100204 + i * 0x10000
abbrev TILE_BTEST_STATUS (i : Nat) : Nat := 0x100208 + i * 0x10000
abbrev TILE_BTEST_EVENTS (i : Nat) : Nat := 0x10020C + i * 0x10000
abbrev TILE_BTEST_INT_EN (i : Nat) : Nat := 0x100210 + i * 0x10000
abbrev TILE_BTEST_FAIL_OFF (i : Nat) : Nat := 0x100214 + i * 0x10000
abbrev TILE_SP_ECC_CE (i : Nat) : Nat := 0x100218 + i * 0x10000
abbrev TILE_SP_ECC_UE (i : Nat) : Nat := 0x10021C + i * 0x10000
abbrev TILE_SP_ECC_OFF (i : Nat) : Nat := 0x100220 + i * 0x10000
abbrev TILE_MAIN_DENIED (i : Nat) : Nat := 0x100224 + i * 0x10000
abbrev TILE_PASS_CYCLES (i : Nat) : Nat := 0x100228 + i * 0x10000
abbrev TILE_CFG_APPLY (i : Nat) : Nat := 0x100FFC + i * 0x10000
abbrev UMP_IDENT (i : Nat) : Nat := 0x600000 + i * 0x10000
abbrev UMP_CTRL (i : Nat) : Nat := 0x600004 + i * 0x10000
abbrev UMP_STATUS (i : Nat) : Nat := 0x600008 + i * 0x10000
abbrev UMP_EVENTS (i : Nat) : Nat := 0x60000C + i * 0x10000
abbrev UMP_INT_EN (i : Nat) : Nat := 0x600010 + i * 0x10000
abbrev UMP_ECC_CE (i : Nat) : Nat := 0x600014 + i * 0x10000
abbrev UMP_ECC_UE (i : Nat) : Nat := 0x600018 + i * 0x10000
abbrev UMP_ECC_ADDR_LO (i : Nat) : Nat := 0x60001C + i * 0x10000
abbrev UMP_ECC_ADDR_HI (i : Nat) : Nat := 0x600020 + i * 0x10000
abbrev UMP_MISS_LAST (i : Nat) : Nat := 0x600024 + i * 0x10000
abbrev UMP_CNT_CLEAR (i : Nat) : Nat := 0x600028 + i * 0x10000
abbrev UMP_CLASS_CTRL (i j : Nat) : Nat := 0x600100 + i * 0x10000 + j * 0x4
abbrev UMP_WEIGHT (i j : Nat) : Nat := 0x600140 + i * 0x10000 + j * 0x4
abbrev UMP_CNT_GRANT (i j : Nat) : Nat := 0x600200 + i * 0x10000 + j * 0x20
abbrev UMP_CNT_WAIT (i j : Nat) : Nat := 0x600208 + i * 0x10000 + j * 0x20
abbrev UMP_MAX_WAIT (i j : Nat) : Nat := 0x600210 + i * 0x10000 + j * 0x20
abbrev UMP_CNT_REVOKE (i j : Nat) : Nat := 0x600214 + i * 0x10000 + j * 0x20
abbrev UMP_CNT_MISS (i j : Nat) : Nat := 0x600218 + i * 0x10000 + j * 0x20
abbrev UMP_CFG_APPLY (i : Nat) : Nat := 0x600FFC + i * 0x10000
abbrev QE_INST_CTRL (i : Nat) : Nat := 0x700000 + i * 0x1000
abbrev QE_INST_STATUS (i : Nat) : Nat := 0x700004 + i * 0x1000
abbrev QE_INST_EVENTS (i : Nat) : Nat := 0x700008 + i * 0x1000
abbrev QE_INST_INT_EN (i : Nat) : Nat := 0x70000C + i * 0x1000
abbrev QE_INST_SCHED (i : Nat) : Nat := 0x700010 + i * 0x1000
abbrev QE_RATE_CMDS (i : Nat) : Nat := 0x700014 + i * 0x1000
abbrev QE_RATE_TILE_US (i : Nat) : Nat := 0x700018 + i * 0x1000
abbrev QE_RATE_KIB (i : Nat) : Nat := 0x70001C + i * 0x1000
abbrev QE_KILL_DROPPED (i : Nat) : Nat := 0x700020 + i * 0x1000
abbrev QE_STALE_DB (i : Nat) : Nat := 0x700024 + i * 0x1000
abbrev QE_FREEZE (i : Nat) : Nat := 0x700028 + i * 0x1000
abbrev QE_FREEZE_STATUS (i : Nat) : Nat := 0x70002C + i * 0x1000
abbrev QE_SAVE_BASE_LO (i : Nat) : Nat := 0x700030 + i * 0x1000
abbrev QE_SAVE_BASE_HI (i : Nat) : Nat := 0x700034 + i * 0x1000
abbrev QE_SAVE_BYTES (i : Nat) : Nat := 0x700038 + i * 0x1000
abbrev QE_SAVE_USED (i : Nat) : Nat := 0x70003C + i * 0x1000
abbrev QE_CMD_BASE_LO (i j : Nat) : Nat := 0x700100 + i * 0x1000 + j * 0x20
abbrev QE_CMD_BASE_HI (i j : Nat) : Nat := 0x700104 + i * 0x1000 + j * 0x20
abbrev QE_CMD_CTRL (i j : Nat) : Nat := 0x700108 + i * 0x1000 + j * 0x20
abbrev QE_DB_ADDR_LO (i j : Nat) : Nat := 0x70010C + i * 0x1000 + j * 0x20
abbrev QE_DB_ADDR_HI (i j : Nat) : Nat := 0x700110 + i * 0x1000 + j * 0x20
abbrev QE_DB_GEN (i j : Nat) : Nat := 0x700114 + i * 0x1000 + j * 0x20
abbrev QE_CMD_CONS (i j : Nat) : Nat := 0x700118 + i * 0x1000 + j * 0x20
abbrev QE_CMD_STATUS (i j : Nat) : Nat := 0x70011C + i * 0x1000 + j * 0x20
abbrev QE_CPL_BASE_LO (i j : Nat) : Nat := 0x700300 + i * 0x1000 + j * 0x20
abbrev QE_CPL_BASE_HI (i j : Nat) : Nat := 0x700304 + i * 0x1000 + j * 0x20
abbrev QE_CPL_CTRL (i j : Nat) : Nat := 0x700308 + i * 0x1000 + j * 0x20
abbrev QE_CPL_PROD (i j : Nat) : Nat := 0x70030C + i * 0x1000 + j * 0x20
abbrev QE_CPL_CONS (i j : Nat) : Nat := 0x700310 + i * 0x1000 + j * 0x20
abbrev QE_CPL_RESV (i j : Nat) : Nat := 0x700314 + i * 0x1000 + j * 0x20
abbrev QE_CFG_APPLY (i : Nat) : Nat := 0x700FFC + i * 0x1000
abbrev KV_CTRL : Nat := 0x800000
abbrev KV_STATUS : Nat := 0x800004
abbrev KV_POOL_BASE_LO : Nat := 0x800008
abbrev KV_POOL_BASE_HI : Nat := 0x80000C
abbrev KV_POOL_PAGES : Nat := 0x800010
abbrev KV_DIR_PAGES : Nat := 0x800014
abbrev KV_INDEX_BASE_LO : Nat := 0x800018
abbrev KV_INDEX_BASE_HI : Nat := 0x80001C
abbrev KV_TABLE_BASE_LO : Nat := 0x800020
abbrev KV_TABLE_BASE_HI : Nat := 0x800024
abbrev KV_LOW_WATER : Nat := 0x800028
abbrev KV_EVENTS : Nat := 0x80002C
abbrev KV_INT_EN : Nat := 0x800030
abbrev KV_FREE_PAGES : Nat := 0x800034
abbrev KV_FREE_DIR : Nat := 0x800038
abbrev KV_FREE_RECORDS : Nat := 0x80003C
abbrev KV_CNT_EXHAUSTED : Nat := 0x800040
abbrev KV_CNT_RECYCLED : Nat := 0x800044
abbrev KV_CNT_COW : Nat := 0x800048
abbrev KV_RSV_BASE_LO (i : Nat) : Nat := 0x800100 + i * 0x10
abbrev KV_RSV_BASE_HI (i : Nat) : Nat := 0x800104 + i * 0x10
abbrev KV_RSV_PAGES (i : Nat) : Nat := 0x800108 + i * 0x10
abbrev KV_CFG_APPLY : Nat := 0x800FFC
abbrev KV_RSV_SEQ (i : Nat) : Nat := 0x801000 + i * 0x8
abbrev KV_RSV_LEN (i : Nat) : Nat := 0x802000 + i * 0x8
abbrev KV_RSV_BT (i : Nat) : Nat := 0x803000 + i * 0x4
abbrev GFX_STATUS : Nat := 0x900000
abbrev GFX_EVENTS : Nat := 0x900004
abbrev GFX_INT_EN : Nat := 0x900008
abbrev GFX_CTX_CTRL (i : Nat) : Nat := 0x900100 + i * 0x40
abbrev GFX_CTX_JOB (i : Nat) : Nat := 0x900104 + i * 0x40
abbrev GFX_BIN_BASE_LO (i : Nat) : Nat := 0x900108 + i * 0x40
abbrev GFX_BIN_BASE_HI (i : Nat) : Nat := 0x90010C + i * 0x40
abbrev GFX_BIN_MIB (i : Nat) : Nat := 0x900110 + i * 0x40
abbrev GFX_EXT_BASE_LO (i : Nat) : Nat := 0x900114 + i * 0x40
abbrev GFX_EXT_BASE_HI (i : Nat) : Nat := 0x900118 + i * 0x40
abbrev GFX_EXT_MIB (i : Nat) : Nat := 0x90011C + i * 0x40
abbrev GFX_CTX_STATUS (i : Nat) : Nat := 0x900120 + i * 0x40
abbrev GFX_CTX_ERR_OFF (i : Nat) : Nat := 0x900124 + i * 0x40
abbrev GFX_CNT_EXT (i : Nat) : Nat := 0x900128 + i * 0x40
abbrev GFX_CNT_PARTIAL (i : Nat) : Nat := 0x90012C + i * 0x40
abbrev GFX_CNT_LATE_YIELD (i : Nat) : Nat := 0x900130 + i * 0x40
abbrev GFX_POOL_PEAK (i : Nat) : Nat := 0x900134 + i * 0x40
abbrev GFX_CFG_APPLY : Nat := 0x900FFC
abbrev DISP_CTRL (i : Nat) : Nat := 0x910000 + i * 0x80
abbrev DISP_H (i : Nat) : Nat := 0x910004 + i * 0x80
abbrev DISP_V (i : Nat) : Nat := 0x910008 + i * 0x80
abbrev DISP_HSYNC (i : Nat) : Nat := 0x91000C + i * 0x80
abbrev DISP_VSYNC (i : Nat) : Nat := 0x910010 + i * 0x80
abbrev DISP_PCLK_KHZ (i : Nat) : Nat := 0x910014 + i * 0x80
abbrev DISP_LINK (i : Nat) : Nat := 0x910018 + i * 0x80
abbrev DISP_BORDER (i : Nat) : Nat := 0x91001C + i * 0x80
abbrev DISP_ROI_POS (i : Nat) : Nat := 0x910020 + i * 0x80
abbrev DISP_ROI_SIZE (i : Nat) : Nat := 0x910024 + i * 0x80
abbrev DISP_STATUS (i : Nat) : Nat := 0x910028 + i * 0x80
abbrev DISP_EVENTS (i : Nat) : Nat := 0x91002C + i * 0x80
abbrev DISP_INT_EN (i : Nat) : Nat := 0x910030 + i * 0x80
abbrev DISP_CNT_REPEAT (i : Nat) : Nat := 0x910034 + i * 0x80
abbrev DISP_CNT_SKIP (i : Nat) : Nat := 0x910038 + i * 0x80
abbrev DISP_CNT_UNDERRUN (i : Nat) : Nat := 0x91003C + i * 0x80
abbrev DISP_FRAMES (i : Nat) : Nat := 0x910040 + i * 0x80
abbrev DISP_CRC (i : Nat) : Nat := 0x910044 + i * 0x80
abbrev DISP_CRC_FRAME (i : Nat) : Nat := 0x910048 + i * 0x80
abbrev DISP_LATCH_NS (i : Nat) : Nat := 0x91004C + i * 0x80
abbrev DISP_LATCH_OVER (i : Nat) : Nat := 0x910050 + i * 0x80
abbrev DISP_SCAN_ADDR (i : Nat) : Nat := 0x910058 + i * 0x80
abbrev DISP_CFG_APPLY : Nat := 0x910FFC
abbrev CAM_CTRL (i : Nat) : Nat := 0x920000 + i * 0xC0
abbrev CAM_SIZE (i : Nat) : Nat := 0x920004 + i * 0xC0
abbrev CAM_PARAM_LO (i : Nat) : Nat := 0x920008 + i * 0xC0
abbrev CAM_PARAM_HI (i : Nat) : Nat := 0x92000C + i * 0xC0
abbrev CAM_STATUS (i : Nat) : Nat := 0x920010 + i * 0xC0
abbrev CAM_EVENTS (i : Nat) : Nat := 0x920014 + i * 0xC0
abbrev CAM_INT_EN (i : Nat) : Nat := 0x920018 + i * 0xC0
abbrev CAM_CNT_DROP (i : Nat) : Nat := 0x92001C + i * 0xC0
abbrev CAM_CNT_ERR (i : Nat) : Nat := 0x920020 + i * 0xC0
abbrev CAM_OUT_CTRL (i j : Nat) : Nat := 0x920040 + i * 0xC0 + j * 0x40
abbrev CAM_OUT_SIZE (i j : Nat) : Nat := 0x920044 + i * 0xC0 + j * 0x40
abbrev CAM_BUF_BASE_LO (i j : Nat) : Nat := 0x920048 + i * 0xC0 + j * 0x40
abbrev CAM_BUF_BASE_HI (i j : Nat) : Nat := 0x92004C + i * 0xC0 + j * 0x40
abbrev CAM_BUF_STRIDE (i j : Nat) : Nat := 0x920050 + i * 0xC0 + j * 0x40
abbrev CAM_REC_BASE_LO (i j : Nat) : Nat := 0x920054 + i * 0xC0 + j * 0x40
abbrev CAM_REC_BASE_HI (i j : Nat) : Nat := 0x920058 + i * 0xC0 + j * 0x40
abbrev CAM_PROD (i j : Nat) : Nat := 0x920060 + i * 0xC0 + j * 0x40
abbrev CAM_CONS (i j : Nat) : Nat := 0x920064 + i * 0xC0 + j * 0x40
abbrev CAM_CFG_APPLY : Nat := 0x920FFC
abbrev VC_CTRL (i : Nat) : Nat := 0x930000 + i * 0x40
abbrev VC_RING_BASE_LO (i : Nat) : Nat := 0x930004 + i * 0x40
abbrev VC_RING_BASE_HI (i : Nat) : Nat := 0x930008 + i * 0x40
abbrev VC_DB_ADDR_LO (i : Nat) : Nat := 0x93000C + i * 0x40
abbrev VC_DB_ADDR_HI (i : Nat) : Nat := 0x930010 + i * 0x40
abbrev VC_CPL_BASE_LO (i : Nat) : Nat := 0x930014 + i * 0x40
abbrev VC_CPL_BASE_HI (i : Nat) : Nat := 0x930018 + i * 0x40
abbrev VC_CTX_BASE_LO (i : Nat) : Nat := 0x93001C + i * 0x40
abbrev VC_CTX_BASE_HI (i : Nat) : Nat := 0x930020 + i * 0x40
abbrev VC_CTX_MIB (i : Nat) : Nat := 0x930024 + i * 0x40
abbrev VC_DB_GEN (i : Nat) : Nat := 0x930028 + i * 0x40
abbrev VC_CONS (i : Nat) : Nat := 0x93002C + i * 0x40
abbrev VC_CPL_PROD (i : Nat) : Nat := 0x930030 + i * 0x40
abbrev VC_CPL_CONS (i : Nat) : Nat := 0x930034 + i * 0x40
abbrev VC_STATUS (i : Nat) : Nat := 0x930038 + i * 0x40
abbrev VC_CFG_APPLY : Nat := 0x930FFC
abbrev GW_CTRL : Nat := 0xA00000
abbrev GW_STATUS : Nat := 0xA00004
abbrev GW_EVENTS : Nat := 0xA00008
abbrev GW_INT_EN : Nat := 0xA0000C
abbrev GW_TAB_BASE_LO : Nat := 0xA00010
abbrev GW_TAB_BASE_HI : Nat := 0xA00014
abbrev GW_MAC_LO : Nat := 0xA00018
abbrev GW_MAC_HI : Nat := 0xA0001C
abbrev GW_LOAD_SEL : Nat := 0xA00020
abbrev GW_LOAD_COUNT : Nat := 0xA00024
abbrev GW_CNT_MISS : Nat := 0xA00028
abbrev GW_CNT_CV_FAIL : Nat := 0xA0002C
abbrev GW_CNT_SEQ_GAP : Nat := 0xA00030
abbrev GW_CNT_LOAD_REJECT : Nat := 0xA00034
abbrev TIME_NOW_NS : Nat := 0xA00040
abbrev TIME_LATCH_SEC_LO : Nat := 0xA00044
abbrev TIME_LATCH_SEC_HI : Nat := 0xA00048
abbrev TIME_ADJ_RATE : Nat := 0xA00050
abbrev TIME_ADJ_OFFSET : Nat := 0xA00058
abbrev TIME_SET_NS : Nat := 0xA00060
abbrev TIME_SET_SEC_LO : Nat := 0xA00064
abbrev TIME_SET_SEC_HI : Nat := 0xA00068
abbrev CAP_CTRL (i : Nat) : Nat := 0xA00100 + i * 0x20
abbrev CAP_POP (i : Nat) : Nat := 0xA00104 + i * 0x20
abbrev CAP_HEAD (i : Nat) : Nat := 0xA00108 + i * 0x20
abbrev CAP_CNT_DROP (i : Nat) : Nat := 0xA00110 + i * 0x20
abbrev PULSE_CTRL (i : Nat) : Nat := 0xA00200 + i * 0x20
abbrev PULSE_START_NS (i : Nat) : Nat := 0xA00204 + i * 0x20
abbrev PULSE_START_SEC_LO (i : Nat) : Nat := 0xA00208 + i * 0x20
abbrev PULSE_START_SEC_HI (i : Nat) : Nat := 0xA0020C + i * 0x20
abbrev PULSE_PERIOD_NS (i : Nat) : Nat := 0xA00210 + i * 0x20
abbrev PULSE_WIDTH_NS (i : Nat) : Nat := 0xA00214 + i * 0x20
abbrev PULSE_STATUS (i : Nat) : Nat := 0xA00218 + i * 0x20
abbrev GW_CFG_APPLY : Nat := 0xA00FFC
abbrev GW_PORT_CTRL (i : Nat) : Nat := 0xA10000 + i * 0x100
abbrev GW_PORT_GCL (i : Nat) : Nat := 0xA10004 + i * 0x100
abbrev GW_PORT_QLIMIT (i : Nat) : Nat := 0xA10008 + i * 0x100
abbrev GW_PORT_STATUS (i : Nat) : Nat := 0xA1000C + i * 0x100
abbrev GW_PORT_EVENTS (i : Nat) : Nat := 0xA10010 + i * 0x100
abbrev GW_PORT_INT_EN (i : Nat) : Nat := 0xA10014 + i * 0x100
abbrev GW_PORT_TXTS_HEAD (i : Nat) : Nat := 0xA10018 + i * 0x100
abbrev GW_PORT_TXTS_POP (i : Nat) : Nat := 0xA10020 + i * 0x100
abbrev GW_PORT_TXTS_DROP (i : Nat) : Nat := 0xA10024 + i * 0x100
abbrev GW_PORT_RX_FRAMES (i : Nat) : Nat := 0xA10028 + i * 0x100
abbrev GW_PORT_TX_FRAMES (i : Nat) : Nat := 0xA1002C + i * 0x100
abbrev GW_PORT_RX_ERR (i : Nat) : Nat := 0xA10030 + i * 0x100
abbrev GW_PORT_Q_DROP (i : Nat) : Nat := 0xA10034 + i * 0x100
abbrev GW_PORT_MACSEC_DROP (i : Nat) : Nat := 0xA10038 + i * 0x100
abbrev GW_PORT_CUT_THROUGH (i : Nat) : Nat := 0xA1003C + i * 0x100
abbrev GW1_CFG_APPLY : Nat := 0xA10FFC
abbrev CAN_CTRL (i : Nat) : Nat := 0xA20000 + i * 0x40
abbrev CAN_RATE (i : Nat) : Nat := 0xA20004 + i * 0x40
abbrev CAN_SAMPLE (i : Nat) : Nat := 0xA20008 + i * 0x40
abbrev CAN_STATUS (i : Nat) : Nat := 0xA2000C + i * 0x40
abbrev CAN_EVENTS (i : Nat) : Nat := 0xA20010 + i * 0x40
abbrev CAN_INT_EN (i : Nat) : Nat := 0xA20014 + i * 0x40
abbrev CAN_RX_FRAMES (i : Nat) : Nat := 0xA20018 + i * 0x40
abbrev CAN_TX_FRAMES (i : Nat) : Nat := 0xA2001C + i * 0x40
abbrev CAN_DROPS (i : Nat) : Nat := 0xA20020 + i * 0x40
abbrev LIN_CTRL (i : Nat) : Nat := 0xA20400 + i * 0x20
abbrev LIN_SLOT (i : Nat) : Nat := 0xA20404 + i * 0x20
abbrev LIN_STATUS (i : Nat) : Nat := 0xA20408 + i * 0x20
abbrev LIN_EVENTS (i : Nat) : Nat := 0xA2040C + i * 0x20
abbrev LIN_INT_EN (i : Nat) : Nat := 0xA20410 + i * 0x20
abbrev LIN_CNT_ERR (i : Nat) : Nat := 0xA20414 + i * 0x20
abbrev T1S_CTRL (i : Nat) : Nat := 0xA20600 + i * 0x20
abbrev T1S_PLCA (i : Nat) : Nat := 0xA20604 + i * 0x20
abbrev T1S_STATUS (i : Nat) : Nat := 0xA20608 + i * 0x20
abbrev T1S_CNT_COLL (i : Nat) : Nat := 0xA2060C + i * 0x20
abbrev SG_CTRL : Nat := 0xA20700
abbrev SG_EVENTS : Nat := 0xA20704
abbrev SG_INT_EN : Nat := 0xA20708
abbrev SG_CNT_TIMEOUT : Nat := 0xA2070C
abbrev SG_CNT_E2E_FAIL : Nat := 0xA20710
abbrev SG_CNT_REPLACED : Nat := 0xA20714
abbrev SG_CNT_TUNNEL_DENIED : Nat := 0xA20718
abbrev GW2_CFG_APPLY : Nat := 0xA20FFC
abbrev GW_RX_BASE_LO (i : Nat) : Nat := 0xA30000 + i * 0x20
abbrev GW_RX_BASE_HI (i : Nat) : Nat := 0xA30004 + i * 0x20
abbrev GW_RX_CTRL (i : Nat) : Nat := 0xA30008 + i * 0x20
abbrev GW_RX_PROD (i : Nat) : Nat := 0xA3000C + i * 0x20
abbrev GW_RX_CONS (i : Nat) : Nat := 0xA30010 + i * 0x20
abbrev GW_RX_DROP (i : Nat) : Nat := 0xA30014 + i * 0x20
abbrev GW3_CFG_APPLY : Nat := 0xA30FFC
abbrev ISL_CTRL : Nat := 0xB00000
abbrev ISL_STATUS : Nat := 0xB00004
abbrev ISL_EVENTS : Nat := 0xB00008
abbrev ISL_INT_EN : Nat := 0xB0000C
abbrev ISL_MISMATCH_INFO (i : Nat) : Nat := 0xB00010 + i * 0x4
abbrev ISL_CNT_MISMATCH : Nat := 0xB00018
abbrev ISL_CFG_APPLY : Nat := 0xB00FFC
abbrev LJ_CTRL : Nat := 0xB10000
abbrev LJ_SHADOW_BASE_LO : Nat := 0xB10004
abbrev LJ_SHADOW_BASE_HI : Nat := 0xB10008
abbrev LJ_SHADOW_BYTES : Nat := 0xB1000C
abbrev LJ_VERDICT : Nat := 0xB10010
abbrev LJ_VERDICT_OVER : Nat := 0xB10014
abbrev LJ_EVENTS : Nat := 0xB10018
abbrev LJ_INT_EN : Nat := 0xB1001C
abbrev LJ_LAST_FAIL : Nat := 0xB10020
abbrev LJ_LAST_INDEX : Nat := 0xB10024
abbrev LJ_CNT_COMPARED : Nat := 0xB10028
abbrev LJ_CNT_DISAGREE : Nat := 0xB1002C
abbrev LJ_CFG_APPLY : Nat := 0xB10FFC
abbrev KPR_CTRL : Nat := 0xB20000
abbrev KPR_CARD_CTRL : Nat := 0xB20004
abbrev KPR_STATUS : Nat := 0xB20008
abbrev KPR_EVENTS : Nat := 0xB2000C
abbrev KPR_INT_EN : Nat := 0xB20010
abbrev KPR_DOUBT : Nat := 0xB20014
abbrev KPR_RELEASE : Nat := 0xB20018
abbrev KPR_TABLE_SEQ : Nat := 0xB2001C
abbrev KPR_CNT_TAKEOVER : Nat := 0xB20020
abbrev KPR_CNT_YELLOW : Nat := 0xB20024
abbrev KPR_CNT_RED : Nat := 0xB20028
abbrev KPR_CNT_SP_DISCARDED : Nat := 0xB2002C
abbrev KPR_CNT_SP_CLAMPED : Nat := 0xB20030
abbrev KPR_CNT_SP_REFUSED : Nat := 0xB20034
abbrev KPR_CNT_STALE : Nat := 0xB20038
abbrev KPR_LOG_PROD : Nat := 0xB2003C
abbrev KPR_CNT_SP_OVERRIDDEN : Nat := 0xB20040
abbrev KPR_LOG_A (i : Nat) : Nat := 0xB20400 + i * 0x10
abbrev KPR_LOG_B (i : Nat) : Nat := 0xB20408 + i * 0x10
abbrev KPR_SLOT (i : Nat) : Nat := 0xB20800 + i * 0x4
abbrev KPR_LOOP_SP (i : Nat) : Nat := 0xB20A00 + i * 0x4
abbrev KPR_CFG_APPLY : Nat := 0xB20FFC
abbrev WUP_STATUS : Nat := 0xB30000
abbrev WUP_TIME_US : Nat := 0xB30004
abbrev STEST_CTRL : Nat := 0xB30010
abbrev STEST_MASK_LO : Nat := 0xB30014
abbrev STEST_MASK_HI : Nat := 0xB30018
abbrev STEST_EVENTS : Nat := 0xB3001C
abbrev STEST_INT_EN : Nat := 0xB30020
abbrev STEST_LATENT_LO : Nat := 0xB30024
abbrev STEST_LATENT_HI : Nat := 0xB30028
abbrev STEST_FAILED_LO : Nat := 0xB3002C
abbrev STEST_FAILED_HI : Nat := 0xB30030
abbrev STEST_CNT_DEFER : Nat := 0xB30034
abbrev STEST_AGE (i : Nat) : Nat := 0xB30100 + i * 0x4
abbrev STEST_CFG_APPLY : Nat := 0xB30FFC
abbrev IBR_CTRL : Nat := 0xBF0000
abbrev IBR_STATUS : Nat := 0xBF0004
abbrev IBR_EVENTS : Nat := 0xBF0008
abbrev IBR_INT_EN : Nat := 0xBF000C
abbrev IBR_CNT_TIMEOUT : Nat := 0xBF0010
abbrev IBR_CNT_CROSS : Nat := 0xBF0014
abbrev IBR_CNT_LOCK_FAIL : Nat := 0xBF0018
abbrev IBR_CNT_DENIED : Nat := 0xBF001C
abbrev IBR_ERR_ADDR_LO : Nat := 0xBF0020
abbrev IBR_ERR_ADDR_HI : Nat := 0xBF0024
abbrev IBR_MAX_HOLD : Nat := 0xBF0028
abbrev IBR_ACC (i : Nat) : Nat := 0xBF0100 + i * 0x8
abbrev IBR_SEM (i : Nat) : Nat := 0xBF0200 + i * 0x8
abbrev IBR_CFG_APPLY : Nat := 0xBF0FFC
abbrev MBX_CH_CTRL (i : Nat) : Nat := 0xC10000 + i * 0x4000
abbrev MBX_CH_STATUS (i : Nat) : Nat := 0xC10004 + i * 0x4000
abbrev MBX_SUBMIT (i : Nat) : Nat := 0xC10008 + i * 0x4000
abbrev MBX_SUBMIT_STATUS (i : Nat) : Nat := 0xC1000C + i * 0x4000
abbrev MBX_RSP_PROD (i : Nat) : Nat := 0xC10010 + i * 0x4000
abbrev MBX_RSP_CONS (i : Nat) : Nat := 0xC10014 + i * 0x4000
abbrev MBX_CH_EVENTS (i : Nat) : Nat := 0xC10018 + i * 0x4000
abbrev MBX_CH_INT_EN (i : Nat) : Nat := 0xC1001C + i * 0x4000
abbrev MBX_CFG_APPLY (i : Nat) : Nat := 0xC10FFC + i * 0x4000
abbrev PWR_CAP_W : Nat := 0xD00000
abbrev PWR_THERM_TARGET : Nat := 0xD00004
abbrev PWR_VMARGIN : Nat := 0xD00008
abbrev PWR_SCRUB_TARGET : Nat := 0xD0000C
abbrev PWR_LOOP_CTRL : Nat := 0xD00010
abbrev PWR_STATUS : Nat := 0xD00014
abbrev PWR_EVENTS : Nat := 0xD00018
abbrev PWR_INT_EN : Nat := 0xD0001C
abbrev PWR_INPUT_MV : Nat := 0xD00020
abbrev PWR_INPUT_MW : Nat := 0xD00024
abbrev PWR_LIMIT_W : Nat := 0xD00028
abbrev VOX_HEARTBEAT : Nat := 0xD00030
abbrev PWR_DOM_OWNER_LO : Nat := 0xD00040
abbrev PWR_DOM_OWNER_HI : Nat := 0xD00044
abbrev PWR_DOM_STATE (i : Nat) : Nat := 0xD00100 + i * 0x4
abbrev PWR_CFG_APPLY : Nat := 0xD00FFC
abbrev PWR_DOM_REQ : Nat := 0xD10000
abbrev PWR_DOM_RESULT : Nat := 0xD10004
abbrev IVM_CTRL : Nat := 0xE00000
abbrev IVM_STATUS : Nat := 0xE00004
abbrev IVM_EVENTS : Nat := 0xE00008
abbrev IVM_INT_EN : Nat := 0xE0000C
abbrev IVM_SB_DELAY : Nat := 0xE00010
abbrev IVM_CLASS_MIN (i : Nat) : Nat := 0xE00100 + i * 0x4
abbrev IVM_PEER_BW (i : Nat) : Nat := 0xE00140 + i * 0x4
abbrev IVM_CFG_APPLY : Nat := 0xE00FFC
abbrev IVM_PORT_STATUS (i : Nat) : Nat := 0xE01000 + i * 0x40
abbrev IVM_PORT_RETRY (i : Nat) : Nat := 0xE01004 + i * 0x40
abbrev IVM_PORT_DOWNS (i : Nat) : Nat := 0xE01008 + i * 0x40
abbrev WLD_SETUP_SEC (i : Nat) : Nat := 0xF00000 + i * 0x4
abbrev WLD_PIN_SEC_LO : Nat := 0xF00020
abbrev WLD_PIN_SEC_HI : Nat := 0xF00024
abbrev WLD_DMA_SEC : Nat := 0xF00028
abbrev WLD_PCIE : Nat := 0xF0002C
abbrev WLD_EVENTS : Nat := 0xF00030
abbrev WLD_INT_EN : Nat := 0xF00034
abbrev WLD_CNT_DENIED : Nat := 0xF00038
abbrev WLD_LOG_PROD : Nat := 0xF0003C
abbrev WLD_RESET_CAUSE : Nat := 0xF00040
abbrev WLD_LOG_A (i : Nat) : Nat := 0xF00100 + i * 0x10
abbrev WLD_LOG_B (i : Nat) : Nat := 0xF00108 + i * 0x10
abbrev WDG_CTRL : Nat := 0xF00400
abbrev WDG_WARN_US : Nat := 0xF00404
abbrev WDG_SERVICE : Nat := 0xF00408
abbrev WDG_EVENTS : Nat := 0xF0040C
abbrev WDG_CNT_BAD : Nat := 0xF00410
abbrev WLD_CFG_APPLY : Nat := 0xF00FFC
abbrev DMA_SRC_LO (i : Nat) : Nat := 0xF10000 + i * 0x20
abbrev DMA_SRC_HI (i : Nat) : Nat := 0xF10004 + i * 0x20
abbrev DMA_DST_LO (i : Nat) : Nat := 0xF10008 + i * 0x20
abbrev DMA_DST_HI (i : Nat) : Nat := 0xF1000C + i * 0x20
abbrev DMA_LEN (i : Nat) : Nat := 0xF10010 + i * 0x20
abbrev DMA_CMD (i : Nat) : Nat := 0xF10014 + i * 0x20
abbrev DMA_STATUS (i : Nat) : Nat := 0xF10018 + i * 0x20

end Off

end Sys2Proof.Machine
end

