-- ==== Sys2Proof/Machine/State.lean ====
section
/-! DEFINITION. Machine/State.lean: everything the spec gives the machine, as plain data, and its state after reset. -/

namespace Sys2Proof.Machine

/-! ### Answers and emissions -/

/-- The answer to the last access. -/
inductive Resp where
  | none
  | ok
  /-- An error response (R46). -/
  | error
  | data (v : Nat)
  | bytes (bs : List Byte)
  /-- Configuration Request Retry Status (R55). -/
  | retry
  deriving DecidableEq, Repr

/-- What the module sends or drives, in the order it does. -/
inductive Emit where
  /-- A UDP datagram of the management port (R72): VLAN and priority code point, IPv6 addresses, ports, and the bytes it carries. -/
  | udp (vlan pcp : Nat) (src dst : List Byte) (srcPort dstPort : Nat) (bytes : List Byte)
  /-- The SDIO interrupt on DAT1: a response of the service port is ready (R88). -/
  | sdioIrq
  /-- A completion interrupt: instance and vector (R121). -/
  | cplIrq (inst vector : Nat)
  /-- A frame leaving a switch port. -/
  | ethFrame (port : Nat) (bytes : List Byte)
  /-- A CAN frame leaving channel `ch` (0 to 3 the Keeper's): identifier, extended, its marks (bit 0 ESI, 1 FD, 2 BRS, 4 remote, 5 XL), bytes. -/
  | canFrame (ch : Nat) (id : Nat) (ext : Bool) (marks : Nat) (bytes : List Byte)
  /-- A LIN header on channel `ch`, with the response and its checksum byte when the channel sends them (R515). -/
  | linFrame (ch : Nat) (id : Nat) (bytes : List Byte)
  /-- A pulse on output `o`: its width in ns, whether it is inverted, and the A-PHY inputs triggered with it (R526). -/
  | pulse (o width : Nat) (inverted : Bool) (cameras : Nat)
  /-- A PWM output's new duty, as FP32 (R427). -/
  | pwm (o : Nat) (duty : W32)
  /-- A JTAG instruction's drive of the pins (R597). -/
  | jtagDrive (instr : Nat)
  /-- A hub DMA copy has ended (R548). -/
  | dmaIrq (ch : Nat)
  /-- A response on a mailbox channel (R556). -/
  | mboxIrq (ch vector : Nat)
  deriving DecidableEq, Repr

/-! ### Time unit (01) -/

/-- An Over geometry: LEN_STEPS, BALLS and OVER_PHASE. -/
structure Geometry where
  steps : Nat
  balls : Nat
  phase : Nat
  deriving DecidableEq, Repr

/-- The time unit beside its registers. Hardware time is held exactly, in 2^-10 ppb of a nanosecond (R533). -/
structure TimeUnit where
  /-- Hardware time (R521), 1,024,000,000,000 to the nanosecond. -/
  sub : Int
  /-- The frequency correction in 2^-10 ppb (R522). -/
  rate : Int
  /-- The remainder still to slew, in the unit of `sub`; positive when running edges are late (R24). -/
  slew : Int
  /-- A remainder, in the unit of `sub`, to step at the next edge, which then begins a dead Over (R24). -/
  stepAtEdge : Option Int
  /-- Hardware time that has passed since the running Over began, steps left out, in the unit of `sub`. -/
  run : Int
  /-- The geometry in force. -/
  geom : Geometry
  /-- A geometry change waits for the first edge at or after this instant (R34). -/
  geomDue : Option Nat
  /-- The instant of the last Over edge, or of power good. -/
  edgeAt : Nat
  /-- The length the running Over is to have in hardware time, in the unit of `sub`. -/
  overLen : Int
  /-- A reference has been seen since power good (R20). -/
  refSeen : Bool
  /-- The instant of the last measurement of the reference (R522). -/
  refAt : Nat
  /-- The instant at which HOLDOVER began (R23). -/
  holdSince : Nat
  /-- A follower has loaded OVER_COUNT from the time source (R26). -/
  counted : Bool
  /-- The seconds last written to TIME_SET (R533). -/
  setSecLo : Nat
  setSecHi : Nat
  deriving DecidableEq, Repr

/-! ### Staged start (02) -/

/-- The boot fetch (R72 to R76). -/
structure Fetch where
  /-- A solicitation runs. -/
  active : Bool
  /-- The last attempt failed, and the next SOLICIT waits (R75). -/
  failed : Bool
  /-- The wait before the next SOLICIT, in ms, and the instant from which it counts (R75). -/
  waitMs : Nat
  since : Nat
  /-- The address of the server whose OFFER was accepted. -/
  peer : List Byte
  /-- The accepted OFFER: session, image length, version, block size. -/
  offer : Option (Nat × Nat × Nat × Nat)
  /-- The next block not yet asked for. -/
  nextBlock : Nat
  outstanding : List Nat
  received : List Nat
  /-- Retries of each outstanding block, and the instant at which it was last asked for (R75). -/
  retries : KMap Nat
  asked : KMap Nat
  /-- The reason of the last failure, sent in SOLICIT (R73). -/
  reason : Nat
  deriving DecidableEq, Repr

/-- The staged start beside its registers. -/
structure StartSt where
  /-- Power good has been given and not taken back. -/
  powered : Bool
  /-- The island did not start: the module goes no further (R66). -/
  halted : Bool
  /-- MOD_FAULT_N is asserted. -/
  modFault : Bool
  /-- The island's Over monitor is armed (R53). -/
  monitor : Bool
  /-- The management complex, the cluster and the tiles have left reset (R52). -/
  released : Bool
  /-- A configuration record has been read (R68). -/
  recordRead : Bool
  /-- The record's FLAGS, MIN_FW_VERSION, BOOT_VLAN, FETCH_PORT and FETCH_SERVER in force. -/
  flags : Nat
  minFw : Nat
  vlan : Nat
  port : Nat
  server : List Byte
  /-- The management port's PHY is master, as the applied record's MGMT_MASTER sets (R72). -/
  phyMaster : Bool
  fetch : Fetch
  /-- Voxsar runs. -/
  voxsar : Bool
  /-- HBM training has ended well (R83). -/
  hbmUp : Bool
  /-- The loader has been released (R85). -/
  loader : Bool
  /-- READY has been written; S5 begins at the next Over edge. -/
  ready : Bool
  /-- The Keeper table's bytes at power good, once flash has changed in S0: a provisioned table is checked at the next start only (R94). -/
  tableKept : Option (List Byte)
  deriving DecidableEq, Repr

/-- The service port (R88 to R91). -/
structure ServicePort where
  /-- 0 idle, 1 busy, 2 response ready. -/
  state : Nat
  /-- The command window: what was written at its start; the rest reads zero. -/
  command : List Byte
  /-- The response window: the last response. -/
  response : List Byte
  /-- The frame header of an erase in progress: opcode and tag. -/
  erasing : Option (Nat × Nat)
  /-- Loops whose setpoint the port has set since the last edge, with the value (R93). -/
  setpoints : KMap W32
  deriving DecidableEq, Repr

/-- The staging copy of one register (R78, R546). -/
structure Staged where
  value : W64
  /-- Bits written since the last apply. -/
  written : W64
  /-- Bits whose last writer was in the normal world. -/
  normal : W64
  deriving DecidableEq, Repr

/-! ### Rings and commands (03, 09) -/

/-- One argument entry (R114). -/
structure Arg where
  addr : Nat
  len : Nat
  port : Nat
  kind : Nat
  hdr : Bool
  deriving DecidableEq, Repr

/-- Where a command in flight stands. -/
inductive Phase where
  /-- Picked up and not admitted. -/
  | waiting
  /-- Admitted (its load, if it needs one, and its run), and not started. -/
  | admitted
  /-- Running. -/
  | running
  /-- Execution has ended and every check has passed: the commit point may come. -/
  | ended
  /-- Killed or aborted: its tiles are stopping; the final status it will have, or a re-run when none. -/
  | stopping (final : Option Nat)
  /-- Held by a freeze (R353). -/
  | held
  deriving DecidableEq, Repr

/-- The plan load a command waits for or makes (R327 to R330, R334, R600). -/
structure Load where
  stream : Nat
  tiles : List Nat
  /-- MODEL_CACHE banks on each tile. -/
  banks : Nat
  /-- What it takes in all, in ns; none when it has no bound (R603). -/
  need : Option Nat
  /-- The loader has taken the banks and moves data, since this instant. -/
  started : Option Nat
  /-- The banks taken: (tile, bank). -/
  taken : List (Nat × Nat)
  deriving DecidableEq, Repr

/-- A pool sequence's record, as the page manager holds it (R291, R292). -/
structure KvRec where
  tag : Nat
  /-- 0 FREE, 1 ALLOCATED, 2 BOUND. -/
  st : Nat
  window : Bool
  inst : Nat
  lanes : Nat
  log2tp : Nat
  bt : Nat
  length : Nat
  firstS : Nat
  maxPages : Nat
  /-- The data page mapped in each slot. -/
  slots : KMap Nat
  /-- Pages held for future rows, in the order in which they will be used. -/
  heldPages : List Nat
  headRow : Nat
  headSlot : Nat
  spareRows : Nat
  gen : Nat
  recycled : Nat
  /-- SHARED, as the record in the table region shows it. -/
  shared : Bool
  /-- Directory pages. -/
  dirs : List Nat
  deriving DecidableEq, Repr

/-- What a running command has staged for one key-value sequence (R297 to R301). -/
structure KvUse where
  /-- Index of the argument entry. -/
  arg : Nat
  handle : Nat
  /-- The append limit. -/
  limit : Nat
  /-- The committed length when the command started. -/
  base : Nat
  appended : Nat
  /-- The command binds the sequence, with this geometry. -/
  binds : Bool
  lanes : Nat
  log2tp : Nat
  bt : Nat
  /-- Pages set aside and not yet used: the first `fromHeld` of all those set aside were HELD. -/
  reserved : List Nat
  fromHeld : Nat
  /-- Spare rows to keep under WINDOW. -/
  spareRows : Nat
  /-- Staged pages by row × 256 + lane: new rows, and the copies of a shared tail row. -/
  staged : KMap Nat
  deriving DecidableEq, Repr

/-- A binned primitive (R459 to R464): its sequence number, the index of its DRAW record, its vertices in 1/256 pixel, and the screen
tiles that list it. -/
structure Prim where
  seq : Nat
  record : Nat
  pts : List (Int × Int)
  tiles : List Nat
  deriving DecidableEq, Repr

/-- One sample of a screen tile (R466): depth and colours as the formats hold them, and the stencil. -/
structure Sample where
  depth : Nat
  stencil : Nat
  colours : List Nat
  deriving DecidableEq, Repr

/-- One choice of one token of an expert layer (R271 to R274): rank, home tile by its place in the tile set, token, expert, gate weight, the
slot it is placed in, and whether it was rerouted. -/
structure Choice where
  rank : Nat
  home : Nat
  token : Nat
  expert : Nat
  weight : W32
  slot : Option Nat
  rerouted : Bool
  deriving DecidableEq, Repr

/-- What the routing step of an expert layer has decided: its home tiles, in tile-set order, and the choices of their tokens (R273). -/
structure MoeRun where
  homes : List Nat
  choices : List Choice
  deriving DecidableEq, Repr

/-- Where a DRAW_LIST stands (R458 to R473). -/
structure DrawSt where
  /-- The list, as the front end reads it. -/
  list : List Byte
  /-- The record the front end is at, by index. -/
  next : Nat
  /-- Primitives binned so far. -/
  seq : Nat
  /-- Binned primitives whose lists are not freed, in order. -/
  prims : List Prim
  /-- The owning compute tile of each screen tile (R465). -/
  owner : List Nat
  /-- How many of `prims` each screen tile has passed. -/
  passed : KMap Nat
  /-- Entries in each screen tile's list (R460). -/
  entries : KMap Nat
  /-- Bytes in use in the bin pool and the extension pool, and whether the command has used the latter. -/
  binUsed : Nat
  extUsed : Nat
  usedExt : Bool
  /-- The current vertex batch: its bytes, and whether it lies in the extension pool. -/
  batch : Nat × Bool
  /-- A partial render is in progress (R463). -/
  full : Bool
  /-- Jobs that run: compute tile and screen tile (R469), and the instant at which each started (R472). -/
  jobs : KMap Nat
  since : KMap Nat
  /-- What samples that nothing has drawn on hold: depth clear value, colour clear value and initial contents of each target. -/
  depthClear : Nat
  clear : List Nat
  init : List (List Byte)
  /-- Samples drawn on, by (y × 8,192 + x) × 4 + sample. -/
  px : KMap Sample
  /-- Screen tiles whose colour is written to the targets. -/
  stored : List Nat
  deriving DecidableEq, Repr

/-- A decision that ends a command (R344). -/
structure Decision where
  /-- The instant, and the rank of R344: 2 partition reset, 3 teardown, 4 freeze, 5 timing or deadline, 6 pre-emption. -/
  instant : Nat
  rank : Nat
  /-- The command's execution had ended when it was made. -/
  ended : Bool
  deriving DecidableEq, Repr

/-- A command in flight. -/
structure Cmd where
  inst : Nat
  ring : Nat
  seq : Nat
  desc : List Byte
  args : List Arg
  /-- The completion ring in which a slot is reserved (R103). -/
  cpl : Nat
  phase : Phase
  kills : Nat
  startNs : Nat
  startOver : Nat
  /-- The instant the run started. -/
  startAt : Nat
  /-- The stream, tile set (of copy A and of copy B) and WCET selected at admission (R332). -/
  stream : Nat
  tiles : List Nat
  tilesB : List Nat
  wcetUs : Nat
  /-- The charge against the stream's budget, in ns (R334, R341). -/
  charge : Nat
  /-- The load of its plan, when one is admitted. -/
  load : Option Load
  /-- Overs in a row in which it was skipped for lack of budget, and whether it was in this one (R337). -/
  skips : Nat
  skipped : Bool
  /-- Its first consideration has been made (R332). -/
  seen : Bool
  /-- It runs non-pre-emptibly (R343). -/
  nonPreempt : Bool
  clamps : Nat
  voidRows : Bool
  /-- The final status found while running, when not OK, and its DETAIL. -/
  status : Nat
  detail : Nat
  /-- For safety commands: copies A and B have ended execution, and the comparison has been made. -/
  endedA : Bool
  endedB : Bool
  judged : Bool
  /-- The budget has elapsed and its trigger has been raised (R339). -/
  overran : Bool
  /-- The frame of a SEND in the commit buffer. -/
  frame : Option (List Byte)
  /-- Key-value sequences named, once started. -/
  kv : List KvUse
  /-- The record KV_ALLOC or KV_FORK will make, by its index. -/
  kvNew : Option (Nat × KvRec)
  /-- A value held for publication: a check value. -/
  result : Nat
  /-- The plan image a LOAD_PLAN has read and checked, and its CRC-64 (R324). -/
  image : List Byte
  crc : Nat
  draw : DrawSt
  /-- What the streams of the image that a LOAD_PLAN has checked declare. -/
  code : CodeInfo
  /-- Rows the last scout pass selected, by (attention layer × 65,536 + key-value head) × 2, plus 1 for copy B (R308). -/
  picks : KMap (List Nat)
  /-- Vector launches begun: groups taken so far, by launch × 2, plus 1 for copy B (R153). -/
  launched : KMap Nat
  /-- Routing of the expert layers so far, by layer × 2, plus 1 for copy B (R271 to R275). -/
  moe : KMap MoeRun
  /-- Run-ahead reads of blocks not released (R379): tile × 2^32 + block, and the address. -/
  ahead : List (Nat × Nat)
  /-- The decision that stops it, once made (R344). -/
  decided : Option Decision
  deriving DecidableEq, Repr

/-- A registered plan (R324, R326, R328). -/
structure Plan where
  inst : Nat
  planId : Nat
  addr : Nat
  crc : Nat
  image : List Byte
  /-- What its streams declare. -/
  code : CodeInfo
  pinned : Bool
  /-- Streams that hold it. -/
  resident : List Nat
  /-- A reload of the pinned plan waits or runs (R345, R348). -/
  reload : Option Load
  /-- The order of registration, and the instant of the last admission. -/
  order : Nat
  lastUse : Nat
  /-- The banks that hold its weights: (tile, bank). -/
  banks : List (Nat × Nat)
  /-- To be evicted when no command of it is in flight; `true`: unregistered too (R116). -/
  evictDue : Option Bool
  deriving DecidableEq, Repr

/-- One instance beside its registers. -/
structure Inst where
  /-- Per ring: the producer index last accepted (R100). -/
  prod : KMap Nat
  /-- Charges in the current Over: commands, tile-microseconds, KiB (R349). -/
  usedCmds : Nat
  usedTileUs : Nat
  usedKib : Nat
  /-- Tile-microseconds admitted in the current and the previous Over (R335). -/
  served : Nat
  servedPrev : Nat
  /-- The ring last served (R335). -/
  lastRing : Nat
  /-- A teardown runs; `true`: it ends in STOPPED (R345). -/
  teardown : Option Bool
  /-- The partition in force while a change waits for IN_FLIGHT 0 (R348). -/
  oldPart : Option Nat
  /-- A freeze, save or restore runs: BUSY of QE_FREEZE_STATUS. -/
  op : Nat
  /-- Low 32 bits of OVER_COUNT at the freeze, and the charges made in that Over (R354). -/
  frozenOver : Nat
  frozenUsed : List Nat
  /-- The outcome a save or a restore in progress will have, and what a restore has read. -/
  opResult : Nat
  image : List Byte
  /-- The records a restore has taken, with their indices (R356). -/
  seqs : List (Nat × KvRec)
  /-- Tiles on which its commands ran (R239). -/
  ranOn : List Nat
  deriving DecidableEq, Repr

/-- One stream's admitted schedule (R333 to R336). -/
structure Stream where
  /-- Admitted commands, in order; a load of a pinned plan's reload is not listed. -/
  admitted : List Nat
  /-- Work moved to the next Over by a pre-emption (R340). -/
  moved : List Nat
  /-- Budget used in this Over, in ns. -/
  used : Nat
  /-- Graphics shares released to it in this Over, in ns (R471). -/
  bonus : Nat
  deriving DecidableEq, Repr

/-- One partition beside its registers. -/
structure Part where
  streams : List Stream
  /-- The tiles of each stream, as last computed (R317, R318, R320). -/
  tiles : List (List Nat)
  resetting : Bool
  /-- Reset ended; admission resumes at the next edge (R345). -/
  resumeAtEdge : Bool
  /-- A bank of the safety partition has become FAULTY: the partition is reset at the next edge (R445). -/
  resetDue : Bool
  deriving DecidableEq, Repr

/-- The scheduler's settings in force (R320, R383): registers applied take effect at the first edge at least 1 µs later. -/
structure SchedSt where
  ctrl : W64
  pctrl : KMap W64
  pwin : KMap W64
  /-- Applies not yet in force: when each may take force, and the values of SCH_CTRL, SCH_PART_CTRL and SCH_PART_WIN; oldest first. -/
  due : List (Nat × W64 × KMap W64 × KMap W64)
  /-- Class minimums in GB/s taken at the last Over edge, as numerators over the same denominator (R331, R383). -/
  classMin : KMap Nat
  /-- Registrations and admissions so far, which order plans. -/
  clock : Nat
  deriving DecidableEq, Repr

/-- The key-value page manager beside its registers (R289 to R302). -/
structure Kv where
  /-- Records by index; one not listed is FREE with tag 0 (its first allocation gives tag 1). -/
  recs : KMap KvRec
  /-- Data pages not in the pool, with the number of sequences that map each; 0 while held or reserved. -/
  pages : KMap Nat
  /-- Directory pages in use. -/
  dirs : List Nat
  /-- Fields of KV_RSV_SEQ applied that wait for the commands naming the sequence (R305): the value in force. -/
  rsvOld : KMap W64
  deriving DecidableEq, Repr

/-! ### Tiles and banks (04, 06) -/

/-- One scratchpad bank beside its registers. -/
structure Bank where
  /-- The owner in force: the fields of TILE_BANK_OWNER. -/
  owner : W64
  /-- A handover waits (R234). -/
  pending : Bool
  deriving DecidableEq, Repr

/-- A group of a vector launch resident on a tile (R153): launch, number in grid order, the squads of the tile that hold its threads, its
registers to a thread, where its shared scratchpad lies, and the squads that wait at its barrier. -/
structure Group where
  launch : Nat
  num : Nat
  squads : List Nat
  regs : Nat
  share : Nat
  waiting : List Nat
  deriving DecidableEq, Repr

/-- A block of the access engine in flight (R162, R163, R187): what its reads bring and where it goes, element by element; its token;
the physical address it starts at, if it reads one; its bytes; and its 64-byte reads that have not returned. -/
structure Flight where
  data : List (Nat × List Byte)
  tok : Nat
  src : Option Nat
  bytes : Nat
  left : Nat
  deriving DecidableEq, Repr

/-- A query row of attention mode (R149, R282): running maximum, normaliser, layer, query head, query row, its position, and the keys it
has met. -/
structure AttRow where
  m : W32
  l : W32
  layer : Nat
  head : Nat
  i : Nat
  pos : Nat
  met : Nat
  deriving DecidableEq, Repr

/-- One tile beside its registers. -/
structure Tile where
  /-- The command whose work it runs. -/
  cmd : Option Nat
  /-- The partition and world in force, when an apply waits for release (R182). -/
  part : Nat
  world : Bool
  /-- Accumulator memory: row × 128 + column (R146). -/
  acc : KMap W32
  /-- The vector unit's register file (R151). -/
  vregs : KMap W32
  /-- Active bits that are 0: squad × 32 + thread (R154). -/
  inactive : List Nat
  /-- The 64 token counters (R136). -/
  tokens : KMap Nat
  /-- The query rows of attention mode, by accumulator row (R149). -/
  att : KMap AttRow
  /-- The groups of vector launches that are resident (R153). -/
  groups : List Group
  /-- Squads whose registers hold what nothing has defined: the first of their free values (R153, R175). -/
  stale : KMap Nat
  /-- Blocks in flight, in the order of their issue (R163, R187). -/
  flight : List Flight
  /-- Access blocks issued and released (R163). -/
  issued : Nat
  releasedBlocks : Nat
  /-- The random source: its seed and the draws since (R177). -/
  seed : Nat
  draws : Nat
  /-- Withdrawn by a failed self-test piece, until power good (R445). -/
  withdrawn : Bool
  /-- The self-test piece that runs. -/
  piece : Option Nat
  /-- The next piece to launch. -/
  nextPiece : Nat
  /-- Cycles of the background-test pass so far. -/
  passCycles : Nat
  /-- The island's instants of the last complete logic test and scratchpad pass (R444). -/
  logicAt : Nat
  passAt : Nat
  deriving DecidableEq, Repr

/-! ### Application-cluster cores and the world extension (14) -/

/-- One core: the state the world extension names (R537 to R543). -/
structure Core where
  /-- wstatus.WORLD: secure. -/
  secure : Bool
  /-- Privilege: 0 U, 1 S, 3 M. -/
  priv : Nat
  /-- Virtualization mode of the hypervisor extension (R7). -/
  virt : Bool
  pc : W64
  x : KMap W64
  f : KMap W64
  v : KMap (BitVec 256)
  fcsr : W64
  vcsr : List W64
  wtvec : W64
  wsave : W64
  wepc : W64
  wcause : W64
  wtval : W64
  mtvec : W64
  mepc : W64
  mcause : W64
  mtval : W64
  /-- Normal and secure interrupts that wait. -/
  pendNormal : List Nat
  pendSecure : List Nat
  /-- The privilege that the last WGATE recorded, and the virtualization mode with it (R541). -/
  gatePriv : Nat
  gateVirt : Bool
  deriving DecidableEq, Repr

/-! ### Keeper, line judge, lockstep pairs (11) -/

/-- A loop entry of the Keeper table (R419). -/
structure LoopCfg where
  src : Nat
  dst : Nat
  flags : Nat
  period : Nat
  kp : W32
  ki : W32
  spDefault : W32
  spMin : W32
  spMax : W32
  outMin : W32
  outMax : W32
  ramp : W32
  inScale : W32
  inOffset : W32
  deriving DecidableEq, Repr

/-- A CAN input entry (R420). -/
structure InputCfg where
  channel : Nat
  signed : Bool
  startBit : Nat
  id : Nat
  bits : Nat
  timeoutMs : Nat
  deriving DecidableEq, Repr

/-- A signal entry of a frame (R421). -/
structure SigCfg where
  slot : Nat
  startBit : Nat
  bits : Nat
  signed : Bool
  res : W32
  deriving DecidableEq, Repr

/-- A frame entry (R421). -/
structure FrameCfg where
  channel : Nat
  flags : Nat
  format : Nat
  length : Nat
  id : Nat
  periodUs : Nat
  safe : List Byte
  sigs : List SigCfg
  deriving DecidableEq, Repr

/-- The Keeper table in use (R416); the ROM default table is the empty one (R65). -/
structure KTable where
  sequence : Nat
  /-- CAN channels: NOM_KBPS, DATA_KBPS, CFLAGS. -/
  can : List (Nat × Nat × Nat)
  /-- PWM outputs: FREQ_HZ, PFLAGS. -/
  pwm : List (Nat × Nat)
  safe : List W32
  /-- Enabled loops, inputs and frames by number. -/
  loops : KMap LoopCfg
  inputs : KMap InputCfg
  frames : KMap FrameCfg
  deriving DecidableEq, Repr

/-- The state of a loop: its integral and its last output (R424). -/
structure LoopSt where
  i : W32
  u : W32
  deriving DecidableEq, Repr

/-- The Keeper beside its registers. -/
structure Keeper where
  table : KTable
  loops : KMap LoopSt
  /-- CAN inputs that are fresh, with the raw value last received (R420, R425). -/
  inputs : KMap Int
  /-- Slots whose full-function value is written, with the value (R408, R430). -/
  full : KMap W32
  /-- The alive counters of frames with E2E (R426). -/
  alive : KMap Nat
  /-- The duty each PWM output is driven at. -/
  pwm : KMap W32
  /-- Codes of the triggers that belong to the current Over (R405). -/
  codes : List Nat
  /-- Codes logged in the current Over (R406). -/
  logged : List Nat
  /-- Overs of the yellow cards in the window (R414). -/
  yellows : List Nat
  /-- KPR_RELEASE has been written since the last takeover (R411). -/
  released : Bool
  /-- A takeover has happened, so STICKY bears on the next return. -/
  taken : Bool
  /-- Entries published since the last edge: COMMIT_OVER and the entries, in order (R430). -/
  entries : List (Nat × List (Nat × W32))
  /-- Whether each of the last Overs was clean. -/
  clean : KMap Bool
  /-- ns on the island's clock at the hub die's power good (R412, R550). -/
  base : Nat
  /-- The island's instants of the end of S0 and of S1 (R424, R426, R444). -/
  startAt : Nat
  warmAt : Nat
  /-- Steps of each loop and transmission instants of each frame that have passed (R424, R426). -/
  stepped : KMap Nat
  framed : KMap Nat
  /-- The island's instant of the last matching frame of each CAN input (R425). -/
  seen : KMap Nat
  deriving DecidableEq, Repr

/-- The line judge beside its registers. -/
structure Judge where
  /-- Comparisons made in the current Over, and whether one disagreed. -/
  compared : Nat
  disagreed : Bool
  /-- The shadow region in force (R448). -/
  shadowBase : Nat
  shadowBytes : Nat
  /-- An applied change waits for the running safety command. -/
  shadowPending : Bool
  /-- The safety partition has been reset, and both its copies have not run again (R347). -/
  restarts : Bool
  deriving DecidableEq, Repr

/-- One lockstep pair of the island (R436, R437, R440). -/
structure Pair where
  xMain : KMap W64
  xChecker : KMap W64
  /-- Instructions retired by the main core and the checker. -/
  retiredMain : Nat
  retiredChecker : Nat
  /-- Accesses of the main core that wait in the compare buffer: address and bytes. -/
  buffer : List (Nat × List Byte)
  /-- The island's instant at which the pair went into reset (R438). -/
  resetAt : Nat
  deriving DecidableEq, Repr

/-! ### Graphics, displays, cameras and codecs (12) -/

/-- A surface: its first pixel, size, FMT of the TARGET record and row pitch (R457). -/
structure Surface where
  addr : Nat
  width : Nat
  height : Nat
  fmt : Nat
  pitch : Nat
  deriving DecidableEq, Repr

/-- A display pipe's surfaces (R473 to R475). -/
structure Pipe where
  pending : Option Surface
  scanned : Option Surface
  deriving DecidableEq, Repr

/-- A frame that a camera input is receiving (R483 to R486). -/
structure CamFrame where
  number : Nat
  sofNs : Nat
  sofOver : Nat
  /-- The outputs that take it. -/
  outs : List Nat
  /-- The parameter block it is treated with, read at its start; none where the read was refused (R483). -/
  params : Option (List Byte)
  deriving DecidableEq, Repr

/-- A camera input beside its registers. -/
structure Camera where
  /-- Frame starts since the input was enabled. -/
  frames : Nat
  /-- The instant of the last frame start that was not dropped for its rate (R482). -/
  lastStart : Option Nat
  cur : Option CamFrame
  deriving DecidableEq, Repr

/-- A codec job that runs (R488, R489). -/
structure CodecJob where
  x : Nat
  desc : List Byte
  startNs : Nat
  deriving DecidableEq, Repr

/-- A codec session beside its registers. -/
structure Session where
  /-- The producer index last accepted (R100). -/
  prod : Nat
  job : Option CodecJob
  deriving DecidableEq, Repr

/-- The media blocks beside their registers. -/
structure Media where
  /-- Contexts whose GRAPHICS banks hold the remains of a DRAW_LIST that ended without commit (R468). -/
  dirty : List Nat
  pipes : KMap Pipe
  cameras : KMap Camera
  sessions : KMap Session
  /-- The session each codec served last: decoder and encoder (R487). -/
  lastDec : Nat
  lastEnc : Nat
  /-- Values still in force of registers whose object has work in flight (R490). -/
  inForce : KMap W64
  deriving DecidableEq, Repr

/-! ### Umpires and the island bridge (10) -/

/-- A request at a pseudo-channel: class, whether its master is a real-time one (R382), bursts still to make, cycles waited. -/
structure UmpReq where
  cls : Nat
  realTime : Bool
  bursts : Nat
  waited : Nat
  deriving DecidableEq, Repr

/-- The grant in force: the request, the step of R385 that made it, and the bursts made under it. -/
structure UmpGrant where
  req : UmpReq
  step : Nat
  made : Nat
  deriving DecidableEq, Repr

/-- One umpire (R384 to R388). -/
structure Umpire where
  /-- UMP_CTRL, UMP_CLASS_CTRL[0..15] and UMP_WEIGHT[0..15] in force since the window's start (R383). -/
  ctrl : W64
  classes : List W64
  weights : List W64
  credit : KMap Nat
  share : KMap Nat
  /-- Requests in order of arrival. -/
  queue : List UmpReq
  grant : Option UmpGrant
  /-- In this window: useful bursts by class, classes that have had no continuous demand, HP classes masked (R387). -/
  got : KMap Nat
  idle : List Nat
  masked : List Nat
  /-- The window holds a retraining or a recovery from an uncorrectable error (R388). -/
  exempt : Bool
  deriving DecidableEq, Repr

/-- The island bridge beside its registers (R394 to R400): posted writes, oldest first: pair of the writer, address and bytes. -/
structure Bridge where
  posted : List (Nat × Nat × List Byte)
  deriving DecidableEq, Repr

/-! ### The gateway (13) -/

/-- A live flow context (R502) with its dynamic state. -/
structure Flow where
  /-- The 64 bytes loaded. -/
  raw : List Byte
  /-- The check-value sequence: next to send, or next expected. -/
  seq : Nat
  /-- The committed and excess buckets in 1/8,000,000 of a byte, and when they were last filled (R505). -/
  cBucket : Nat
  eBucket : Nat
  filledAt : Nat
  /-- The next R-TAG number (R506). -/
  genSeq : Nat
  /-- Vector recovery: highest number, history bits, and whether any number is taken (R506). -/
  recSeq : Nat
  recHist : Nat
  takeAny : Bool
  /-- The instant at which a frame of the flow arrived last, or of its load (R506). -/
  lastAt : Nat
  /-- PASSED, FILTERED, CV_FAIL, DUPLICATES (R507), and whether they changed since they were written. -/
  counts : List Nat
  changed : Bool
  deriving DecidableEq, Repr

/-- A gate control list in use: 2^cycle Overs, and its entries' gates and intervals (R509). -/
structure GList where
  cycle : Nat
  entries : List (Nat × Nat)
  deriving DecidableEq, Repr

/-- One list of the pool (R509, R510). -/
structure GclSt where
  /-- The loaded entries, by number. -/
  raw : KMap (List Byte)
  /-- The list that runs, its current entry, from 1, and the instant at which entry 1 began. -/
  cur : Option GList
  entry : Nat
  startAt : Nat
  deriving DecidableEq, Repr

/-- A live PDU (R517) with its dynamic state. -/
structure Pdu where
  raw : List Byte
  /-- The buffer of a TX PDU (R518, R519). -/
  buf : List Byte
  /-- A due instance is queued on a bus (R520). -/
  queued : Bool
  /-- The counter of the last accepted instance. -/
  lastCtr : Option Nat
  /-- The instant of the last accepted instance, or of the load. -/
  lastAt : Nat
  /-- It has timed out since then (R519). -/
  timedOut : Bool
  /-- The alive counter to send. -/
  alive : Nat
  /-- The number of the period instant at which it was due last, or of its load (R520). -/
  dueAt : Int
  deriving DecidableEq, Repr

/-- A live MACsec SA (R511, R512). -/
structure Sa where
  raw : List Byte
  /-- The next packet number. -/
  pn : Nat
  /-- The order in which it was loaded. -/
  order : Nat
  deriving DecidableEq, Repr

/-- A frame in an egress queue: its bytes, flow, timestamp tag, and the PDU whose buffer it carries when it is sent. -/
structure QFrame where
  bytes : List Byte
  flow : Nat
  ts : Option Nat
  pdu : Option Nat
  deriving DecidableEq, Repr

/-- The gateway beside its registers. -/
structure Gateway where
  flows : KMap Flow
  lists : KMap GclSt
  pdus : KMap Pdu
  routes : KMap (List Byte)
  sas : KMap Sa
  /-- SAs loaded so far. -/
  loads : Nat
  /-- Loads that run or wait for S4, oldest first: table, first entry, count (R501). -/
  load : List (Nat × Nat × Nat)
  /-- Egress queues by port × 8 + class, head first (R499). -/
  queues : KMap (List QFrame)
  /-- Transmit-timestamp queues by port, head first: words of GW_PORT_TXTS_HEAD (R524). -/
  txts : KMap (List Nat)
  /-- Capture queues: words of CAP_HEAD (R525). -/
  caps : KMap (List Nat)
  /-- Instants at which pulse outputs fire next, in ns of hardware time (R526). -/
  pulses : KMap Int
  /-- Outputs in BALL mode that have fired in the running Over (R526). -/
  fired : List Nat
  /-- NTSCF sequence numbers by PDU or channel number (R514). -/
  ntscf : KMap Nat
  /-- The RX PDU whose response each LIN channel awaits (R515). -/
  linWait : KMap Nat
  /-- The number of the slot that each LIN channel began last (R515). -/
  linSlots : KMap Int
  deriving DecidableEq, Repr

/-! ### The hub's other blocks (14, 15) -/

/-- A hub DMA copy that runs (R548): source, destination, length, and whether its end raises an interrupt. -/
structure DmaJob where
  src : Nat
  dst : Nat
  len : Nat
  irq : Bool
  deriving DecidableEq, Repr

/-- A mailbox request that Voxsar has not answered (R555, R556). -/
structure MboxReq where
  /-- The message: header and payload. -/
  msg : List Byte
  /-- The instant of its submission. -/
  since : Nat
  /-- It has ended in TIMEOUT: an answer to it is discarded. -/
  timedOut : Bool
  /-- STATUS and payload of the answer that Voxsar has made and not yet put into the queue. -/
  answer : Option (Nat × List Byte)
  deriving DecidableEq, Repr

/-- One mailbox channel beside its registers (R554). -/
structure Mbox where
  /-- The submit window, 512 bytes; shorter: the rest is zero. -/
  window : List Byte
  /-- The response queue's slots that something was written in. -/
  slots : KMap (List Byte)
  /-- Requests in order of submission. -/
  reqs : List MboxReq
  deriving DecidableEq, Repr

/-- Voxsar, as far as the spec names its state (R552 to R557, R564). -/
structure Voxsar where
  /-- The channels; one not listed holds nothing. -/
  boxes : KMap Mbox
  /-- The firmware identity record (R557); empty before Voxsar writes it. -/
  record : List Byte
  /-- A heartbeat has come in this Ball; Balls in a row without one; one has come since CONSERVATIVE was set (R553). -/
  beat : Bool
  missed : Nat
  beatSince : Bool
  /-- Which of the two copies of the stored operating points is the older one (R564). -/
  oppOlder : Nat
  /-- The instant of the next write of the timer; none before the first handover (R564). -/
  oppAt : Option Nat
  deriving DecidableEq, Repr

/-- The secure watchdog beside its registers (R549). -/
structure Watchdog where
  /-- The instant of the last service, or of the enable. -/
  since : Nat
  /-- The instant of a first service write that waits for the second. -/
  first : Option Nat
  /-- The pre-warning has been raised since. -/
  warned : Bool
  /-- The reset has begun, and the hub die waits for its power good (R550). -/
  expired : Bool
  deriving DecidableEq, Repr

/-- The power controller beside its registers (R565, R566, R589). -/
structure Power where
  /-- The supply limit in W, and the instant of its last fall (R565). -/
  supplyW : Nat
  fellAt : Nat
  /-- The last temperatures of junctions other than the tiles', in 1/16 °C, by sensor from 64 (R566). -/
  junctions : KMap Int
  /-- The margin code that the voltage loops hold (R563). -/
  margin : Nat
  /-- The clocks of the cluster core groups in MHz, by group 0 to 3; one not listed is at its lowest step. -/
  groups : KMap Nat
  /-- Media and display-controller clocks are lowered. -/
  mediaLow : Bool
  /-- Turned off at 130 °C until the next power good. -/
  tripped : Bool
  /-- The start conditions of R589 are met and power good has not come. -/
  starting : Bool
  /-- The wait after an overcurrent turn-off runs. -/
  holdoff : Bool
  /-- Voltage codes that the domains' loops took from the stored operating points, by domain; one not listed started at maximum margin (R84, R564). -/
  volts : List Nat
  /-- Equalisation coefficients that the receivers took from the stored operating points (R84, R564). -/
  eq : List Nat
  /-- Hours of a patrol-scrub pass, 1 to 24, by stack site; one not listed scrubs at the highest rate (R563). -/
  scrub : KMap Nat
  /-- Instants of the corrected errors of the last hour, by stack site (R563). -/
  scrubCe : KMap (List Nat)
  /-- The free values that the domains' measured supplies read, from this number on; none before the loops run (R563, R569). -/
  supplies : Option Nat
  deriving DecidableEq, Repr

/-- The JTAG TAP (R595, R597). -/
structure Tap where
  /-- The instruction selected, by code. -/
  ir : Nat
  /-- The boundary cells' update values, as one number. -/
  cells : Nat
  /-- The instruction that drives the pins, none in operation. -/
  drives : Option Nat
  deriving DecidableEq, Repr

/-! ### The block -/

/-- Everything the block holds beside the bytes of its memories and the queue of waiting commands. -/
structure Dev where
  /-- The variant: HBM3E stacks, 4, 6 or 8 (R3). -/
  hbmStacks : Nat
  /-- The variant: I/O dies, 1 or 2 (R3). -/
  ioDies : Nat
  /-- STEPPING of LS_IDENT (R598). -/
  stepping : Nat
  /-- Every set-up register that does not hold its reset value, by set-up offset. -/
  regs : KMap W64
  /-- The staging copies (R78). -/
  staged : KMap Staged
  /-- Nanoseconds since power good. -/
  now : Nat
  /-- The time unit. -/
  time : TimeUnit
  /-- The staged start. -/
  start : StartSt
  /-- The service port. -/
  sp : ServicePort
  /-- The index from which the clamp reports lie in a ring in memory: CLAMP_PROD when a non-zero base was last applied over the internal ring (R92). -/
  clampFrom : Nat
  /-- Doorbells whose next read, as reported, meets an uncorrectable error (R111). -/
  badDb : List DbTarget
  /-- The same for the reads of later Balls of the running Over, each with its Ball (R111). -/
  badLater : List (Nat × DbTarget)
  /-- A read has met an uncorrectable error in a bank of the safety partition: the partition is reset once the command that met it has ended (R241, R345). -/
  safetyReset : Bool
  /-- Commands in flight, by a number that grows at each pickup. -/
  cmds : KMap Cmd
  /-- The next command number. -/
  nextCmd : Nat
  /-- The 256 instances; one not listed is `Inst.empty`. -/
  insts : KMap Inst
  /-- Registered plans, in registration order. -/
  plans : List Plan
  /-- The 8 partitions; one not listed holds no streams. -/
  parts : KMap Part
  /-- The 64 tiles; one not listed is `Tile.empty`. -/
  tiles : KMap Tile
  /-- Scratchpad banks by tile × 32 + bank; one not listed is free with nothing waiting. -/
  banks : KMap Bank
  /-- The model's own counter of free values taken. -/
  fresh : Nat
  /-- The answer to the last access. -/
  resp : Resp
  /-- Everything sent or driven, newest first. -/
  out : List Emit
  /-- The 16 cluster cores; one not listed is `Core.empty` of its number. -/
  cores : KMap Core
  /-- The Keeper. -/
  keeper : Keeper
  /-- The line judge. -/
  judge : Judge
  /-- The island's lockstep pairs, 0 and 1; one not listed has run nothing. -/
  pairs : KMap Pair
  /-- The key-value page manager. -/
  kv : Kv
  /-- The scheduler. -/
  sched : SchedSt
  /-- Graphics contexts, display pipes, cameras and codecs. -/
  media : Media
  /-- Addresses of run-ahead reads whose data will never be used and that are not counted yet (R379). -/
  discards : List Nat
  /-- The umpires by site × 32 + pseudo-channel; one not listed has served nothing. -/
  umps : KMap Umpire
  /-- The island bridge. -/
  bridge : Bridge
  /-- The gateway. -/
  gw : Gateway
  /-- The hub DMA copies that run, by channel. -/
  dma : KMap DmaJob
  /-- Voxsar and its mailboxes. -/
  vox : Voxsar
  /-- The secure watchdog. -/
  wdg : Watchdog
  /-- The power controller. -/
  power : Power
  /-- The JTAG TAP. -/
  tap : Tap
  /-- The list of R575 for each peer module: indices of ports (R581), a full port twice. -/
  peers : KMap (List Nat)
  /-- HBM stacks of each peer module, as it was found when a link to it trained (R44). -/
  peerStacks : KMap Nat
  /-- Retransmissions in a row that have failed, by index of a port (R576). -/
  linkFails : KMap Nat
  deriving DecidableEq, Repr

/-- The machine. -/
structure State where
  /-- Everything but the bytes and the queue. -/
  dev : Dev
  /-- Main memory, scratchpad, hub SRAM and the island windows, by physical address; an unlisted byte reads 0. -/
  mem : List Host.Cell
  /-- The on-module flash (R61); an unlisted byte reads 0xFF. -/
  flash : List Host.Cell
  /-- The commands that wait, first in, first out. -/
  pending : List Instr
  deriving DecidableEq, Repr

/-- Why the machine stops. -/
inductive Fault where
  /-- Raised by the submit of a mailbox message whose MAJOR differs from FW_MAJOR: the spec calls the module's behaviour undefined (R557). Safe. -/
  | mboxMajorUndefined
  deriving DecidableEq, Repr

/-- Why a command is refused. -/
inductive Refusal where
  /-- Raised by an arm of `exec` whose command has no meaning yet. Safe. -/
  | notModelled (mnemonic : String)
  deriving DecidableEq, Repr

/-- The block after reset: every register at its reset value, nothing in flight. -/
def Dev.reset : Dev where
  hbmStacks := 8
  ioDies := 2
  stepping := 0x10
  regs := []
  staged := []
  now := 0
  time := { sub := 0, rate := 0, slew := 0, stepAtEdge := none, run := 0, geom := { steps := 20, balls := 16, phase := 0 }, geomDue := none, edgeAt := 0, overLen := 1000000 * 1024000000000, refSeen := false, refAt := 0, holdSince := 0, counted := false, setSecLo := 0, setSecHi := 0 }
  start := { powered := false, halted := false, modFault := true, monitor := false, released := false, recordRead := false, flags := 0, minFw := 0, vlan := 4001, port := 47410, server := [], phyMaster := false, fetch := { active := false, failed := false, waitMs := 100, since := 0, peer := [], offer := none, nextBlock := 0, outstanding := [], received := [], retries := [], asked := [], reason := 0 }, voxsar := false, hbmUp := false, loader := false, ready := false, tableKept := none }
  sp := { state := 0, command := [], response := [], erasing := none, setpoints := [] }
  clampFrom := 0
  badDb := []
  badLater := []
  safetyReset := false
  cmds := []
  nextCmd := 1
  insts := []
  plans := []
  parts := []
  tiles := []
  banks := []
  fresh := 0
  resp := .none
  out := []
  cores := []
  keeper := { table := { sequence := 0, can := [], pwm := [], safe := [], loops := [], inputs := [], frames := [] }, loops := [], inputs := [], full := [], alive := [], pwm := [], codes := [], logged := [], yellows := [], released := false, taken := false, entries := [], clean := [], base := 0, startAt := 0, warmAt := 0, stepped := [], framed := [], seen := [] }
  judge := { compared := 0, disagreed := false, shadowBase := 0, shadowBytes := 0, shadowPending := false, restarts := false }
  pairs := []
  kv := { recs := [], pages := [], dirs := [], rsvOld := [] }
  sched := { ctrl := 0x140F, pctrl := [], pwin := [], due := [], classMin := [], clock := 0 }
  media := { dirty := [], pipes := [], cameras := [], sessions := [], lastDec := 15, lastEnc := 15, inForce := [] }
  discards := []
  umps := []
  bridge := { posted := [] }
  gw := { flows := [], lists := [], pdus := [], routes := [], sas := [], loads := 0, load := [], queues := [], txts := [], caps := [], pulses := [], fired := [], ntscf := [], linWait := [], linSlots := [] }
  dma := []
  vox := { boxes := [], record := [], beat := false, missed := 0, beatSince := false, oppOlder := 0, oppAt := none }
  wdg := { since := 0, first := none, warned := false, expired := false }
  power := { supplyW := 300, fellAt := 0, junctions := [], margin := 15, groups := [], mediaLow := false, tripped := false, starting := false, holdoff := false, volts := [], eq := [], scrub := [], scrubCe := [], supplies := none }
  tap := { ir := 1, cells := 0, drives := none }
  peers := []
  peerStacks := []
  linkFails := []

/-- The machine after reset. -/
def State.reset : State := { dev := Dev.reset, mem := [], flash := [], pending := [] }

end Sys2Proof.Machine
end

