-- ==== Sys2Proof/Machine/Ops.lean ====
section
/-! DEFINITION. Machine/Ops.lean: the named operations over registers, memory, flash and hardware time. -/

namespace Sys2Proof.Machine

/-! ### Set-up registers -/

/-- Whether the part of an offset inside a block instance names the array element of a register, for its dimensions. -/
def dimsHit : List (Nat × Nat) → Nat → Bool
  | [], x => x == 0
  | (n, s) :: t, x => decide (x / s < n) && dimsHit t (x % s)

/-- The register at block-local offset `x`, with the offset of its first byte; a 64-bit register answers to both halves. -/
def findLocal : List RegDesc → Nat → Option (RegDesc × Nat)
  | [], _ => none
  | r :: t, x =>
    if r.off ≤ x && dimsHit r.dims (x - r.off) then some (r, x)
    else if r.wide && decide (r.off + 4 ≤ x) && dimsHit r.dims (x - r.off - 4) then some (r, x - 4)
    else findLocal t x

/-- The register that holds set-up offset `off`, with its own offset. -/
def locate (off : Nat) : Option (RegDesc × Nat) :=
  match blocks.find? (fun b => decide (b.base ≤ off) && decide (off < b.base + b.n * b.stride)) with
  | none => none
  | some b =>
    (findLocal b.regs ((off - b.base) % b.stride)).map
      (fun p => (p.1, off - ((off - b.base) % b.stride) + p.2))

/-- The reset value of the register at `off`. -/
def resetOf (off : Nat) : W64 := BitVec.ofNat 64 ((locate off).elim 0 (fun p => p.1.reset))

/-- The value of the register at `off`. -/
def Dev.r (d : Dev) (off : Nat) : W64 := (KMap.find d.regs off).getD (resetOf off)

/-- `d` with the register at `off` holding `v`. -/
def Dev.w (d : Dev) (off : Nat) (v : W64) : Dev := { d with regs := KMap.put d.regs off v }

/-- Bits `hi` down to `lo` of the register at `off`. -/
def Dev.f (d : Dev) (off hi lo : Nat) : Nat := fld (d.r off) hi lo

/-- Bit `b` of the register at `off`. -/
def Dev.b (d : Dev) (off b : Nat) : Bool := bitOf (d.r off) b

/-- The register at `off`, as a number. -/
def Dev.n (d : Dev) (off : Nat) : Nat := (d.r off).toNat

/-- `d` with bits `hi` down to `lo` of the register at `off` set to `x`. -/
def Dev.setF (d : Dev) (off hi lo x : Nat) : Dev := d.w off (setFld (d.r off) hi lo x)

/-- `d` with bit `b` of the register at `off` set to `x`. -/
def Dev.setB (d : Dev) (off b : Nat) (x : Bool) : Dev := d.w off (setBit (d.r off) b x)

/-- `d` with the register at `off` holding a number. -/
def Dev.wn (d : Dev) (off n : Nat) : Dev := d.w off (BitVec.ofNat 64 n)

/-- A 32-bit count that saturates, one more. -/
def Dev.incSat (d : Dev) (off : Nat) : Dev := d.wn off (satInc 32 (d.n off))

/-- A 32-bit count that saturates, `k` more. -/
def Dev.addSat (d : Dev) (off k : Nat) : Dev := d.wn off (satAdd 32 (d.n off) k)

/-- A 32-bit count that wraps, one more. -/
def Dev.incWrap (d : Dev) (off : Nat) : Dev := d.wn off ((d.n off + 1) % 2 ^ 32)

/-- A 64-bit count that wraps, `k` more. -/
def Dev.add64 (d : Dev) (off k : Nat) : Dev := d.w off (d.r off + BitVec.ofNat 64 k)

/-- A 52-bit address held in a LO and a HI register. -/
def Dev.addr (d : Dev) (lo hi : Nat) : Nat := d.n lo % 2 ^ 32 + d.n hi % 2 ^ 20 * 2 ^ 32

/-- `d` with a 52-bit address recorded in a LO and a HI register. -/
def Dev.setAddr (d : Dev) (lo hi a : Nat) : Dev := (d.wn lo (a % 2 ^ 32)).wn hi (a / 2 ^ 32 % 2 ^ 20)

/-- `f` applied at each index below `n`. -/
def Dev.forEach (d : Dev) (n : Nat) (f : Nat → Dev → Dev) : Dev := (List.range n).foldl (fun e i => f i e) d

/-- `f` applied at each element of a list. -/
def Dev.forAll {α : Type} (d : Dev) (l : List α) (f : α → Dev → Dev) : Dev := l.foldl (fun e a => f a e) d

/-- `f` where `c` holds. -/
def Dev.when (d : Dev) (c : Bool) (f : Dev → Dev) : Dev := if c then f d else d

/-- A free value of 32 bits is taken. -/
def Dev.takeFree (d : Dev) : W32 × Dev := (Config.freeWord d.fresh, { d with fresh := d.fresh + 1 })

/-- A free word below 2^32, as a number, and the block after it. -/
def Dev.freeNat (d : Dev) : Nat × Dev := (d.takeFree.1.toNat, d.takeFree.2)

/-- `d` with one thing more emitted. -/
def Dev.emit (d : Dev) (e : Emit) : Dev := { d with out := e :: d.out }

/-- `d` with the answer to the access in hand. -/
def Dev.answer (d : Dev) (x : Resp) : Dev := { d with resp := x }

/-- The value in force of a register of a graphics context, camera input or codec session (R490). -/
def Dev.eff (d : Dev) (off : Nat) : W64 := (KMap.find d.media.inForce off).getD (d.r off)

/-- Bits `hi` down to `lo` of a register's value in force. -/
def Dev.effF (d : Dev) (off hi lo : Nat) : Nat := fld (d.eff off) hi lo

/-- Bit `b` of a register's value in force. -/
def Dev.effB (d : Dev) (off b : Nat) : Bool := bitOf (d.eff off) b

/-- A 52-bit address in force, held in a LO and a HI register. -/
def Dev.effAddr (d : Dev) (lo hi : Nat) : Nat := (d.eff lo).toNat % 2 ^ 32 + (d.eff hi).toNat % 2 ^ 20 * 2 ^ 32

/-- `d` with the media blocks changed. -/
def Dev.onMedia (d : Dev) (g : Media → Media) : Dev := { d with media := g d.media }

/-- The registers from `lo` below `hi` take their applied values: the work of their object has completed (R490). -/
def Dev.takeApplied (d : Dev) (lo hi : Nat) : Dev :=
  d.onMedia (fun m => { m with inForce := m.inForce.filter (fun p => decide (p.1 < lo ∨ hi ≤ p.1)) })

/-! ### The part (R3, R598) -/

/-- LS_IDENT (R598). -/
def Dev.lsIdent (d : Dev) : Nat := 0x6400 + d.hbmStacks * 2 ^ 16 + d.ioDies * 2 ^ 20 + d.stepping % 2 ^ 4 * 2 ^ 24 + d.stepping / 2 ^ 4 * 2 ^ 28

/-- Bytes of local HBM (R3, R44). -/
def Dev.hbmBytes (d : Dev) : Nat := d.hbmStacks * (36 * 2 ^ 30)

/-! ### Hardware time and the Over (01, 13) -/

/-- Units of hardware time to the nanosecond (R533). -/
def subPerNs : Int := 1024000000000

/-- Hardware time in ns. -/
def Dev.hwNs (d : Dev) : Int := d.time.sub / subPerNs

/-- The nanoseconds field (R521). -/
def Dev.nsField (d : Dev) : Nat := (d.hwNs % 1000000000).toNat

/-- The nanoseconds field as a timestamp at a port shows it, `skew` ns off, at most 8 either way (R523). -/
def Dev.stamp (d : Dev) (skew : Int) : Nat := ((d.hwNs + max (-8) (min 8 skew)) % 1000000000).toNat

/-- The 48-bit seconds field. -/
def Dev.secField (d : Dev) : Nat := (d.hwNs / 1000000000 % 281474976710656).toNat

/-- OVER_COUNT (R26). -/
def Dev.over (d : Dev) : Nat := d.n Off.OVER_COUNT

/-- The Over length L in ns under the geometry in force (R16). -/
def Dev.overNs (d : Dev) : Nat := d.time.geom.steps * 50000

/-- B, the Balls of an Over. -/
def Dev.balls (d : Dev) : Nat := d.time.geom.balls

/-- The start of Ball `k`, in ns from the Over edge (R17). -/
def Dev.ballStart (d : Dev) (k : Nat) : Nat := k * d.overNs / d.balls

/-- A power domain is ON: its blocks run (R559, R560). -/
def Dev.domOn (d : Dev) (k : Nat) : Bool := d.f (Off.PWR_DOM_STATE k) 2 0 == 1

/-- The stage, 0 to 5 (R57). -/
def Dev.stage (d : Dev) : Nat := d.f Off.START_STAGE 2 0

/-- The current Over is a dead Over (R41). -/
def Dev.deadOver (d : Dev) : Bool := d.b Off.OVER_STATUS 3

/-- SRC_STATE: 0 ACQUIRING, 1 LOCKED, 2 HOLDOVER, 3 FREE_RUN (R41). -/
def Dev.srcState (d : Dev) : Nat := d.f Off.OVER_STATUS 1 0

/-- `d` in a source state, FREE_RUNNING following it (R22); the instant at which HOLDOVER begins is kept (R23). -/
def Dev.setSrc (d : Dev) (x : Nat) : Dev :=
  let e := (d.setF Off.OVER_STATUS 1 0 x).setB Off.OVER_STATUS 2 (x == 0 || x == 3)
  if x = 2 then { e with time := { e.time with holdSince := e.now } } else e

/-! ### Bytes of memory -/

/-- The byte at `a`, `dflt` where unlisted. -/
def cellGet (m : List Host.Cell) (dflt : Byte) (a : Nat) : Byte := (KMap.find m a).getD dflt

/-- `m` with byte `b` at `a`; an entry equal to what an unlisted address reads as is not kept. -/
def cellPut (m : List Host.Cell) (dflt : Byte) (a : Nat) (b : Byte) : List Host.Cell :=
  if b = dflt then KMap.del m a else KMap.put m a b

/-- `m` with the bytes `bs` from `a` on. -/
def cellsPut (m : List Host.Cell) (dflt : Byte) (a : Nat) : List Byte → List Host.Cell
  | [] => m
  | b :: t => cellsPut (cellPut m dflt a b) dflt (a + 1) t

/-- `m` with the `n` bytes from `a` reading as unlisted. -/
def cellsClear (m : List Host.Cell) (a n : Nat) : List Host.Cell := m.filter (fun c => decide (c.1 < a ∨ a + n ≤ c.1))

/-- The keys of a cell list rise strictly. -/
def cellsSorted : List Host.Cell → Bool
  | [] => true
  | [_] => true
  | c :: e :: t => decide (c.1 < e.1) && cellsSorted (e :: t)

/-- The canonical form of a memory: addresses strictly rising, no entry equal to what an unlisted address reads as. -/
def Memory.wf (dflt : Byte) (m : List Host.Cell) : Bool := cellsSorted m && m.all (fun c => decide (c.2 ≠ dflt))

/-- What main memory holds where nothing was written. DESIGN CHOICE (log 1). -/
def memDefault : Byte := 0

/-- An erased byte of flash (R91). -/
def flashDefault : Byte := 0xFF

/-- The local HBM address of an address in the module's own window (R45), other addresses as they are. -/
def Dev.localAddr (d : Dev) (a : Nat) : Nat :=
  if 0x100000000000 + d.f Off.GLB_MODULE 1 0 * 0x10000000000 ≤ a ∧
      a < 0x100000000000 + (d.f Off.GLB_MODULE 1 0 + 1) * 0x10000000000 then
    a - (0x100000000000 + d.f Off.GLB_MODULE 1 0 * 0x10000000000) + 0x10000000000
  else a

/-- The byte of main memory at a physical address; hub ROM is fixed. -/
def State.byte (s : State) (a : Nat) : Byte :=
  if s.dev.localAddr a < 0x40000 then Config.romByte a else cellGet s.mem memDefault (s.dev.localAddr a)

/-- `n` bytes of main memory from `a`. -/
def State.bytes (s : State) (a n : Nat) : List Byte := (List.range n).map (fun i => s.byte (a + i))

/-- The little-endian number in `n` bytes of main memory from `a`. -/
def State.le (s : State) (a n : Nat) : Nat := leNat (s.bytes a n)

/-- `s` with `bs` written in main memory from `a`; hub ROM keeps its contents. -/
def State.put (s : State) (a : Nat) (bs : List Byte) : State :=
  if s.dev.localAddr a < 0x40000 then s
  else { s with mem := cellsPut s.mem memDefault (s.dev.localAddr a) bs }

/-- `n` bytes that the spec leaves open, the free values from number `k` on. -/
def freeBytes (k n : Nat) : List Byte := (List.range n).map (fun i => Config.freeByte (k + i))

/-- `n` bytes of main memory from `a` take contents the spec leaves open. -/
def State.fillFree (s : State) (a n : Nat) : State := { (s.put a (freeBytes s.dev.fresh n)) with dev := { s.dev with fresh := s.dev.fresh + n } }

/-- `s` with `n` bytes from `a` zero: a scrub (R236). -/
def State.zero (s : State) (a n : Nat) : State := { s with mem := cellsClear s.mem a n }

/-- The byte of flash at an offset. -/
def State.flashByte (s : State) (a : Nat) : Byte := cellGet s.flash flashDefault a

/-- `n` bytes of flash. -/
def State.flashBytes (s : State) (a n : Nat) : List Byte := (List.range n).map (fun i => s.flashByte (a + i))

/-- `s` with `bs` programmed into flash: bits turn from 1 to 0 only (R91). -/
def State.flashProgram (s : State) (a : Nat) (bs : List Byte) : State :=
  { s with flash := cellsPut s.flash flashDefault a (List.zipWith (fun o n => o &&& n) (s.flashBytes a bs.length) bs) }

/-- `s` with `n` bytes of flash erased. -/
def State.flashErase (s : State) (a n : Nat) : State := { s with flash := cellsClear s.flash a n }

/-- `s` with the block changed by `f`; memory, flash and the queue stay. -/
def State.onDev (s : State) (f : Dev → Dev) : State := { s with dev := f s.dev }

/-- `f` where `c` holds. -/
def State.when (s : State) (c : Bool) (f : State → State) : State := if c then f s else s

/-- `f` applied at each element of a list. -/
def State.forAll {α : Type} (s : State) (l : List α) (f : α → State → State) : State := l.foldl (fun t a => f a t) s

/-! ### The address map (R44, R46) -/

/-- A region of the address map. -/
inductive Region where
  | hubRom
  | hubSram
  | islandSram
  | islandDram
  | setup
  | scratch (t : Nat)
  | hbm
  /-- HBM of another module. -/
  | peer (m : Nat)
  deriving DecidableEq, Repr

/-- The end of the used set-up pages that follow one another from the page of an offset (R48); none in the unused parts, which are the pages of no
block, those of the umpire sites that the variant lacks, and everything from 0x0100_0000 (R46, R50, R364). -/
def Dev.setupEnd (d : Dev) (off : Nat) : Option Nat :=
  if off < 0x20000 then some 0x20000
  else if 0x100000 ≤ off ∧ off < 0x500000 then some 0x500000
  else if 0x600000 ≤ off ∧ off < 0x680000 then
    if d.hbmStacks = 8 then some 0x680000
    else
      let e := (off - 0x600000) / 0x40000 * 0x40000 + 0x600000 + d.hbmStacks / 2 * 0x10000
      if off < e then some e else none
  else if 0x700000 ≤ off ∧ off < 0x1000000 then some 0x1000000
  else none

/-- Installed HBM of module `m` in bytes: the module's own, or what a peer's link has reported (R44, R45). -/
def Dev.moduleBytes (d : Dev) (m : Nat) : Nat :=
  if m = d.f Off.GLB_MODULE 1 0 then d.hbmBytes else KMap.getD d.peerStacks m 0 * (36 * 2 ^ 30)

/-- The region that holds an address, with the end of what is mapped from it on (R44 to R46); `none` where an access gets an error response. The
scratchpads adjoin, and an access may run from one into the next (DEDUCED, log 59). -/
def Dev.region (d : Dev) (a : Nat) : Option (Region × Nat) :=
  if a < 0x40000 then some (.hubRom, 0x40000)
  else if 0x1000000 ≤ a ∧ a < 0x2000000 then some (.hubSram, 0x2000000)
  else if 0x80000000 ≤ a ∧ a < 0x80800000 then some (.islandSram, 0x80800000)
  else if 0x90000000 ≤ a ∧ a < 0x98000000 then some (.islandDram, 0x98000000)
  else if 0xF0000000 ≤ a ∧ a < 0x100000000 then (d.setupEnd (a - 0xF0000000)).map (fun e => (.setup, 0xF0000000 + e))
  else if 0x4000000000 ≤ a ∧ a < 0x4010000000 then
    some (.scratch ((a - 0x4000000000) / 0x400000), 0x4010000000)
  else if 0x10000000000 ≤ a ∧ a < 0x10000000000 + d.hbmBytes then some (.hbm, 0x10000000000 + d.hbmBytes)
  else if 0x100000000000 ≤ a ∧ a < 0x140000000000 then
    let m := (a - 0x100000000000) / 0x10000000000
    let base := 0x100000000000 + m * 0x10000000000
    if a - base < d.moduleBytes m then
      if m = d.f Off.GLB_MODULE 1 0 then some (.hbm, base + d.moduleBytes m)
      else if m ≤ d.f Off.GLB_MODULE 3 2 ∧ d.b Off.IVM_STATUS (16 + m) then some (.peer m, base + d.moduleBytes m)
      else none
    else none
  else none

/-- `n` bytes from `a` lie inside one region. -/
def Dev.inRegion (d : Dev) (a n : Nat) : Bool :=
  match d.region a with
  | none => false
  | some (_, e) => decide (a + n ≤ e)

/-- Scratchpad address of bank `b` of tile `t` (R220). -/
def bankAddr (t b : Nat) : Nat := 0x4000000000 + t * 0x400000 + b * 0x20000

end Sys2Proof.Machine
end

