-- ==== Sys2Proof/Machine/Worlds.lean ====
section
/-! DEFINITION. Machine/Worlds.lean: the world of each master (R544), the range table (R372 to R376), refusals and their logs. -/

namespace Sys2Proof.Machine

/-- A core that nothing has written yet, with the reset wsave of its number (R543). -/
def Core.empty (n : Nat) : Core :=
  { secure := false, priv := 3, pc := 0, x := [], f := [], v := [], fcsr := 0, vcsr := [], wtvec := 0,
    wsave := BitVec.ofNat 64 (0x1F00000 + n * 0x800), wepc := 0, wcause := 0, wtval := 0, mtvec := 0, mepc := 0,
    mcause := 0, mtval := 0, pendNormal := [], pendSecure := [], gatePriv := 0, gateVirt := false, virt := false }

/-- Cluster core `n`. -/
def Dev.core (d : Dev) (n : Nat) : Core := KMap.getD d.cores n (Core.empty n)

/-- `d` with cluster core `n` changed by `g`. -/
def Dev.onCore (d : Dev) (n : Nat) (g : Core → Core) : Dev := { d with cores := KMap.put d.cores n (g (d.core n)) }

/-- Streams that declare nothing. -/
def noCode : CodeInfo := { launches := [], convs := [], att := [], moe := [] }

/-- A tile that has run nothing yet. -/
def Tile.empty : Tile :=
  { cmd := none, part := 15, world := false, acc := [], vregs := [], inactive := [], tokens := [], att := [], groups := [], stale := [], flight := [], issued := 0,
    releasedBlocks := 0, seed := 0, draws := 0, withdrawn := false, piece := none, nextPiece := 0, passCycles := 0,
    logicAt := 0, passAt := 0 }

/-- The links of a tile's router that are present: bits north, east, south, west and the bridge port (R14, R189, R371). -/
def routerLinks (t : Nat) : Nat :=
  let r := t % 32 / 8
  let c := t % 8
  (if r = 0 then 0 else 1) + (if c = 7 then 0 else 2) + (if r = 3 then 0 else 4) + (if c = 0 then 0 else 8) +
    (if (t < 32 ∧ c = 7) ∨ (32 ≤ t ∧ c = 0) then 16 else 0)

/-- The tile at the other end of link `k`: 0 north, 1 east, 2 south, 3 west, 4 the bridge port (R189, R371). -/
def routerPeer (t k : Nat) : Nat :=
  match k with
  | 0 => t - 8
  | 1 => t + 1
  | 2 => t + 8
  | 3 => t - 1
  | _ => if t < 32 then t + 25 else t - 25

/-- Tile `t`. -/
def Dev.tile (d : Dev) (t : Nat) : Tile := KMap.getD d.tiles t Tile.empty

/-- `d` with tile `t` changed by `g`. -/
def Dev.onTile (d : Dev) (t : Nat) (g : Tile → Tile) : Dev := { d with tiles := KMap.put d.tiles t (g (d.tile t)) }

/-- The world of an instance's OWNER; `true` is secure (R96, R544). -/
def Dev.ownerWorld (d : Dev) (i : Nat) : Bool :=
  match d.f (Off.QE_INST_CTRL i) 2 1 with
  | 1 => true
  | 2 => d.b Off.WLD_PCIE (2 * d.f (Off.QE_INST_CTRL i) 3 3 + 1)
  | _ => false

/-- The graphics context whose DISPLAY_MASK holds pipe `p`. -/
def Dev.ctxOfPipe (d : Dev) (p : Nat) : Option Nat := (List.range 16).find? (fun c => d.effB (Off.GFX_CTX_CTRL c) (16 + p))

/-- The world that each master carries (R544); `true` is secure. -/
def Dev.world (d : Dev) : Master → Bool
  | .core n => (d.core n).secure
  | .pcie p v => d.b Off.WLD_PCIE (2 * p + cond v 1 0)
  | .dma c => d.b Off.WLD_DMA_SEC c
  | .tile t => (d.tile t).world
  | .qe i => d.ownerWorld i
  | .display p => match d.ctxOfPipe p with | none => true | some c => d.ownerWorld (d.effF (Off.GFX_CTX_CTRL c) 15 8)
  | .camera c => d.effB (Off.CAM_CTRL c) 1
  | .codec s => d.ownerWorld (d.effF (Off.VC_CTRL s) 15 8)
  | .gwRing r => decide (16 ≤ r) || d.b (Off.GW_RX_CTRL r) 20
  | .peer _ w => w
  | _ => true

/-- MASTER of a world log entry (R568). -/
def masterCode : Master → Nat
  | .core n => n % 16
  | .pcie p v => 0x20 + 2 * p + cond v 1 0
  | .dma c => 0x40 + c
  | _ => 0xFF

/-- One entry in the world log (R568): KIND, MASTER, INDEX, ADDR. -/
def Dev.wldLog (d : Dev) (kind : Nat) (m : Master) (index addr : Nat) : Dev :=
  let slot := d.n Off.WLD_LOG_PROD % 32
  ((d.wn (Off.WLD_LOG_A slot) (d.over % 2 ^ 32 + d.nsField * 2 ^ 32)).wn (Off.WLD_LOG_B slot)
    (kind + masterCode m * 2 ^ 8 + index % 2 ^ 16 * 2 ^ 16 + addr % 2 ^ 32 * 2 ^ 32)).incWrap Off.WLD_LOG_PROD

/-- A refusal counted in WLD_CNT_DENIED, with its event and log entry. -/
def Dev.wldDenied (d : Dev) (event kind : Nat) (m : Master) (index addr : Nat) : Dev :=
  ((d.incSat Off.WLD_CNT_DENIED).setB Off.WLD_EVENTS event true).wldLog kind m index addr

/-! ### The range table -/

/-- The attributes of an address (R372, R373). -/
structure Attr where
  cls : Nat
  secure : Bool
  device : Bool
  runahead : Bool
  nodecl : Bool
  watch : Bool
  entry : Option Nat
  deriving DecidableEq, Repr

/-- The first address of range-table entry `e`. -/
def Dev.rtBase (d : Dev) (e : Nat) : Nat := d.addr (Off.RT_BASE_LO e) (Off.RT_BASE_HI e)

/-- The end of range-table entry `e`. -/
def Dev.rtLimit (d : Dev) (e : Nat) : Nat := d.addr (Off.RT_LIMIT_LO e) (Off.RT_LIMIT_HI e)

/-- The enabled entry with the lowest number that covers an address (R372). -/
def Dev.rtEntry (d : Dev) (a : Nat) : Option Nat :=
  (List.range 64).find? (fun e => d.b (Off.RT_ATTR e) 0 && decide (d.rtBase e ≤ a) && decide (a < d.rtLimit e))

/-- The attributes of an address (R372). -/
def Dev.attr (d : Dev) (a : Nat) : Attr :=
  match d.rtEntry a with
  | none => { cls := 0, secure := true, device := true, runahead := false, nodecl := true, watch := false, entry := none }
  | some e =>
    { cls := d.f (Off.RT_ATTR e) 11 8, secure := d.b (Off.RT_ATTR e) 3, device := d.b (Off.RT_ATTR e) 1,
      runahead := d.b (Off.RT_ATTR e) 2, nodecl := d.b (Off.RT_ATTR e) 4, watch := d.b (Off.RT_ATTR e) 5, entry := some e }

/-- The addresses inside `n` bytes from `a` at which attributes can change: the first, and every bound of an enabled entry. -/
def Dev.rtPoints (d : Dev) (a n : Nat) : List Nat :=
  a :: ((List.range 64).filter (fun e => d.b (Off.RT_ATTR e) 0)).flatMap
    (fun e => [d.rtBase e, d.rtLimit e].filter (fun p => decide (a < p) && decide (p < a + n)))

/-- `p` holds of the attributes of every byte of `n` bytes from `a`. -/
def Dev.attrAll (d : Dev) (a n : Nat) (p : Attr → Bool) : Bool := (d.rtPoints a n).all (fun x => p (d.attr x))

/-- A master of world `w` may access an address: a secure range admits only the secure world (R374). -/
def Attr.admits (x : Attr) (w : Bool) : Bool := !x.secure || w

/-- Every byte of the access is of memory type (R375). -/
def Dev.memType (d : Dev) (a n : Nat) : Bool := d.attrAll a n (fun x => !x.device)

/-- Every byte of the access is admitted to world `w` (R374). -/
def Dev.rtAdmits (d : Dev) (a n : Nat) (w : Bool) : Bool := d.attrAll a n (fun x => x.admits w)

/-- A refused access is counted and recorded (R374). -/
def Dev.rtDenied (d : Dev) (a : Nat) : Dev :=
  ((d.incSat Off.RT_DENIED).setAddr Off.RT_DENY_ADDR_LO Off.RT_DENY_ADDR_HI a).setB Off.RT_EVENTS 0 true

/-! ### Scratchpad from the main fabric, and the island windows -/

/-- The owner in force of bank `b` of tile `t` (R228); a bank not listed is as its register reads. -/
def Dev.bankOwner (d : Dev) (t b : Nat) : W64 :=
  match KMap.find d.banks (t * 32 + b) with
  | none => d.r (Off.TILE_BANK_OWNER t b)
  | some x => x.owner

/-- The conditions of R233 on the bank that holds a scratchpad address, but for the range table. -/
def Dev.bankMainOk (d : Dev) (t b : Nat) (w : Bool) : Bool :=
  let o := d.bankOwner t b
  fld o 2 0 == 1 && bitOf o 11 && decide (d.f (Off.TILE_BANK_STATUS t b) 1 0 < 2) &&
    fld o 7 4 == (d.tile t).part && (!bitOf o 8 || w)

/-- The tile and bank of a scratchpad address (R220). -/
def bankOf (a : Nat) : Nat × Nat := ((a - 0x4000000000) / 0x400000, (a - 0x4000000000) / 0x20000 % 32)

/-- The banks touched by `n` bytes from a scratchpad address. -/
def banksOf (a n : Nat) : List (Nat × Nat) :=
  (List.range ((a + n - 1) / 0x20000 - a / 0x20000 + 1)).map (fun i => bankOf (a / 0x20000 * 0x20000 + i * 0x20000))

/-- A refusal counted at the tile (R233). -/
def Dev.bankDenied (d : Dev) (t : Nat) : Dev :=
  (d.incSat (Off.TILE_MAIN_DENIED t)).setB (Off.TILE_BTEST_EVENTS t) 4 true

/-- An entry of the island's access table covers all of `n` bytes from `a` and permits the access (R395, R402). -/
def Dev.ibrAdmits (d : Dev) (a n : Nat) (k : AccessKind) (w : Bool) : Bool :=
  (List.range 16).any (fun e =>
    let v := d.r (Off.IBR_ACC e)
    let base := fld v 31 12 * 4096
    bitOf v 0 && decide (base ≤ a) && decide (a + n ≤ base + fld v 47 32 * 4096) &&
      bitOf v (match w, k with | false, .read => 1 | false, .write => 2 | true, .read => 3 | true, .write => 4))

/-- A main-side access to an island window is refused (R395). -/
def Dev.ibrDenied (d : Dev) : Dev := (d.incSat Off.IBR_CNT_DENIED).setB Off.IBR_EVENTS 4 true

/-- Hub SRAM kept to the management complex (R77). -/
def mgmtSram (a n : Nat) : Bool := decide (a < 0x1F00000) && decide (0x1200000 < a + n)

/-- The master belongs to the management complex. -/
def isMgmt : Master → Bool
  | .mgmt => true
  | .mgmtRom => true
  | _ => false

/-- The master belongs to the safety island. -/
def isIsland : Master → Bool
  | .island _ => true
  | .lineJudge => true
  | _ => false

/-- Core `n` runs: the loader has been released (R85, R551) and the core's domain is ON (R559). -/
def Dev.coreRuns (d : Dev) (n : Nat) : Bool := decide (n < 16) && d.start.loader && d.domOn (24 + n / 4)

/-- The block runs: power good has been given and the island has started; a module whose island cannot start goes no further (R66). -/
def Dev.runs (d : Dev) : Bool := d.start.powered && !d.start.halted

/-- The island runs: power is good, a watchdog reset of the rest included (R412), and it has started (R66). -/
def Dev.islandUp (d : Dev) : Bool := (d.start.powered || d.wdg.expired) && !d.start.halted

/-- The master makes accesses at all: the island from power good (R51, R66), the management ROM and every other block once they have left reset
(R52), Voxsar and the PCIe ports from Voxsar's start (R55, R76), a core once it runs (R85). -/
def Dev.masterRuns (d : Dev) (m : Master) : Bool :=
  match m with
  | .island _ => d.islandUp
  | .lineJudge => d.islandUp
  | .core n => d.runs && d.coreRuns n
  | .mgmt => d.runs && d.start.voxsar
  | .pcie _ _ => d.runs && d.start.voxsar
  | _ => d.runs && d.start.released

/-- How an access to memory ends: allowed, or an error response with what it records. -/
inductive Verdict where
  | ok
  /-- Outside every region of R44, or management memory (R46, R77). -/
  | error
  /-- Refused by the range table (R374). -/
  | range
  /-- Refused by a scratchpad bank of the tile (R233). -/
  | bank (t : Nat)
  /-- Refused by the island's access table (R395). -/
  | island
  deriving DecidableEq, Repr

/-! ### Groups of Ivmund ports (R571 to R576) -/

/-- The groups of R572 for `m` modules with `io` I/O dies: indices of R581; an index of 2 or 8 is a half-port in a three-module N1 system. -/
def ivmGroups (m io : Nat) : List (List Nat) :=
  match m, io with
  | 2, 1 => [[0, 1, 2]]
  | 2, _ => [[0, 1, 2, 3, 4, 5]]
  | 3, 1 => [[0, 2], [1, 8]]
  | 3, _ => [[0, 1, 3], [2, 4, 5]]
  | 4, 1 => [[0], [1], [2]]
  | 4, _ => [[0, 3], [1, 4], [2, 5]]
  | _, _ => []

/-- Modules of the system (R43). -/
def Dev.modules (d : Dev) : Nat := d.f Off.GLB_MODULE 3 2 + 1

/-- This module's number. -/
def Dev.moduleNum (d : Dev) : Nat := d.f Off.GLB_MODULE 1 0

/-- The group of module `a` that leads to module `b` (R572). -/
def groupTo (m a b : Nat) : Nat := (b + 2 * m - a - 1) % m

/-- The ports of the group that leads to module `b`. -/
def Dev.portsTo (d : Dev) (b : Nat) : List Nat := (ivmGroups d.modules d.ioDies).getD (groupTo d.modules d.moduleNum b) []

/-- An index stands for a half-port. -/
def Dev.halfPort (d : Dev) (p : Nat) : Bool := d.modules == 3 && d.ioDies == 1 && p % 6 == 2

/-- The port that carries an access to a peer's local address is trained (R575, R576). -/
def Dev.peerPortUp (d : Dev) (m a : Nat) : Bool :=
  let l := KMap.getD d.peers m []
  match l[a / 4096 % max 1 l.length]? with
  | none => false
  | some p => d.f (Off.IVM_PORT_STATUS p) 1 0 == 2

/-- A port of the group that leads to a module is DOWN (R576). -/
def Dev.groupDown (d : Dev) (m : Nat) : Bool := (d.portsTo m).any (fun p => d.f (Off.IVM_PORT_STATUS p) 1 0 == 0)

/-- The module whose window holds an address, when it is another one (R45). -/
def Dev.peerOf (d : Dev) (a : Nat) : Option Nat :=
  if 0x100000000000 ≤ a ∧ a < 0x140000000000 then
    (if (a - 0x100000000000) / 0x10000000000 = d.moduleNum then none else some ((a - 0x100000000000) / 0x10000000000))
  else none

/-- What admits or refuses an access of `n` bytes at `a` to memory, for a master and its world. Set-up space answers 32-bit and 64-bit register
accesses (`Dev.setupRead`, `State.setupWrite`) and gives any other access an error response (R49, log 48). -/
def Dev.verdict (d : Dev) (m : Master) (w : Bool) (k : AccessKind) (a n : Nat) : Verdict :=
  if !d.inRegion a n then .error
  else if !d.rtAdmits a n w then .range
  else match d.region a with
    | some (.hubSram, _) => if mgmtSram a n && !isMgmt m then .error else .ok
    | some (.scratch _, _) =>
      match (banksOf a n).find? (fun x => !d.bankMainOk x.1 x.2 w) with
      | some x => .bank x.1
      | none => .ok
    | some (.islandSram, _) => if isIsland m || d.ibrAdmits a n k w then .ok else .island
    | some (.islandDram, _) => if isIsland m || d.ibrAdmits a n k w then .ok else .island
    | some (.setup, _) => .error
    | some (.peer p, _) => if (List.range ((a + n - 1) / 4096 - a / 4096 + 1)).all (fun g => d.peerPortUp p (a % 0x10000000000 / 4096 * 4096 + g * 4096)) then .ok else .error
    | _ => .ok

/-- How many of `n` bytes from `a` on a master reaches before its first access is refused. What admits an access is the same for every byte of an
aligned 4 KiB, so the access is looked at in such pieces. -/
def Dev.reach (d : Dev) (m : Master) (w : Bool) (k : AccessKind) (a n : Nat) : Nat :=
  (((List.range ((a + n - 1) / 4096 - a / 4096 + 1)).map (fun i => max a ((a / 4096 + i) * 4096))).find? (fun p =>
    d.verdict m w k p (min (a + n) ((p / 4096 + 1) * 4096) - p) != .ok)).elim n (fun p => p - a)

/-- What a refused access leaves behind; one to a scratchpad counts at its tile, and a main-side one to an island window at the bridge,
whatever refused it (R233, R395). -/
def Dev.refuse (d : Dev) (v : Verdict) (a : Nat) : Dev :=
  match v with
  | .ok => d
  | .error => d
  | .range =>
    let e := d.rtDenied a
    match d.region a with
    | some (.scratch t, _) => e.bankDenied t
    | some (.islandSram, _) => e.ibrDenied
    | some (.islandDram, _) => e.ibrDenied
    | _ => e
  | .bank t => d.bankDenied t
  | .island => d.ibrDenied

/-- The access of a master that stops after `k` bytes of a region is refused at its own address, and recorded (R604). -/
def Dev.refuseAt (d : Dev) (m : Master) (w : Bool) (x : AccessKind) (a k : Nat) : Dev := d.refuse (d.verdict m w x (a + k) 1) (a + k)

/-- A read by a master: the bytes, or none with the refusal recorded. -/
def State.readAs (s : State) (m : Master) (a n : Nat) : Option (List Byte) × State :=
  match s.dev.verdict m (s.dev.world m) .read a n with
  | .ok => (some (s.bytes a n), s)
  | v => (none, s.onDev (fun d => d.refuse v a))

/-- What follows a read: `no` where it was refused, `yes` with its bytes. -/
def afterRead {α : Type} (x : Option (List Byte) × State) (no : State → α) (yes : List Byte → State → α) : α :=
  match x with
  | (none, t) => no t
  | (some b, t) => yes b t

/-- A main-side write to any byte of a line that a bridge semaphore watches clears its VALID (R400). -/
def Dev.clearSems (d : Dev) (a n : Nat) : Dev :=
  d.forEach 16 (fun k e => e.when (e.b Off.IBR_STATUS (16 + k) && e.b (Off.IBR_SEM k) 0 &&
    decide (0 < n ∧ d.localAddr a / 64 ≤ d.localAddr (e.f (Off.IBR_SEM k) 51 6 * 64) / 64 ∧ d.localAddr (e.f (Off.IBR_SEM k) 51 6 * 64) / 64 ≤ (d.localAddr a + n - 1) / 64))
    (fun f => f.setB (Off.IBR_SEM k) 0 false))

/-- A write by a master: whether it was made; a refused one has no effect but its record. -/
def State.writeAs (s : State) (m : Master) (a : Nat) (bs : List Byte) : Bool × State :=
  match s.dev.verdict m (s.dev.world m) .write a bs.length with
  | .ok => (true, (s.put a bs).onDev (fun d => d.when (!isIsland m) (fun e => e.clearSems a bs.length)))
  | v => (false, s.onDev (fun d => d.refuse v a))

/-! ### What a command in flight names -/

/-- A little-endian number in a command's descriptor. -/
def Cmd.at (c : Cmd) (off n : Nat) : Nat := leAt c.desc off n

/-- OPCODE (R112). -/
def Cmd.op (c : Cmd) : Nat := c.at 0 1

/-- RUN_PLAN. -/
def Cmd.isRun (c : Cmd) : Bool := c.op == 0x01

/-- RECORD of a handle (R289). -/
def handleRec (h : Nat) : Nat := h % 2 ^ 16

/-- TAG of a handle. -/
def handleTag (h : Nat) : Nat := h / 2 ^ 16

/-- The handle names a reserved sequence (R289, R303). -/
def isReserved (h : Nat) : Bool := decide (0xFE00 ≤ handleRec h) && handleTag h == 0xFFFF

/-- The number of a reserved sequence: RECORD less 0xFE00. -/
def rsvNum (h : Nat) : Nat := handleRec h % 512

/-- Handles a command names. -/
def Cmd.handles (c : Cmd) : List Nat :=
  if c.isRun then (c.args.filter (fun a => a.kind == 2)).map (fun a => a.addr % 2 ^ 32)
  else if c.op = 0x21 ∨ c.op = 0x22 then [c.at 0x10 4]
  else []

end Sys2Proof.Machine
end

