-- ==== Sys2Proof/Machine/DepRange.lean ====
section
/-! DEFINITION. Machine/DepRange.lean: the legal values of each field at an apply (R79), and the fields the normal world may not touch (R546). -/

namespace Sys2Proof.Machine

/-- What the legality of a field is computed from: the block before the apply (with its staging copies), and the
block with the fields already applied. -/
structure Applying where
  old : Dev
  new : Dev

/-- The value the staging copy would apply to the register at `off` (R78). -/
def Dev.stagedRaw (d : Dev) (off : Nat) : W64 :=
  match KMap.find d.staged off with
  | none => d.r off
  | some s => (d.r off &&& ~~~ s.written) ||| (s.value &&& s.written)

/-- A command in flight names a pool sequence (R311). -/
def Dev.poolNamed (d : Dev) : Bool := d.cmds.any (fun x => x.2.handles.any (fun h => !isReserved h))

/-- Bit `b` of the register at `off` is 1 and stays 1 in the apply (R110); KV_CTRL.ENABLE also where a written 0 is replaced by 1 (R311). -/
def Applying.stays (c : Applying) (off b : Nat) : Bool :=
  c.old.b off b && (bitOf (c.old.stagedRaw off) b || (off == Off.KV_CTRL && c.old.poolNamed))

/-- The nearest of `lo`, `lo + step`, … up to `hi`; of two equally near the lower; `lo` when the range is empty (R79). -/
def nearest (lo hi step x : Nat) : Nat :=
  if hi < lo ∨ x ≤ lo then lo
  else if hi ≤ x then hi - (hi - lo) % step
  else
    let r := (x - lo) % step
    if 2 * r ≤ step then x - r else min (x - r + step) (hi - (hi - lo) % step)

/-- The nearest power of two from `2^a` to `2^b`; the lower of two equally near. -/
def nearestPow2 (a b x : Nat) : Nat :=
  if x ≤ 2 ^ a then 2 ^ a
  else if 2 ^ b ≤ x then 2 ^ b
  else if x - 2 ^ Nat.log2 x ≤ 2 ^ (Nat.log2 x + 1) - x then 2 ^ Nat.log2 x else 2 ^ (Nat.log2 x + 1)

/-- The allowance A = floor(0.4 × W) of an umpire window being applied (R381). -/
def umpAllow (d : Dev) (k : Nat) : Nat := 4 * ((d.f (Off.UMP_CTRL k) 3 0 + 1) * 256) / 10

/-- The burst limit BL of site `k` (R391). -/
def umpBL (d : Dev) (k : Nat) : Nat := d.f (Off.UMP_CTRL k) 13 8 + 1

/-- What class `c` of site `k` costs (R381). -/
def umpCost (d : Dev) (k c : Nat) : Nat :=
  if d.b (Off.UMP_CLASS_CTRL k c) 15 then d.f (Off.UMP_CLASS_CTRL k c) 27 16 * (umpBL d k + 1)
  else d.f (Off.UMP_CLASS_CTRL k c) 11 0

/-- The running total before class `c` (R381). -/
def umpTotal (d : Dev) (k c : Nat) : Nat := ((List.range c).map (umpCost d k)).sum

/-! ### Ranges of the key-value page manager (R290, R303, R311, R313, R314) -/

/-- The end of installed local HBM (R44). -/
def Dev.hbmEnd (d : Dev) : Nat := 0x10000000000 + d.hbmBytes

/-- Pages of 64 KiB from `base` to the end of installed local HBM; 0 where `base` lies outside it. -/
def Dev.pagesFrom (d : Dev) (base : Nat) : Nat := if base < 0x10000000000 then 0 else (d.hbmEnd - base) / 65536

/-- The regions of the pool, the index array and the table region: base and length. -/
def Dev.kvRegions (d : Dev) : List (Nat × Nat) :=
  [(d.addr Off.KV_POOL_BASE_LO Off.KV_POOL_BASE_HI, d.n Off.KV_POOL_PAGES * 65536),
   (d.addr Off.KV_INDEX_BASE_LO Off.KV_INDEX_BASE_HI, d.n Off.KV_POOL_PAGES * 4096),
   (d.addr Off.KV_TABLE_BASE_LO Off.KV_TABLE_BASE_HI, 0x2800000 + d.n Off.KV_DIR_PAGES * 65536)]

/-- Two regions share a byte. -/
def meets (a n b k : Nat) : Bool := decide (0 < n ∧ 0 < k ∧ a < b + k ∧ b < a + n)

/-- Bytes that a reserved sequence's fields take (R303). -/
def rsvBytes (v : W64) : Nat := fld v 20 0 * (fld v 28 21 + 1) * (68 * 1024)

/-- Where reserved sequence `n` would lie in its region: after the enabled ones before it (R314). -/
def Dev.rsvStart (d : Dev) (n : Nat) : Nat :=
  ((List.range (n % 64)).map (fun j => let v := d.r (Off.KV_RSV_SEQ (n / 64 * 64 + j)); if bitOf v 63 then rsvBytes v else 0)).sum

/-- The fields of a reserved sequence keep the constraints of R313. -/
def rsvFieldsOk (v : W64) : Bool :=
  decide (1 ≤ fld v 20 0 ∧ fld v 20 0 * 2 ^ fld v 32 29 ≤ 1048576 ∧ fld v 39 33 ≤ 64 ∧ fld v 39 33 + 1 ≤ fld v 20 0) &&
    (!bitOf v 47 || decide (1 ≤ fld v 46 40 ∧ fld v 46 40 ≤ 64 ∧ fld v 39 33 + fld v 46 40 + 1 ≤ fld v 20 0))

/-! ### Ranges of the media and gateway blocks, the links, the worlds page -/

/-- The smallest even number not below `n`. -/
def evenUp (n : Nat) : Nat := (n + 1) / 2 * 2

/-- Bytes of a camera output's buffer for a FORMAT and a number of pixels (R484). -/
def camBufBytes (format pixels : Nat) : Nat :=
  match format with | 0 => pixels * 3 / 2 | 1 => pixels * 3 | 2 => pixels * 8 | 3 => pixels * 8 | _ => pixels

/-- Pixels per second that an input may bring: WIDTH × HEIGHT × MAX_FPS (R482). -/
def Dev.camRate (d : Dev) (i : Nat) : Nat := d.f (Off.CAM_SIZE i) 15 0 * d.f (Off.CAM_SIZE i) 31 16 * d.f (Off.CAM_CTRL i) 23 16

/-- The largest pixel clock of a pipe (R476). -/
def maxPclk (p : Nat) : Nat := if p % 3 = 0 then 1000000 else 600000

/-- Entries of a gateway table (R500). -/
def gwEntries (t : Nat) : Nat := match t with | 0 => 65536 | 1 => 16384 | 2 => 4096 | 3 => 16384 | _ => 256

/-- The nearest of the four nominal CAN rates, the lower of two (R513). -/
def nearestCan (x : Nat) : Nat := if x ≤ 187 then 125 else if x ≤ 375 then 250 else if x ≤ 750 then 500 else 1000

/-- The nominal payload of a group in GB/s (R572). -/
def Dev.groupPayload (d : Dev) : Nat :=
  (((ivmGroups d.modules d.ioDies).getD 0 []).map (fun p => if d.halfPort p then 100 else 200)).sum

/-- Bits of WLD_SETUP_SEC[k] that are fixed (R545). -/
def fixedSec (k : Nat) : W64 := match k with | 0 => 0x3 | 5 => 0xFFFF0000 | 6 => 0x10000 | 7 => 0xFFFD0000 | _ => 0

/-- The value of a dependent field (R79): `off` is its register, `raw` the value written, `old` the value applied before. -/
def depValue (x : Dep) (c : Applying) (off raw old : Nat) : Nat :=
  match x with
  -- R39, R580
  | .overLen => if c.old.b Off.OVER_STATUS 5 then old else nearest 5 400 1 raw
  | .overBalls => if c.old.b Off.OVER_STATUS 5 then old else nearest 4 64 1 raw
  -- R40
  | .overPhase =>
    if c.old.b Off.OVER_STATUS 5 then old else nearest 0 (c.new.f Off.OVER_CTRL 8 0 * 50000 - 1) 1 raw
  | .slewLimit => nearest 0 (c.new.f Off.OVER_CTRL 8 0 * 25) 1 raw
  -- R362
  | .lastBall => nearest (c.new.f off 5 0) 63 1 raw
  -- R373: `off` is RT_LIMIT_LO, RT_LIMIT_HI or RT_ATTR of the entry
  | .rtLimitLo =>
    let base := c.new.n (off - 8) % 2 ^ 32 + c.new.n (off - 4) % 2 ^ 20 * 2 ^ 32
    let lim := raw * 4096 + (c.old.stagedRaw (off + 4)).toNat % 2 ^ 20 * 2 ^ 32
    if lim < base + 4096 then (min (base + 4096) 0xFFFFFFFFFF000) / 4096 % 2 ^ 20 else raw
  | .rtLimitHi =>
    let base := c.new.n (off - 12) % 2 ^ 32 + c.new.n (off - 8) % 2 ^ 20 * 2 ^ 32
    let lim := (c.old.stagedRaw (off - 4)).toNat / 4096 % 2 ^ 20 * 4096 + raw * 2 ^ 32
    if lim < base + 4096 then (min (base + 4096) 0xFFFFFFFFFF000) / 2 ^ 32 else raw
  | .rtEnable =>
    if c.new.n (off - 16) % 2 ^ 32 + c.new.n (off - 12) % 2 ^ 20 * 2 ^ 32 ≥ 0xFFFFFFFFFF000 then 0 else raw
  -- R56
  | .pow2Ring => nearestPow2 4 16 raw
  -- R183
  | .ceilMhz => nearest (c.new.f off 10 0) 1250 25 raw
  -- R228
  | .bankId => if c.new.f off 2 0 = 1 ∨ c.new.f off 2 0 = 2 then (if raw < 8 then raw else 0) else raw
  -- R381
  | .umpMin =>
    let k := (off - 0x600000) / 0x10000
    let i := (off - 0x600100) % 0x10000 / 4
    if c.new.b off 15 then raw else nearest 0 (umpAllow c.new k - umpTotal c.new k i) 1 raw
  | .umpQuota =>
    let k := (off - 0x600000) / 0x10000
    let i := (off - 0x600100) % 0x10000 / 4
    if c.new.b off 15 then nearest 0 ((umpAllow c.new k - umpTotal c.new k i) / (umpBL c.new k + 1)) 1 raw else raw
  -- R106
  | .pciePort => if c.old.ioDies = 1 then 0 else raw
  -- R101, R110
  | .pickup =>
    if c.stays off 0 then old
    else if c.new.f (off / 0x1000 * 0x1000) 2 1 = 2 then 1 else raw
  | .qeCmdSize => if c.stays off 0 then old else nearest 4 16 1 raw
  | .qeCplSize => if c.stays off 0 then old else nearest 4 16 1 raw
  -- R402
  | .ibrEnable =>
    let base := c.new.f off 31 12 * 4096
    let e := base + c.new.f off 47 32 * 4096
    if raw = 1 ∧ ¬ ((0x80000000 ≤ base ∧ e ≤ 0x80800000) ∨ (0x90000000 ≤ base ∧ e ≤ 0x98000000)) then 0 else raw
  -- R311, R290
  | .kvEnable => if old = 1 ∧ raw = 0 ∧ c.old.poolNamed = true then 1 else raw
  | .kvPoolPages =>
    if c.stays Off.KV_CTRL 0 then old
    else nearest 0 (min 4194304 (c.new.pagesFrom (c.new.addr Off.KV_POOL_BASE_LO Off.KV_POOL_BASE_HI))) 1 raw
  | .kvDirPages =>
    if c.stays Off.KV_CTRL 0 then old
    else nearest 0 (min 262144 (c.new.pagesFrom (c.new.addr Off.KV_TABLE_BASE_LO Off.KV_TABLE_BASE_HI) - 640)) 1 raw
  -- R314
  | .kvRsvPages =>
    if c.new.kvRegions.any (fun x => meets (c.new.addr (off - 8) (off - 4)) (raw * 65536) x.1 x.2) then 0 else raw
  -- R313
  | .rsvMaxRows => nearest 1 (1048576 / 2 ^ c.new.f off 32 29) 1 raw
  | .rsvFirst => nearest 0 (min 64 (c.new.f off 20 0 - 1)) 1 raw
  | .rsvSpare => if c.new.b off 47 then nearest 1 (min 64 (c.new.f off 20 0 - c.new.f off 39 33 - 1)) 1 raw else raw
  | .rsvEnable =>
    let n := (off - Off.KV_RSV_SEQ 0) / 8
    if raw = 1 ∧ (rsvFieldsOk (c.new.r off) = false ∨ c.new.n (Off.KV_RSV_PAGES (n / 64)) * 65536 < c.new.rsvStart n + rsvBytes (c.new.r off)) then 0 else raw
  -- R491, R473
  | .binMib => if c.stays (off - 0x10) 0 then old else nearest 8 4095 1 raw
  | .displayMask =>
    let i := (off - 0x900100) / 0x40
    if c.new.b off 3 then
      ((List.range 6).filter (fun p => nbit raw p && !(List.range i).any (fun k => c.new.b (Off.GFX_CTX_CTRL k) (16 + p)))).foldl (fun m p => m + 2 ^ p) 0
    else 0
  -- R476 to R478, R492
  | .dispEnable =>
    let p := (off - 0x910000) / 0x80
    let sum := ((List.range p).map (fun q => if c.new.b (Off.DISP_CTRL q) 0 then c.new.n (Off.DISP_PCLK_KHZ q) else 0)).sum
    if raw = 1 ∧ ((c.old.ioDies = 1 ∧ 3 ≤ p) ∨ 2000000 < sum + c.new.n (Off.DISP_PCLK_KHZ p)) then 0 else raw
  | .pclk => if c.stays (off - 0x14) 0 then old else nearest 25000 (maxPclk ((off - 0x910000) / 0x80)) 1 raw
  | .linkRate => if c.stays (off - 0x18) 0 then old else if raw ≤ (if (off - 0x910000) / 0x80 % 3 = 0 then 6 else 4) then raw else 0
  | .linkLanes => if c.stays (off - 0x18) 0 then old else if raw ≤ 2 ∧ (off - 0x910000) / 0x80 % 3 = 0 then raw else 0
  -- R482, R484, R493
  | .camEnable =>
    let i := (off - 0x920000) / 0xC0
    let sum := ((List.range i).map (fun j => if c.new.b (Off.CAM_CTRL j) 0 then c.new.camRate j else 0)).sum
    if raw = 1 ∧ 4000000000 < sum + c.new.camRate i then 0 else raw
  | .camOutW =>
    let w := c.new.f (Off.CAM_SIZE ((off - 0x920000) / 0xC0)) 15 0
    nearest (evenUp ((w + 7) / 8)) w 2 raw
  | .camOutH =>
    let h := c.new.f (Off.CAM_SIZE ((off - 0x920000) / 0xC0)) 31 16
    nearest (evenUp ((h + 7) / 8)) h 2 raw
  | .camStride =>
    if c.stays (off - 0x10) 0 then old
    else nearest ((camBufBytes (c.new.f (off - 0x10) 3 1) (c.new.f (off - 0xC) 15 0 * c.new.f (off - 0xC) 31 16) + 63) / 64) (2 ^ 26 - 1) 1 raw
  -- R494
  | .vcSize => if c.stays off 0 then old else nearest 4 10 1 raw
  -- R532 to R536
  | .gwPortEn => if c.old.ioDies = 1 ∧ 6 ≤ (off - 0xA10000) / 0x100 ∧ (off - 0xA10000) / 0x100 ≤ 11 then 0 else raw
  | .loadCount => nearest 0 (min 65536 (gwEntries (c.new.f Off.GW_LOAD_SEL 2 0) - c.new.f Off.GW_LOAD_SEL 31 16)) 1 raw
  | .capEdge => if raw = 0 then 1 else raw
  | .pulseBall => nearest 0 (c.old.balls - 1) 1 raw
  | .pulsePeriod =>
    match c.new.f (off - 0x10) 1 0 with
    | 2 => nearest 100 4000000000 1 raw
    | 3 => nearest 0 (c.old.overNs / c.old.balls - max 8 (c.old.stagedRaw (off + 4)).toNat) 1 raw
    | _ => raw
  | .pulseWidth => if c.new.f (off - 0x14) 1 0 = 2 then nearest 8 (c.new.n (off - 4) - 8) 1 raw else max 8 raw
  | .canNom => if c.stays (off - 4) 0 then old else nearestCan raw
  | .canData =>
    if c.stays (off - 4) 0 then old
    else
      let top := if c.new.b (off - 4) 2 then 20000 else 8000
      if raw ≤ 500 then 0 else nearest 1000 top 1000 raw
  | .linBaud => if c.stays off 0 then old else nearest 1000 20000 1 raw
  | .rxSize => if c.stays off 0 then old else nearest 4 12 1 raw
  -- R577
  | .ivmMin =>
    let i := (off - 0xE00100) / 4
    nearest 0 (c.old.groupPayload * 8 / 10 - ((List.range i).map (fun k => c.new.f (Off.IVM_CLASS_MIN k) 10 0)).sum) 1 raw
  -- R550, R567
  | .wdgLock => raw
  | .wdgTimeout => if c.old.b Off.WDG_CTRL 1 then old else nearest 10 10000 1 raw
  | .wdgWarn => if c.old.b Off.WDG_CTRL 1 then old else nearest 100 (c.new.f Off.WDG_CTRL 29 16 * 500) 1 raw
  -- R545: the fixed bits ignore writes (`segRaw`)
  | .setupSec => raw

/-- Registers from `first`, `stride` apart: those whose number lies from `a` below `b`. -/
def span (f : Nat → Nat) (a b : Nat) : List Nat := (List.range (b - a)).map (fun i => f (a + i))

/-- The offsets of the fields whose range depends on the register at `off` (R79). -/
def dependents (off : Nat) : List Nat :=
  if off = Off.OVER_CTRL then [Off.OVER_PHASE, Off.OVER_SLEW_LIMIT]
  else if 0x1000 ≤ off ∧ off < 0x1800 ∧ off % 0x20 < 8 then
    [off / 0x20 * 0x20 + 8, off / 0x20 * 0x20 + 12, off / 0x20 * 0x20 + 16]
  else if 0x1000 ≤ off ∧ off < 0x1800 ∧ off % 0x20 = 8 then [off + 4]
  else if 0x1000 ≤ off ∧ off < 0x1800 ∧ off % 0x20 = 12 then [off - 4]
  else if 0x700000 ≤ off ∧ off < 0x800000 ∧ off % 0x1000 = 0 then span (Off.QE_CMD_CTRL ((off - 0x700000) / 0x1000)) 0 16
  else if 0x600000 ≤ off ∧ off < 0x680000 then
    -- the burst limit, the window or an earlier class (R381)
    if off % 0x10000 = 4 then (List.range 16).map (fun c => off / 0x10000 * 0x10000 + 0x100 + c * 4)
    else if 0x100 ≤ off % 0x10000 ∧ off % 0x10000 < 0x140 then
      ((List.range 16).filter (fun c => decide (off % 0x10000 < 0x100 + c * 4))).map (fun c => off / 0x10000 * 0x10000 + 0x100 + c * 4)
    else []
  else if off = Off.KV_POOL_BASE_LO ∨ off = Off.KV_POOL_BASE_HI ∨ off = Off.KV_TABLE_BASE_LO ∨ off = Off.KV_TABLE_BASE_HI ∨ off = Off.KV_INDEX_BASE_LO ∨
      off = Off.KV_INDEX_BASE_HI ∨ off = Off.KV_POOL_PAGES ∨ off = Off.KV_DIR_PAGES ∨ off = Off.KV_CTRL then
    Off.KV_POOL_PAGES :: Off.KV_DIR_PAGES :: (span Off.KV_RSV_PAGES 0 8 ++ span Off.KV_RSV_SEQ 0 512)
  else if 0x800100 ≤ off ∧ off < 0x800180 then
    let p := (off - 0x800100) / 0x10
    Off.KV_RSV_PAGES p :: span Off.KV_RSV_SEQ (p * 64) (p * 64 + 64)
  else if 0x801000 ≤ off ∧ off < 0x802000 then
    let n := (off - 0x801000) / 8
    span Off.KV_RSV_SEQ (n + 1) (n / 64 * 64 + 64)
  else if 0x900100 ≤ off ∧ off < 0x900500 ∧ off % 0x40 = 0 then span Off.GFX_CTX_CTRL ((off - 0x900100) / 0x40 + 1) 16
  else if 0x910000 ≤ off ∧ off < 0x910300 then span Off.DISP_CTRL ((off - 0x910000) / 0x80) 6
  else if 0x920000 ≤ off ∧ off < 0x920C00 then
    let i := (off - 0x920000) / 0xC0
    (if (off - 0x920000) % 0xC0 < 8 then [Off.CAM_OUT_SIZE i 0, Off.CAM_BUF_STRIDE i 0, Off.CAM_OUT_SIZE i 1, Off.CAM_BUF_STRIDE i 1]
      else [Off.CAM_BUF_STRIDE i 0, Off.CAM_BUF_STRIDE i 1]) ++ span Off.CAM_CTRL i 16
  else if off = Off.GW_LOAD_SEL then [Off.GW_LOAD_COUNT]
  else if 0xA00200 ≤ off ∧ off < 0xA00300 then
    let o := (off - 0xA00200) / 0x20
    [Off.PULSE_PERIOD_NS o, Off.PULSE_WIDTH_NS o]
  else if 0xA20000 ≤ off ∧ off < 0xA20300 ∧ off % 0x40 = 0 then [off + 4]
  else if 0xE00100 ≤ off ∧ off < 0xE00140 then span Off.IVM_CLASS_MIN ((off - 0xE00100) / 4 + 1) 16
  else if off = Off.WDG_CTRL then [Off.WDG_WARN_US]
  else []

/-- The fields on which the range of a dependent field of the register at `off` depends: register, highest and lowest bit (R79). Fields whose
range hangs on what is no field of a register (a state, the variant) name none. -/
def Dep.on (x : Dep) (off : Nat) : List (Nat × Nat × Nat) :=
  let whole := fun (l : List Nat) => l.map (fun o => (o, 63, 0))
  match x with
  | .overPhase => [(Off.OVER_CTRL, 8, 0)]
  | .slewLimit => [(Off.OVER_CTRL, 8, 0)]
  | .lastBall => [(off, 5, 0)]
  | .rtLimitLo => whole [off - 8, off - 4, off + 4]
  | .rtLimitHi => whole [off - 12, off - 8, off - 4]
  | .rtEnable => whole [off - 16, off - 12]
  | .ceilMhz => [(off, 10, 0)]
  | .bankId => [(off, 2, 0)]
  | .umpMin => (off, 15, 15) :: whole ((off / 0x10000 * 0x10000 + 4) :: span (fun c => off / 0x10000 * 0x10000 + 0x100 + c * 4) 0 ((off - 0x600100) % 0x10000 / 4))
  | .umpQuota => (off, 15, 15) :: whole ((off / 0x10000 * 0x10000 + 4) :: span (fun c => off / 0x10000 * 0x10000 + 0x100 + c * 4) 0 ((off - 0x600100) % 0x10000 / 4))
  | .pickup => [(off / 0x1000 * 0x1000, 2, 1)]
  | .ibrEnable => [(off, 31, 12), (off, 47, 32)]
  | .kvPoolPages => whole [Off.KV_POOL_BASE_LO, Off.KV_POOL_BASE_HI]
  | .kvDirPages => whole [Off.KV_TABLE_BASE_LO, Off.KV_TABLE_BASE_HI]
  | .kvRsvPages =>
    whole [off - 8, off - 4, Off.KV_POOL_BASE_LO, Off.KV_POOL_BASE_HI, Off.KV_INDEX_BASE_LO, Off.KV_INDEX_BASE_HI, Off.KV_TABLE_BASE_LO,
      Off.KV_TABLE_BASE_HI, Off.KV_POOL_PAGES, Off.KV_DIR_PAGES]
  | .rsvMaxRows => [(off, 32, 29)]
  | .rsvFirst => [(off, 20, 0)]
  | .rsvSpare => [(off, 47, 47), (off, 20, 0), (off, 39, 33)]
  | .rsvEnable =>
    let n := (off - Off.KV_RSV_SEQ 0) / 8
    (off, 62, 0) :: (Off.KV_RSV_PAGES (n / 64), 63, 0) :: (span Off.KV_RSV_SEQ (n / 64 * 64) n).flatMap (fun o => [(o, 20, 0), (o, 28, 21), (o, 63, 63)])
  | .displayMask => (off, 3, 3) :: (span Off.GFX_CTX_CTRL 0 ((off - 0x900100) / 0x40)).map (fun o => (o, 21, 16))
  | .dispEnable =>
    let p := (off - 0x910000) / 0x80
    whole (span Off.DISP_PCLK_KHZ 0 (p + 1)) ++ (span Off.DISP_CTRL 0 p).map (fun o => (o, 0, 0))
  | .camEnable =>
    let i := (off - 0x920000) / 0xC0
    whole (span Off.CAM_SIZE 0 (i + 1)) ++ (span Off.CAM_CTRL 0 i).map (fun o => (o, 0, 0)) ++ (span Off.CAM_CTRL 0 (i + 1)).map (fun o => (o, 23, 16))
  | .camOutW => [(Off.CAM_SIZE ((off - 0x920000) / 0xC0), 15, 0)]
  | .camOutH => [(Off.CAM_SIZE ((off - 0x920000) / 0xC0), 31, 16)]
  | .camStride => [(off - 0x10, 3, 1), (off - 0xC, 31, 0)]
  | .loadCount => [(Off.GW_LOAD_SEL, 2, 0), (Off.GW_LOAD_SEL, 31, 16)]
  | .pulsePeriod => [(off - 0x10, 1, 0), (off + 4, 31, 0)]
  | .pulseWidth => [(off - 0x14, 1, 0), (off - 4, 31, 0)]
  | .canData => [(off - 4, 2, 2)]
  | .ivmMin => (span Off.IVM_CLASS_MIN 0 ((off - 0xE00100) / 4)).map (fun o => (o, 10, 0))
  | .wdgWarn => [(Off.WDG_CTRL, 29, 16)]
  | .overLen => []
  | .overBalls => []
  | .pow2Ring => []
  | .pciePort => []
  | .qeCmdSize => []
  | .qeCplSize => []
  | .kvEnable => []
  | .binMib => []
  | .pclk => []
  | .linkRate => []
  | .linkLanes => []
  | .vcSize => []
  | .gwPortEn => []
  | .capEdge => []
  | .pulseBall => []
  | .canNom => []
  | .linBaud => []
  | .rxSize => []
  | .wdgLock => []
  | .wdgTimeout => []
  | .setupSec => []

/-- Fields checked after every other field of the apply, because they depend on registers at higher offsets (R79). -/
def Dep.late : Dep → Bool
  | .kvEnable => true
  | .dispEnable => true
  | .camEnable => true
  | .gwPortEn => true
  | _ => false

/-- The value applied for a field (R79). -/
def legalize (l : Legal) (c : Applying) (off raw old : Nat) : Nat :=
  match l with
  | .any => raw
  | .range lo hi step => nearest lo hi step raw
  | .codes mx repl also => if raw ≤ mx ∨ raw = also then raw else repl
  | .locked lockOff selfOff bit => if c.stays (off - selfOff + lockOff) bit then old else raw
  | .dep x => depValue x c off raw old

/-- The value of a field as written: fixed bits of WLD_SETUP_SEC ignore writes (R545). -/
def segRaw (l : Legal) (off raw old : Nat) : Nat :=
  match l with
  | .dep .setupSec =>
    let m := fixedSec ((off - Off.WLD_SETUP_SEC 0) / 4)
    ((BitVec.ofNat 64 raw &&& ~~~ m) ||| (BitVec.ofNat 64 old &&& m)).toNat
  | _ => raw

/-- The field at bits from `lo` of the register at `off` controls an object whose applied world is secure, or would change
such a world attribute from `old` to `raw` (R546, R547). -/
def Dev.protectedField (d : Dev) (off lo raw old : Nat) : Bool :=
  if 0x100000 ≤ off ∧ off < 0x500000 then
    let t := (off - 0x100000) / 0x10000
    let x := off % 0x10000
    d.b (Off.TILE_CTRL t) 8 || (x == 4 && lo == 8 && raw != old) ||
      (decide (0x100 ≤ x ∧ x < 0x180) && (d.b off 8 || (lo == 8 && raw != old)))
  else if 0x700000 ≤ off ∧ off < 0x800000 then
    let i := (off - 0x700000) / 0x1000
    d.f (Off.QE_INST_CTRL i) 2 1 == 1 || (off % 0x1000 == 0 && lo == 1 && raw == 1)
  else if 0x920000 ≤ off ∧ off < 0x930000 then
    let c := (off - 0x920000) / 0xC0
    d.b (Off.CAM_CTRL c) 1 || ((off - 0x920000) % 0xC0 == 0 && lo == 1 && raw != old)
  else if 0xA30000 ≤ off ∧ off < 0xA40000 then
    let n := (off - 0xA30000) / 0x20
    d.b (Off.GW_RX_CTRL n) 20 || ((off - 0xA30000) % 0x20 == 8 && lo == 20 && raw != old)
  else if 0xC10000 ≤ off ∧ off < 0xC50000 then
    let n := (off - 0xC10000) / 0x4000
    d.b (Off.MBX_CH_CTRL n) 1 || ((off - 0xC10000) % 0x4000 == 0 && lo == 1 && raw != old)
  else if 0xA00100 ≤ off ∧ off < 0xA00180 then d.b Off.WLD_PIN_SEC_HI (8 + (off - 0xA00100) / 0x20)
  else if 0xA00200 ≤ off ∧ off < 0xA00300 then d.b Off.WLD_PIN_SEC_HI ((off - 0xA00200) / 0x20)
  else false

end Sys2Proof.Machine
end

