-- ==== Sys2Proof/Machine/Clamp.lean ====
section
/-! DEFINITION. Machine/Clamp.lean: staging, the check-and-clamp rule and the clamp-report ring (R78 to R82, R546). -/

namespace Sys2Proof.Machine

/-! ### The clamp-report ring -/

/-- One clamp report (R81). -/
structure Report where
  off : Nat
  lsb : Nat
  width : Nat
  rejected : Bool
  reserved : Bool
  written : Nat
  applied : Nat
  deriving DecidableEq, Repr

/-- The 16 bytes of a report with a SOURCE: 0 register write, 1 configuration record, 2 service port (R81). -/
def Report.entry (x : Report) (source : Nat) : List Byte :=
  leBytes 4 x.off ++ leBytes 1 x.lsb ++ leBytes 1 x.width ++ leBytes 1 source ++
    leBytes 1 (cond x.rejected 1 0 + cond x.reserved 2 0) ++ leBytes 4 x.written ++ leBytes 4 x.applied

/-- The internal ring is in use (R82). -/
def Dev.clampInternal (d : Dev) : Bool := d.addr Off.CLAMP_RING_BASE_LO Off.CLAMP_RING_BASE_HI == 0

/-- The base of the ring in use (R82). -/
def Dev.clampBase (d : Dev) : Nat :=
  if d.clampInternal then 0x1FFE000
  else d.addr Off.CLAMP_RING_BASE_LO Off.CLAMP_RING_BASE_HI

/-- The entries of the ring in use (R82). -/
def Dev.clampSize (d : Dev) : Nat :=
  if d.clampInternal then 512 else d.n Off.CLAMP_RING_SIZE

/-- Entries written and not consumed. -/
def Dev.clampUsed (d : Dev) : Nat := (d.n Off.CLAMP_PROD + 2 ^ 32 - d.n Off.CLAMP_CONS % 2 ^ 32) % 2 ^ 32

/-- A report is written, or dropped when the ring is full (R81, R82). -/
def State.clampPush (s : State) (source : Nat) (x : Report) : State :=
  if s.dev.clampUsed = s.dev.clampSize then s.onDev (fun d => d.incSat Off.CLAMP_DROPPED)
  else
    (s.put (s.dev.clampBase + s.dev.n Off.CLAMP_PROD % s.dev.clampSize * 16) (x.entry source)).onDev
      (fun d => d.incWrap Off.CLAMP_PROD)

/-- Reports are written in order. -/
def State.clampAll (s : State) (source : Nat) (l : List Report) : State := s.forAll l (fun x t => t.clampPush source x)

/-- The unconsumed entries move to a new ring of `size` entries at `base` (R82); `s` still has the old ring in use. -/
def State.clampMove (s : State) (base size : Nat) : State :=
  let used := s.dev.clampUsed
  let kept := min used size
  let cons := s.dev.n Off.CLAMP_CONS
  let t := (List.range kept).foldl
    (fun t i => t.put (base + (cons + i) % 2 ^ 32 % size * 16)
      (s.bytes (s.dev.clampBase + (cons + i) % 2 ^ 32 % s.dev.clampSize * 16) 16)) s
  t.onDev (fun d => (d.wn Off.CLAMP_PROD ((cons + kept) % 2 ^ 32)).addSat Off.CLAMP_DROPPED (used - kept))

/-- A normal-world write to a secure object is not applied; it is reported and logged (R546, R548). -/
def State.writeRejected (s : State) (m : Master) (off value : Nat) : State :=
  (s.onDev (fun d => d.wldDenied 1 2 m (off / 0x10000) off)).clampPush 0
    { off := off, lsb := 0, width := 32, rejected := true, reserved := false, written := value % 2 ^ 32, applied := 0 }

/-! ### Staging -/

/-- A write of the bits of `mask` of the staging copy of the register at `off`, by a writer of world `w` (R78, R546). -/
def Dev.stageBits (d : Dev) (w : Bool) (off : Nat) (value mask : W64) : Dev :=
  let o := KMap.getD d.staged off { value := 0, written := 0, normal := 0 }
  let n : Staged :=
    { value := (o.value &&& ~~~ mask) ||| (value &&& mask), written := o.written ||| mask,
      normal := if w then o.normal &&& ~~~ mask else o.normal ||| mask }
  { d with staged := KMap.put d.staged off n }

/-! ### Apply -/

/-- An apply in progress: the block before it, the block with the fields applied so far, the reports, newest first; who applies. -/
structure ApplyRun where
  by_ : Master
  old : Dev
  new : Dev
  reports : List Report

/-- A field on which the range of a dependent field depends has changed in this apply (R79). -/
def ApplyRun.depChanged (a : ApplyRun) (x : Dep) (off : Nat) : Bool :=
  (x.on off).any (fun g => a.old.f g.1 g.2.1 g.2.2 != a.new.f g.1 g.2.1 g.2.2)

/-- One segment of the register at `off` is checked and applied (R79, R10, R546); `late` selects the fields of the second pass. -/
def ApplyRun.seg (a : ApplyRun) (late : Bool) (off : Nat) (g : Seg) : ApplyRun :=
  let st := KMap.getD a.old.staged off { value := 0, written := 0, normal := 0 }
  let m := maskOf g.hi g.lo
  let raw := fld (a.old.stagedRaw off) g.hi g.lo
  let old := fld (a.old.r off) g.hi g.lo
  let width := g.hi + 1 - g.lo
  let written := decide (st.written &&& m ≠ 0)
  match g.legal with
  | none =>
    if !late && written && raw != 0 then
      { a with reports := { off := off, lsb := g.lo, width := width, rejected := false, reserved := true, written := raw, applied := 0 } :: a.reports }
    else a
  | some l =>
    if (match l with | .dep x => x.late | _ => false) != late then a
    else if written && decide (st.normal &&& m ≠ 0) && a.old.protectedField off g.lo raw old then
      { a with
        new := a.new.wldDenied 1 2 a.by_ (off / 0x10000) off
        reports := { off := off, lsb := g.lo, width := width, rejected := true, reserved := false, written := raw, applied := 0 } :: a.reports }
    else
      if written || (match l with | .dep x => a.depChanged x off | _ => false) then
        let x := segRaw l off raw old
        let v := legalize l { old := a.old, new := a.new } off x old
        { a with
          new := a.new.setF off g.hi g.lo v
          reports := if v = x then a.reports
            else { off := off, lsb := g.lo, width := width, rejected := false, reserved := false, written := x, applied := v } :: a.reports }
      else a

/-- Every segment of the register at `off`, in one pass. -/
def ApplyRun.reg (a : ApplyRun) (late : Bool) (off : Nat) : ApplyRun :=
  match locate off with
  | none => a
  | some (r, _) => if r.acc = .rw then r.segs.foldl (fun b g => b.seg late off g) a else a

/-- The registers an apply looks at: those written since the last apply of `lo` to `hi`, and those that depend on them, in offset order. -/
def Dev.applyList (d : Dev) (lo hi : Nat) : List Nat :=
  let w := (d.staged.map (fun p => p.1)).filter (fun o => decide (lo ≤ o) && decide (o < hi))
  ((w ++ w.flatMap dependents).foldl (fun (m : KMap Unit) o => KMap.put m o ()) []).map (fun p => p.1)

/-- The whole staging copy of the set-up offsets `lo` to `hi` is checked and applied (R78, R79); the reports in order. -/
def Dev.applyRange (d : Dev) (m : Master) (lo hi : Nat) : Dev × List Report :=
  let l := d.applyList lo hi
  let a := l.foldl (fun (b : ApplyRun) o => b.reg false o) { by_ := m, old := d, new := d, reports := [] }
  let b := l.foldl (fun (b : ApplyRun) o => b.reg true o) a
  ({ b.new with staged := b.new.staged.filter (fun p => decide (p.1 < lo) || decide (hi ≤ p.1)) }, b.reports.reverse)

/-- The common part of every apply: the staged fields of `lo` to `hi` take effect and the reports are written. -/
def State.applyBlock (s : State) (m : Master) (source lo hi : Nat) : State :=
  (s.onDev (fun d => (d.applyRange m lo hi).1)).clampAll source (s.dev.applyRange m lo hi).2

/-! ### Writes to registers -/

/-- The page that holds a set-up offset is secure: its WLD_SETUP_SEC bit, or fixed so (R545). -/
def Dev.pageSecure (d : Dev) (off : Nat) : Bool :=
  let n := off / 0x10000
  n == 0 || n == 1 || n == 0xD0 || n == 0xF0 || decide (0xF2 ≤ n ∧ n < 0x100) || d.b (Off.WLD_SETUP_SEC (n / 32)) (n % 32)

/-- The set-up page of an offset admits a write by the master (R395, R446, R545). -/
def Dev.setupAdmits (d : Dev) (m : Master) (off : Nat) : Bool :=
  let n := off / 0x10000
  if 0xB0 ≤ n ∧ n < 0xC0 then isIsland m || (match m with | .mgmtRom => true | _ => false)
  else !d.pageSecure off || d.world m

/-- The offset answers at all (R46, R48, R50, R364). -/
def Dev.setupThere (d : Dev) (off : Nat) : Bool := (d.setupEnd off).isSome

/-- The form of an access to set-up space: 4 or 8 bytes, naturally aligned (R49). -/
def setupForm (off size : Nat) : Bool := (size == 4 || size == 8) && off % size == 0

/-- The refusal of a set-up write (R545). -/
def Dev.setupDenied (d : Dev) (m : Master) (off : Nat) : Dev := (d.wldDenied 0 1 m (off / 0x10000) off).answer .error

/-- A write gets an error response, and what it leaves: `none` when the write goes through (R46, R49, R50, R545). A master that is held in reset
makes no write (R52). -/
def Dev.setupRefused (d : Dev) (m : Master) (off size : Nat) : Option Dev :=
  if !d.masterRuns m then some d
  else if !d.setupThere off || !setupForm off size then some (d.answer .error)
  else if !d.setupAdmits m off then some (d.setupDenied m off)
  else if !d.rtAdmits (0xF0000000 + off) size (d.world m) then some ((d.rtDenied (0xF0000000 + off)).answer .error)
  else none

/-- The implemented bits of a register (R9). -/
def RegDesc.mask (r : RegDesc) : W64 := r.segs.foldl (fun m g => m ||| maskOf g.hi g.lo) 0

/-- The register at `off` is one of a hub DMA channel in the secure world (R548). -/
def Dev.dmaSecure (d : Dev) (off : Nat) : Bool := decide (0xF10000 ≤ off ∧ off < 0xF10200) && d.b Off.WLD_DMA_SEC ((off - 0xF10000) / 0x20)

/-- A write to an RW register that is not staged takes effect at once; the normal world cannot so write a secure object (R9, R546; DEDUCED, log 46).
Non-zero bits in its reserved fields write no report: R81 reports replacements at an apply (DESIGN CHOICE, log 59). -/
def State.nsWrite (s : State) (m : Master) (r : RegDesc) (off : Nat) (value mask : W64) : State :=
  if !s.dev.world m && (s.dev.protectedField off 0 0 0 || s.dev.dmaSecure off) then s.writeRejected m off value.toNat
  else s.onDev (fun d => d.w off ((d.r off &&& ~~~ (mask &&& r.mask)) ||| (value &&& (mask &&& r.mask))))

/-- The effect of a W1C write: a 1 clears the implemented bit (R9). -/
def Dev.w1c (d : Dev) (off : Nat) (value : W64) : Dev := d.w off (d.r off &&& ~~~ value)

end Sys2Proof.Machine
end

