-- ==== Sys2Proof/Machine/Keeper.lean ====
section
/-! DEFINITION. Machine/Keeper.lean: doubt triggers, ownership, the Keeper table, loops, slots, frames and setpoints (R404 to R430). -/

namespace Sys2Proof.Machine

/-- `d` with the Keeper changed. -/
def Dev.onKeeper (d : Dev) (g : Keeper → Keeper) : Dev := { d with keeper := g d.keeper }

/-- The island's instant: ns on its own oscillator since its power good, over every power good of the hub die (R64, R424, R550). -/
def Dev.islandNow (d : Dev) : Nat := d.keeper.base + d.now

/-! ### The Keeper table (R416 to R422) -/

/-- The number in a byte string, as an FP32 word. -/
def f32At (bs : List Byte) (off : Nat) : W32 := BitVec.ofNat 32 (leAt bs off 4)

/-- A loop entry's 48 bytes (R419). -/
def parseLoop (b : List Byte) : LoopCfg :=
  { src := leAt b 0 1, dst := leAt b 1 1, flags := leAt b 2 2, period := leAt b 4 2, kp := f32At b 8, ki := f32At b 12,
    spDefault := f32At b 16, spMin := f32At b 20, spMax := f32At b 24, outMin := f32At b 28, outMax := f32At b 32,
    ramp := f32At b 36, inScale := f32At b 40, inOffset := f32At b 44 }

/-- An input entry's 16 bytes (R420). -/
def parseInput (b : List Byte) : InputCfg :=
  { channel := leAt b 0 1, signed := nbit (leAt b 1 1) 1, startBit := leAt b 2 2, id := leAt b 4 4, bits := leAt b 8 1,
    timeoutMs := leAt b 10 2 }

/-- A signal entry's 8 bytes (R421). -/
def parseSig (b : List Byte) : SigCfg :=
  { slot := leAt b 0 1, startBit := leAt b 1 1, bits := leAt b 2 1, signed := nbit (leAt b 3 1) 0, res := f32At b 4 }

/-- A frame entry's 128 bytes (R421). -/
def parseFrame (b : List Byte) : FrameCfg :=
  { channel := leAt b 0 1, flags := leAt b 1 1, format := leAt b 2 1, length := leAt b 3 1, id := leAt b 4 4,
    periodUs := leAt b 8 4, safe := slice b 16 32,
    sigs := (List.range (leAt b 12 1)).map (fun i => parseSig (slice b (0x30 + i * 8) 8)) }

/-- The entries of an array that are enabled, by number: `en` reads the enable bit of an entry's bytes. -/
def enabledEntries {α : Type} (t : List Byte) (off n size : Nat) (en : List Byte → Bool) (f : List Byte → α) : KMap α :=
  (List.range n).filterMap (fun i =>
    let b := slice t (off + i * size) size
    if en b then some (i, f b) else none)

/-- The table in the bytes 0x0000 to 0x2B7F (R416). -/
def parseTable (t : List Byte) : KTable :=
  { sequence := leAt t 0x10 4
    can := (List.range 4).map (fun i => (leAt t (0x20 + i * 8) 2, leAt t (0x22 + i * 8) 2, leAt t (0x24 + i * 8) 2))
    pwm := (List.range 8).map (fun i => (leAt t (0x40 + i * 8) 4, leAt t (0x44 + i * 8) 2))
    safe := (List.range 64).map (fun i => f32At t (0x80 + i * 4))
    loops := enabledEntries t 0x180 32 48 (fun b => nbit (leAt b 2 2) 0) parseLoop
    inputs := enabledEntries t 0x780 64 16 (fun b => nbit (leAt b 1 1) 0) parseInput
    frames := enabledEntries t 0xB80 64 128 (fun b => nbit (leAt b 1 1) 0) parseFrame }

/-- Every byte of a list of ranges is zero. -/
def zeroIn (t : List Byte) (rs : List (Nat × Nat)) : Bool := rs.all (fun r => (slice t r.1 r.2).all (fun b => b == 0))

/-- The reserved bytes of the table (R417 to R421): header, channels, PWM, loops, inputs, frames. -/
def tableReservedOk (t : List Byte) : Bool :=
  zeroIn t [(0x06, 2), (0x14, 12)] &&
    (List.range 4).all (fun i => zeroIn t [(0x26 + i * 8, 2)] && decide (leAt t (0x24 + i * 8) 2 < 4)) &&
    (List.range 8).all (fun i => zeroIn t [(0x46 + i * 8, 2)] && decide (leAt t (0x44 + i * 8) 2 < 4)) &&
    (List.range 32).all (fun i => zeroIn t [(0x186 + i * 48, 2)] && decide (leAt t (0x182 + i * 48) 2 < 32)) &&
    (List.range 64).all (fun i => zeroIn t [(0x789 + i * 16, 1), (0x78C + i * 16, 4)] && decide (leAt t (0x781 + i * 16) 1 < 4)) &&
    (List.range 64).all (fun i => zeroIn t [(0xB8D + i * 128, 3), (0xBF0 + i * 128, 16)] && decide (leAt t (0xB81 + i * 128) 1 < 32))

/-- A CAN channel is enabled in the table. -/
def KTable.chEnabled (k : KTable) (c : Nat) : Bool := nbit (k.can.getD c (0, 0, 0)).2.2 0

/-- An enabled loop is within its ranges (R419, R422). -/
def KTable.loopOk (k : KTable) (l : LoopCfg) : Bool :=
  (decide (l.src < 8) || (decide (0x40 ≤ l.src ∧ l.src < 0x80) && (KMap.find k.inputs (l.src - 0x40)).isSome)) &&
    decide (l.dst < 64) && decide (1 ≤ l.period ∧ l.period ≤ 4000) &&
    [l.kp, l.ki, l.spDefault, l.spMin, l.spMax, l.outMin, l.outMax, l.ramp, l.inScale, l.inOffset].all f32Finite &&
    f32Lt 0 l.ramp && !f32Lt l.outMax l.outMin && !f32Lt l.spDefault l.spMin && !f32Lt l.spMax l.spDefault

/-- A frame's payload lengths by format (R421). -/
def lengthOk (format length : Nat) : Bool :=
  match format with
  | 0 => decide (length ≤ 8)
  | 1 => decide (length ≤ 8) || [12, 16, 20, 24, 32].contains length
  | 2 => decide (length ≤ 8) || [12, 16, 20, 24, 32].contains length
  | _ => false

/-- Two bit ranges do not meet. -/
def bitsApart (a an b bn : Nat) : Bool := decide (a + an ≤ b ∨ b + bn ≤ a)

/-- An enabled frame is within its ranges (R421, R422). -/
def KTable.frameOk (k : KTable) (f : FrameCfg) : Bool :=
  let e2e := nbit f.flags 3
  decide (f.channel < 4) && k.chEnabled f.channel && lengthOk f.format f.length &&
    (f.format != 2 || nbit (k.can.getD f.channel (0, 0, 0)).2.2 1) &&
    decide (f.id % 2 ^ 31 < 2 ^ 29) &&
    decide (1000 ≤ f.periodUs ∧ f.periodUs ≤ 1000000) && decide (f.sigs.length ≤ 8) && (!e2e || decide (2 ≤ f.length)) &&
    f.sigs.all (fun g => decide (g.slot < 64) && decide (1 ≤ g.bits ∧ g.bits ≤ 32) && f32Finite g.res && f32Lt 0 g.res &&
      decide (g.startBit + g.bits ≤ (if e2e then f.length - 2 else f.length) * 8)) &&
    (List.range f.sigs.length).all (fun i => (List.range i).all (fun j =>
      match f.sigs[i]?, f.sigs[j]? with
      | some a, some b => bitsApart a.startBit a.bits b.startBit b.bits
      | _, _ => true))

/-- The island ROM accepts the table, signatures apart (R417 to R422). -/
def tableOk (t : List Byte) (ident : Nat) : Bool :=
  let k := parseTable t
  leAt t 0 4 == 0x4C42544B && leAt t 4 2 == 1 &&
    Nat.land ident (leAt t 0x0C 4) == Nat.land (leAt t 0x08 4) (leAt t 0x0C 4) && tableReservedOk t &&
    k.can.all (fun c => !nbit c.2.2 0 || ([125, 250, 500, 1000].contains c.1 &&
      (c.2.1 == 0 || (decide (1000 ≤ c.2.1 ∧ c.2.1 ≤ 8000) && c.2.1 % 1000 == 0)))) &&
    k.pwm.all (fun p => !nbit p.2 0 || decide (10 ≤ p.1 ∧ p.1 ≤ 100000)) &&
    k.safe.all f32Finite &&
    k.inputs.all (fun p => decide (p.2.channel < 4) && decide (p.2.id % 2 ^ 31 < 2 ^ 29) && decide (1 ≤ p.2.bits ∧ p.2.bits ≤ 32) &&
      decide (1 ≤ p.2.timeoutMs ∧ p.2.timeoutMs ≤ 10000)) &&
    k.loops.all (fun p => k.loopOk p.2) &&
    k.loops.all (fun p => k.loops.all (fun q => p.1 == q.1 || p.2.dst != q.2.dst)) &&
    k.frames.all (fun p => k.frameOk p.2)

/-! ### Slots (R423) -/

/-- SAFE_VALUE of a slot; 0 under the ROM default table. -/
def Dev.safeValue (d : Dev) (s : Nat) : W32 := d.keeper.table.safe.getD s 0

/-- The loop is enabled and its CAN input, if it has one, is stale (R425). -/
def Dev.loopStale (d : Dev) (l : LoopCfg) : Bool := decide (0x40 ≤ l.src) && (KMap.find d.keeper.inputs (l.src - 0x40)).isNone

/-- The state of loop `n`; at S0 both values are the slot's SAFE_VALUE (R424). -/
def Dev.loopSt (d : Dev) (n : Nat) (l : LoopCfg) : LoopSt :=
  (KMap.find d.keeper.loops n).getD { i := d.safeValue l.dst, u := d.safeValue l.dst }

/-- A loop's present output: SAFE_VALUE of its slot while its input is stale (R425). -/
def Dev.loopOut (d : Dev) (n : Nat) (l : LoopCfg) : W32 := if d.loopStale l then d.safeValue l.dst else (d.loopSt n l).u

/-- A slot's value under KEEPER ownership (R423). -/
def Dev.keeperValue (d : Dev) (s : Nat) : W32 :=
  match d.keeper.table.loops.find? (fun p => p.2.dst == s) with
  | some p => d.loopOut p.1 p.2
  | none => d.safeValue s

/-- The full function owns the outputs (KPR_STATUS.OWNER). -/
def Dev.ownerFull (d : Dev) : Bool := d.b Off.KPR_STATUS 0

/-- A slot's value in force (R423). -/
def Dev.slotValue (d : Dev) (s : Nat) : W32 :=
  if d.ownerFull then (KMap.find d.keeper.full s).getD (d.keeperValue s) else d.keeperValue s

/-- The outputs are held at their pin reset levels for good (R66, R428). -/
def Dev.outputsDead (d : Dev) : Bool := d.b Off.KPR_STATUS 1 || d.start.halted

/-- Every enabled PWM output takes its slot's duty; the others stay at 0 % (R418, R427). -/
def Dev.drivePwm (d : Dev) : Dev :=
  d.onKeeper (fun k => { k with pwm := (List.range 8).filterMap (fun o =>
    if nbit (d.keeper.table.pwm.getD o (0, 0)).2 0 && !d.outputsDead then some (o, d.slotValue o) else none) })

/-! ### Frames (R426) -/

/-- A slot value divided by RES, rounded to nearest even and saturated to the signal's bits. -/
def SigCfg.raw (g : SigCfg) (v : W32) : Nat :=
  let i := if g.signed then (encodeInt (-(2 ^ (g.bits - 1) : Nat)) ((2 ^ (g.bits - 1) : Nat) - 1) ((f32v v).div (f32v g.res)) none).1
    else (encodeInt 0 ((2 ^ g.bits : Nat) - 1) ((f32v v).div (f32v g.res)) none).1
  unsignedOf g.bits i

/-- The field of `bits` bits at `start` of a little-endian bit string replaced. -/
def putBits (bs : List Byte) (start bits v : Nat) : List Byte :=
  let n := leNat bs
  leBytes bs.length (n - nfld n (start + bits - 1) start * 2 ^ start + v % 2 ^ bits * 2 ^ start)

/-- The bytes of frame `n` at a transmission. -/
def Dev.frameBytes (d : Dev) (n : Nat) (f : FrameCfg) : List Byte :=
  let p := f.sigs.foldl (fun b g => putBits b g.startBit g.bits (g.raw (d.slotValue g.slot))) (f.safe.take f.length)
  if nbit f.flags 3 then
    let a := putBits p ((f.length - 2) * 8) 4 (KMap.getD d.keeper.alive n 0)
    splice a (f.length - 1) (leBytes 1 (crcOf 3 (leBytes 4 f.id ++ a.take (f.length - 1))))
  else p

/-- The marks of a Keeper frame's FORMAT: 0 classical, 1 FD, 2 XL (R420). -/
def canMarks (format : Nat) : Nat := if format = 1 then 2 else if format = 2 then 32 else 0

/-- Frame `n` is transmitted now; its alive counter moves on. -/
def Dev.sendFrame (d : Dev) (n : Nat) (f : FrameCfg) : Dev :=
  if d.outputsDead then d
  else
    (d.emit (.canFrame f.channel (f.id % 2 ^ 31) (nbit f.id 31) (canMarks f.format) (d.frameBytes n f))).onKeeper
      (fun k => if nbit f.flags 3 then { k with alive := KMap.put k.alive n ((KMap.getD k.alive n 0 + 1) % 16) } else k)

/-- The owner flag of a frame matches the owner (R426). -/
def Dev.frameMatches (d : Dev) (f : FrameCfg) : Bool := if d.ownerFull then nbit f.flags 2 else nbit f.flags 1

/-- The frames with IMMEDIATE that the new owner sends are queued at once (R408). -/
def Dev.sendImmediate (d : Dev) : Dev :=
  d.forAll d.keeper.table.frames (fun p e => if nbit p.2.flags 4 && e.frameMatches p.2 then e.sendFrame p.1 p.2 else e)

/-! ### Doubt (R404 to R408) -/

/-- UNTRUSTED_LEFT (R57). -/
def Dev.untrusted (d : Dev) : Nat := d.f Off.START_STAGE 15 8

/-- The Keeper takes the outputs (R408); nothing happens when it owns them. -/
def Dev.takeover (d : Dev) : Dev :=
  if d.ownerFull then
    ((((d.setB Off.KPR_STATUS 0 false).onKeeper (fun k => { k with full := [], released := false, taken := true })).setB
      Off.KPR_EVENTS 0 true).incSat Off.KPR_CNT_TAKEOVER).drivePwm.sendImmediate
  else d

/-- A code gives a yellow card (R413). -/
def Dev.yellowCode (d : Dev) (code : Nat) : Bool := d.b Off.KPR_CARD_CTRL (16 + (code - 1))

/-- Yellow cards within the last RED_WINDOW Overs up to Over `over` (R414). -/
def Dev.yellowsIn (d : Dev) (ovr : Nat) : List Nat :=
  d.keeper.yellows.filter (fun k => decide ((ovr + 2 ^ 32 - k) % 2 ^ 32 < d.f Off.KPR_CARD_CTRL 15 8))

/-- ACTION of a log entry (R406): a takeover; the trigger that earns the Over's yellow card; one that makes it red. -/
def Dev.logAction (d : Dev) (code ovr : Nat) : Nat :=
  let yellow := d.yellowCode code && !d.keeper.codes.any (fun c => d.yellowCode c)
  cond d.ownerFull 1 0 + cond yellow 2 0 +
    cond (yellow && decide (d.f Off.KPR_CARD_CTRL 3 0 ≤ (d.yellowsIn ovr).length + 1)) 4 0

/-- One entry in the Keeper's log, at most once per code and Over (R406). -/
def Dev.kprLog (d : Dev) (code arg ovr : Nat) : Dev :=
  if code ∈ d.keeper.logged then d
  else
    let slot := d.n Off.KPR_LOG_PROD % 64
    (((d.wn (Off.KPR_LOG_A slot) (ovr % 2 ^ 32 + d.nsField * 2 ^ 32)).wn (Off.KPR_LOG_B slot)
      (code + d.logAction code ovr * 2 ^ 8 + arg % 2 ^ 32 * 2 ^ 32)).incWrap Off.KPR_LOG_PROD).onKeeper
      (fun k => { k with logged := code :: k.logged })

/-- A doubt trigger is raised: latched, logged, and the outputs taken over (R404 to R408). -/
def Dev.doubtAt (d : Dev) (code arg ovr : Nat) : Dev :=
  ((((d.kprLog code arg ovr).setB Off.KPR_DOUBT (code - 1) true).setB Off.KPR_STATUS 4 true).onKeeper
    (fun k => { k with codes := if code ∈ k.codes then k.codes else code :: k.codes })).takeover.setF
    Off.START_STAGE 15 8 (d.f Off.KPR_CTRL 7 0)

/-- A trigger that belongs to the current Over. -/
def Dev.doubt (d : Dev) (code arg : Nat) : Dev := d.doubtAt code arg d.over

/-! ### Loops and inputs (R424, R425) -/

/-- The step period in seconds, as FP32. -/
def LoopCfg.t (l : LoopCfg) : W32 := f32 (.val false (l.period * 50) 1000000)

/-- One step of a loop whose input is fresh (R424); `raw` is the input's raw value. -/
def Dev.loopNext (d : Dev) (n : Nat) (l : LoopCfg) (raw : Int) : LoopSt :=
  let st := d.loopSt n l
  let x := f32Add (f32Mul (f32OfInt raw) l.inScale) l.inOffset
  let sp := BitVec.ofNat 32 (d.n (Off.KPR_LOOP_SP n))
  let e := if nbit l.flags 4 then f32Sub x sp else f32Sub sp x
  match (if d.ownerFull && nbit l.flags 1 then KMap.find d.keeper.full l.dst else none) with
  | some u => { i := f32Clamp l.outMin l.outMax (f32Sub u (f32Mul l.kp e)), u := u }
  | none =>
    let i := f32Clamp l.outMin l.outMax (f32Add st.i (f32Mul (f32Mul l.ki l.t) e))
    let v := f32Clamp l.outMin l.outMax (f32Add (f32Mul l.kp e) i)
    { i := i, u := f32Clamp (f32Sub st.u (f32Mul l.ramp l.t)) (f32Add st.u (f32Mul l.ramp l.t)) v }

/-- The raw value of a loop's input: an analog code, or the CAN input's last signal. -/
def Dev.loopRaw (d : Dev) (l : LoopCfg) (code : Nat) : Int :=
  if l.src < 8 then (code % 4096 : Nat) else KMap.getD d.keeper.inputs (l.src - 0x40) 0

/-- The next step of loop `l` is due: the steps lie at the end of S0 and every PERIOD × 50 µs after it (R424; DEDUCED, log 65). -/
def Dev.loopDue (d : Dev) (l : Nat) (c : LoopCfg) : Bool :=
  decide (d.keeper.startAt + KMap.getD d.keeper.stepped l 0 * (c.period * 50000) ≤ d.islandNow)

/-- KEEPER_LOOP_STEP (R424, R425): the next step of an enabled loop, not before its instant; a stale loop holds. -/
def execKeeperLoopStep (l code : Nat) (s : State) : Host.Outcome State Fault Refusal :=
  .next (s.onDev (fun d =>
    match KMap.find d.keeper.table.loops l with
    | none => d
    | some c =>
      if !d.loopDue l c then d
      else
        let e := d.onKeeper (fun k => { k with stepped := KMap.put k.stepped l (KMap.getD k.stepped l 0 + 1) })
        if d.loopStale c then e
        else (e.onKeeper (fun k => { k with loops := KMap.put k.loops l (d.loopNext l c (d.loopRaw c code)) })).drivePwm))

/-- The signal of an input in a payload, as a little-endian bit string (R420). -/
def InputCfg.signal (c : InputCfg) (payload : List Byte) : Int :=
  if c.signed then signedOf c.bits (leNat payload / 2 ^ c.startBit) else ((leNat payload / 2 ^ c.startBit % 2 ^ c.bits : Nat) : Int)

/-- An input becomes fresh with a value: its loops resume with their last output at SAFE_VALUE if it was stale (R425). -/
def Dev.inputFresh (d : Dev) (j : Nat) (v : Int) : Dev :=
  let wasStale := (KMap.find d.keeper.inputs j).isNone
  let e := d.onKeeper (fun k => { k with inputs := KMap.put k.inputs j v, seen := KMap.put k.seen j d.islandNow })
  if wasStale then
    e.forAll (d.keeper.table.loops.filter (fun p => p.2.src == 0x40 + j)) (fun p x =>
      x.onKeeper (fun k => { k with loops := KMap.put k.loops p.1 { i := (d.loopSt p.1 p.2).i, u := d.safeValue p.2.dst } }))
  else e

/-- KEEPER_CAN_RECEIVE (R420): every enabled input with the frame's channel and identifier takes its signal. -/
def execKeeperCanReceive (ch id : Nat) (ext : Bool) (payload : List Byte) (s : State) : Host.Outcome State Fault Refusal :=
  .next (s.onDev (fun d =>
    (d.forAll (d.keeper.table.inputs.filter (fun p => p.2.channel == ch && p.2.id % 2 ^ 29 == id && nbit p.2.id 31 == ext))
      (fun p e => e.inputFresh p.1 (p.2.signal payload))).drivePwm))

/-- No matching frame has come for TIMEOUT_MS since the last one (R425). -/
def Dev.inputLate (d : Dev) (j : Nat) (c : InputCfg) : Bool := decide (KMap.getD d.keeper.seen j 0 + c.timeoutMs * 1000000 ≤ d.islandNow)

/-- INPUT_STALE (R425): an enabled input that was fresh becomes stale. -/
def execInputStale (j : Nat) (s : State) : Host.Outcome State Fault Refusal :=
  .next (s.onDev (fun d =>
    if (KMap.find d.keeper.table.inputs j).any (fun c => d.inputLate j c) && (KMap.find d.keeper.inputs j).isSome then
      (((d.onKeeper (fun k => { k with inputs := KMap.del k.inputs j })).setB Off.KPR_EVENTS 6 true).incSat
        Off.KPR_CNT_STALE).drivePwm
    else d))

/-- The next instant of frame `n` is reached: the end of S0 and every PERIOD_US after it (R426). -/
def Dev.frameDue (d : Dev) (n : Nat) (f : FrameCfg) : Bool :=
  decide (d.keeper.startAt + KMap.getD d.keeper.framed n 0 * (f.periodUs * 1000) ≤ d.islandNow)

/-- KEEPER_FRAME_TX (R426): at a frame's next instant it is sent if its owner flag matches. -/
def execKeeperFrameTx (n : Nat) (s : State) : Host.Outcome State Fault Refusal :=
  .next (s.onDev (fun d =>
    match KMap.find d.keeper.table.frames n with
    | none => d
    | some f =>
      if !d.frameDue n f then d
      else
        let e := d.onKeeper (fun k => { k with framed := KMap.put k.framed n (KMap.getD k.framed n 0 + 1) })
        if d.frameMatches f then e.sendFrame n f else e))

/-- KEEPER_SELF_MISMATCH (R428): the outputs go to their pin reset levels until the next power good. -/
def execKeeperSelfMismatch (s : State) : Host.Outcome State Fault Refusal :=
  .next (s.onDev (fun d =>
    if !d.islandUp then d
    else ({ (d.setB Off.KPR_STATUS 1 true).setB Off.KPR_EVENTS 5 true with start := { d.start with modFault := true } }).drivePwm))

/-- KPR_RELEASE (R411, R446, R545): bit 0 from an island master permits a sticky return, which then no longer waits for it; other masters get
an error response. -/
def execKprRelease (m : Master) (value : Nat) (s : State) : Host.Outcome State Fault Refusal :=
  .next (match s.dev.setupRefused m Off.KPR_RELEASE 4 with
    | some d => { s with dev := d }
    | none => s.onDev (fun d => (d.when (nbit value 0) (fun e => (e.onKeeper (fun k => { k with released := true })).setB Off.KPR_STATUS 3 false)).answer .ok))

/-! ### Entries of the full function (R429, R430) -/

/-- A setpoint put into force, clamped to the loop's limits; the clamp is counted (R430). -/
def Dev.setSetpoint (d : Dev) (l : Nat) (c : LoopCfg) (v : W32) : Dev :=
  let a := f32Clamp c.spMin c.spMax v
  (d.wn (Off.KPR_LOOP_SP l) a.toNat).when (a != v) (fun e => e.incSat Off.KPR_CNT_SP_CLAMPED)

/-- An entry refused (R430). -/
def Dev.spRefused (d : Dev) : Dev := (d.incSat Off.KPR_CNT_SP_REFUSED).setB Off.KPR_EVENTS 8 true

/-- A full-function setpoint that the service port overrides in the same Over (R93). -/
def Dev.spOverridden (d : Dev) : Dev := (d.incSat Off.KPR_CNT_SP_OVERRIDDEN).setB Off.KPR_EVENTS 9 true

/-- One entry of a clean Over (R430): bytes 0 to 3 as a number, and VALUE. DESIGN CHOICE (log 58): each entry of the full function that a
setpoint of the service port overrides counts in KPR_CNT_SP_OVERRIDDEN. -/
def Dev.applyEntry (d : Dev) (x : Nat × W32) : Dev :=
  let ty := x.1 % 256
  let idx := x.1 / 256 % 256
  if ty = 0xFF then d
  else if x.1 / 65536 ≠ 0 ∨ f32IsNan x.2 = true then d.spRefused
  else match ty with
    | 0 =>
      if 64 ≤ idx then d.spRefused
      else
        let a := if idx < 8 then f32Clamp 0 0x42C80000 x.2 else x.2
        (d.onKeeper (fun k => { k with full := KMap.put k.full idx a })).when (a != x.2) (fun e => e.incSat Off.KPR_CNT_SP_CLAMPED)
    | 1 =>
      match KMap.find d.keeper.table.loops idx with
      | none => d.spRefused
      | some c =>
        if !nbit c.flags 3 then d.spRefused
        else if (KMap.find d.sp.setpoints idx).isSome then d.spOverridden
        else d.setSetpoint idx c x.2
    | _ => d.spRefused

/-- The entries of one command: applied when the Over of its commit point was clean, otherwise discarded (R430). DESIGN CHOICE (log 58): an
overridden entry of an Over that was not clean counts as discarded only. -/
def Dev.applyEntries (d : Dev) (x : Nat × List (Nat × W32)) : Dev :=
  if KMap.getD d.keeper.clean x.1 false then d.forAll x.2 (fun y e => e.applyEntry y)
  else
    let n := (x.2.filter (fun y => y.1 % 256 != 0xFF)).length
    (d.addSat Off.KPR_CNT_SP_DISCARDED n).when (decide (0 < n)) (fun e => e.setB Off.KPR_EVENTS 7 true)

/-- The entries published since the last edge, then the service port's setpoints (R93, R430). -/
def Dev.applyPublished (d : Dev) : Dev :=
  let e := (d.forAll d.keeper.entries (fun x y => y.applyEntries x)).onKeeper (fun k => { k with entries := [] })
  let g := e.forAll d.sp.setpoints (fun p y => y.wn (Off.KPR_LOOP_SP p.1) p.2.toNat)
  ({ g with sp := { g.sp with setpoints := [] } }).drivePwm

/-! ### The decision at an edge (R87, R409 to R415) -/

/-- A safety partition is configured (R360). -/
def Dev.safetyPart (d : Dev) : Option Nat :=
  if d.f Off.SCH_CTRL 3 0 < 8 then some (d.f Off.SCH_CTRL 3 0) else none

/-- The Over just ended was clean (R87): the verdict was AGREE, no trigger, no KEEPER_ONLY, and a safety partition; a dead Over is not. -/
def Dev.wasClean (d : Dev) (dead : Bool) : Bool :=
  !dead && !d.b Off.START_STAGE 3 && d.safetyPart.isSome && d.f Off.LJ_VERDICT 1 0 == 1 && d.keeper.codes.isEmpty

/-- UNTRUSTED_LEFT after the Over just ended (R87); a dead Over leaves it. After a reset of the safety partition no Over counts before both copies have
run again (R347). -/
def Dev.countClean (d : Dev) (dead clean : Bool) : Dev :=
  if dead ∨ d.stage < 5 then d
  else if clean && !d.judge.restarts then d.setF Off.START_STAGE 15 8 (d.untrusted - 1)
  else d.setF Off.START_STAGE 15 8 (d.f Off.KPR_CTRL 7 0)

/-- The cards of the Over just ended, `over` (R413 to R415); the second answer: a red card was given. -/
def Dev.cards (d : Dev) (ovr : Nat) : Dev × Bool :=
  if d.keeper.codes.any (fun c => d.yellowCode c) then
    let y := ovr :: d.yellowsIn ovr
    let e := ((d.incSat Off.KPR_CNT_YELLOW).setB Off.KPR_EVENTS 2 true).onKeeper (fun k => { k with yellows := y })
    if d.f Off.KPR_CARD_CTRL 3 0 ≤ y.length then
      let reds := satInc 8 (d.f Off.KPR_STATUS 23 16)
      let g := ((((e.onKeeper (fun k => { k with yellows := [] })).incSat Off.KPR_CNT_RED).setB Off.KPR_EVENTS 3 true).setF
        Off.KPR_STATUS 23 16 reds).setF Off.KPR_STATUS 11 8 0
      let lim := d.f Off.KPR_CARD_CTRL 31 25
      (if lim ≠ 0 ∧ lim ≤ reds then (g.setB Off.START_STAGE 3 true).setB Off.KPR_EVENTS 4 true else g, true)
    else (e.setF Off.KPR_STATUS 11 8 (min 15 y.length), false)
  else
    let y := d.yellowsIn ovr
    ((d.onKeeper (fun k => { k with yellows := y })).setF Off.KPR_STATUS 11 8 (min 15 y.length), false)

/-- A return waits for KPR_RELEASE (R411). -/
def Dev.stickyHolds (d : Dev) : Bool := d.b Off.KPR_CTRL 8 && d.keeper.taken && !d.keeper.released

/-- The Keeper owns the new Over (R409), STICKY apart; `newDead`: the new Over is a dead Over. -/
def Dev.keeperOwns (d : Dev) (newDead : Bool) : Bool :=
  d.b Off.START_STAGE 3 || decide (d.stage < 5) || decide (0 < d.untrusted) || newDead || !d.keeper.codes.isEmpty

/-- The first handover starts Voxsar's timer for the operating points, 60 s ahead (R87, R564). -/
def Dev.handedOver (d : Dev) : Dev :=
  if d.b Off.START_STAGE 4 then d
  else ({ d with vox := { d.vox with oppAt := some (d.now + 60 * 1000000000) } }).setB Off.START_STAGE 4 true

/-- The ownership of the new Over (R409 to R411). -/
def Dev.decideOwner (d : Dev) (newDead : Bool) : Dev :=
  if d.keeperOwns newDead then (d.setB Off.KPR_STATUS 3 false).takeover
  else if d.ownerFull then d
  else if d.stickyHolds then d.setB Off.KPR_STATUS 3 true
  else
    (((d.setB Off.KPR_STATUS 3 false).setB Off.KPR_STATUS 0 true).setB Off.KPR_EVENTS 1 true).handedOver.drivePwm.sendImmediate

/-! ### The ages of the periodic tests (R444) -/

/-- A tile's bit in a pair of LO and HI registers. -/
def Dev.tileBit (d : Dev) (lo hi t : Nat) : Bool := if t < 32 then d.b lo t else d.b hi (t - 32)

/-- `d` with a tile's bit in a pair of LO and HI registers set to `x`. -/
def Dev.setTileBit (d : Dev) (lo hi t : Nat) (x : Bool) : Dev := if t < 32 then d.setB lo t x else d.setB hi (t - 32) x

/-- ns since the tile's last complete logic test, or since the end of S1. -/
def Dev.logicAge (d : Dev) (t : Nat) : Nat := if d.start.released then d.islandNow - max d.keeper.warmAt (d.tile t).logicAt else 0

/-- ns since the tile's last complete scratchpad pass, or since the end of S1. -/
def Dev.passAge (d : Dev) (t : Nat) : Nat := if d.start.released then d.islandNow - max d.keeper.warmAt (d.tile t).passAt else 0

/-- STEST_AGE[t] as it reads (R444, R451). -/
def Dev.testAges (d : Dev) (t : Nat) : Nat := min 0xFFFF (d.logicAge t / 1000000) + min 0xFFFF (d.passAge t / 1000000) * 2 ^ 16

/-- The age of a tile's last complete logic test, or of its last complete scratchpad pass, exceeds DTI_MS (R444). -/
def Dev.testOld (d : Dev) (t : Nat) (scratch : Bool) : Bool :=
  decide (d.f Off.STEST_CTRL 25 16 * 1000000 < if scratch then d.passAge t else d.logicAge t)

/-- Either age exceeds DTI_MS. -/
def Dev.testsOld (d : Dev) (t : Nat) : Bool := d.testOld t false || d.testOld t true

/-- The tile's bit in STEST_LATENT clears when both ages are within DTI_MS (R444). -/
def Dev.latentEnds (d : Dev) (t : Nat) : Dev := d.when (!d.testsOld t) (fun e => e.setTileBit Off.STEST_LATENT_LO Off.STEST_LATENT_HI t false)

end Sys2Proof.Machine
end

