-- ==== Sys2Proof/Machine/Ecc.lean ====
section
/-! DEFINITION. Machine/Ecc.lean: the memories' error correction: HBM sites, scratchpad banks, the island's memories (R241, R364, R366, R367, R404). -/

namespace Sys2Proof.Machine

/-- `d` with the power controller changed. -/
def Dev.onPower (d : Dev) (g : Power → Power) : Dev := { d with power := g d.power }

/-- The safety partition in force (R318, R320); none when SAFETY_PART is 0xF. -/
def Dev.safetyNow (d : Dev) : Option Nat :=
  let p := fld d.sched.ctrl 3 0
  if p < 8 then some p else none

/-- A safety-partition bank: PARTITION or MODEL_CACHE of the safety partition. -/
def Dev.ownerSafe (d : Dev) (o : W64) : Bool := (fld o 2 0 == 1 || fld o 2 0 == 2) && d.safetyNow == some (fld o 7 4)

/-- A stack site is populated (R364). -/
def Dev.sitePopulated (d : Dev) (k : Nat) : Bool :=
  match d.hbmStacks with
  | 4 => decide (k < 8 ∧ k % 4 < 2)
  | 6 => decide (k < 8 ∧ k % 4 < 3)
  | _ => decide (k < 8)

/-- The populated sites, in increasing order (R364). -/
def Dev.sites (d : Dev) : List Nat := (List.range 8).filter (fun k => d.sitePopulated k)

/-! ### HBM: interleave and ECC (R366, R367) -/

/-- The site that holds an address of local HBM (R366). -/
def Dev.hbmSite (d : Dev) (a : Nat) : Nat := d.sites.getD ((a - 0x10000000000) / 4096 % max 1 d.sites.length) 0

/-- The pseudo-channel that holds it. -/
def hbmPseudo (a : Nat) : Nat := (a - 0x10000000000) / 128 % 32

/-- The address within the stack. -/
def Dev.hbmStackAddr (d : Dev) (a : Nat) : Nat :=
  (a - 0x10000000000) / 4096 / max 1 d.sites.length * 4096 + (a - 0x10000000000) % 4096

/-- The address lies in local HBM. -/
def Dev.inHbm (d : Dev) (a : Nat) : Bool :=
  decide (0x10000000000 ≤ d.localAddr a ∧ d.localAddr a < 0x10000000000 + d.hbmBytes)

/-- What a controller records of a read (R367), and the instant of a corrected error for the scrub loop (R563). -/
def Dev.hbmEcc (d : Dev) (a : Nat) (e : Ecc) : Dev :=
  let l := d.localAddr a
  let k := d.hbmSite l
  if !d.inHbm a then d
  else match e with
    | .clean => d
    | .corrected => ((d.incSat (Off.UMP_ECC_CE k)).setB (Off.UMP_EVENTS k) 1 true).onPower (fun p =>
      { p with scrubCe := KMap.put p.scrubCe k (d.now :: KMap.getD p.scrubCe k []) })
    | .uncorrectable => ((d.incSat (Off.UMP_ECC_UE k)).setAddr (Off.UMP_ECC_ADDR_LO k) (Off.UMP_ECC_ADDR_HI k) l).setB (Off.UMP_EVENTS k) 2 true

/-! ### Scratchpad and every memory (R241) -/

/-- What a read's ECC records at a tile; `off` is the offset within its scratchpad. -/
def Dev.scratchEcc (d : Dev) (t off : Nat) (e : Ecc) : Dev :=
  match e with
  | .clean => d
  | .corrected => (((d.incSat (Off.TILE_SP_ECC_CE t)).wn (Off.TILE_SP_ECC_OFF t) (off % 2 ^ 22)).setB (Off.TILE_BTEST_EVENTS t) 2 true)
  | .uncorrectable => (((d.incSat (Off.TILE_SP_ECC_UE t)).wn (Off.TILE_SP_ECC_OFF t) (off % 2 ^ 22)).setB (Off.TILE_BTEST_EVENTS t) 3 true)

/-- An uncorrectable error in a bank of the safety partition: the doubt trigger, and the reset that follows the end of the command (R241, R404). -/
def Dev.bankDoubt (d : Dev) (t b : Nat) : Dev := d.when (d.ownerSafe (d.bankOwner t b)) (fun e => { e.doubt 5 t with safetyReset := true })

/-- What a read's ECC leaves at the memory that holds the address (R241, R367, R404): a scratchpad bank, whose error in the safety partition also resets
that partition; local HBM; the island's memories. -/
def Dev.memEcc (d : Dev) (a : Nat) (e : Ecc) : Dev :=
  match d.region a with
  | some (.scratch t, _) =>
    (d.scratchEcc t (a - 0x4000000000 - t * 0x400000) e).when (e == .uncorrectable) (fun x => x.bankDoubt t (bankOf a).2)
  | some (.islandSram, _) => d.when (e == .uncorrectable) (fun x => x.doubt 5 0x200)
  | some (.islandDram, _) => d.when (e == .uncorrectable) (fun x => x.doubt 5 0x201)
  | _ => d.hbmEcc a e

end Sys2Proof.Machine
end

