-- ==== Sys2Proof/Machine/Rings.lean ====
section
/-! DEFINITION. Machine/Rings.lean: instances, rings, doorbells, commands in flight and completion records (R95 to R131). -/

namespace Sys2Proof.Machine

/-! ### Instances and commands -/

/-- An instance that nothing has used. -/
def Inst.empty : Inst :=
  { prod := [], usedCmds := 0, usedTileUs := 0, usedKib := 0, served := 0, servedPrev := 0, lastRing := 15, teardown := none,
    oldPart := none, op := 0, frozenOver := 0, frozenUsed := [], opResult := 0, image := [], seqs := [], ranOn := [] }

/-- Instance `i`. -/
def Dev.inst (d : Dev) (i : Nat) : Inst := KMap.getD d.insts i Inst.empty

/-- `d` with instance `i` changed by `g`. -/
def Dev.onInst (d : Dev) (i : Nat) (g : Inst → Inst) : Dev := { d with insts := KMap.put d.insts i (g (d.inst i)) }

/-- Command number `id`, if it is in flight. -/
def Dev.cmd (d : Dev) (id : Nat) : Option Cmd := KMap.find d.cmds id

/-- `d` with command `id` changed by `g`; nothing when it is not in flight. -/
def Dev.onCmd (d : Dev) (id : Nat) (g : Cmd → Cmd) : Dev :=
  match d.cmd id with
  | none => d
  | some c => { d with cmds := KMap.put d.cmds id (g c) }

/-- `d` with command `id` in a phase. -/
def Dev.setPhase (d : Dev) (id : Nat) (p : Phase) : Dev := d.onCmd id (fun c => { c with phase := p })

/-- A DRAW_LIST that has drawn nothing. -/
def DrawSt.start : DrawSt :=
  { list := [], next := 0, seq := 0, prims := [], owner := [], passed := [], entries := [], binUsed := 0, extUsed := 0, usedExt := false
    batch := (0, false), full := false, jobs := [], since := [], depthClear := 0, clear := [], init := [], px := [], stored := [] }

/-- FLAGS.IRQ. -/
def Cmd.irq (c : Cmd) : Bool := nbit (c.at 1 1) 0

/-- FLAGS.ORDERED. -/
def Cmd.ordered (c : Cmd) : Bool := nbit (c.at 1 1) 1

/-- FLAGS.REPORT_KILL. -/
def Cmd.reportKill (c : Cmd) : Bool := nbit (c.at 1 1) 2

/-- GEN (R125). -/
def Cmd.gen (c : Cmd) : Nat := c.at 4 4

/-- BUDGET_US. -/
def Cmd.budgetUs (c : Cmd) : Nat := c.at 8 4

/-- PLAN_ID of RUN_PLAN, LOAD_PLAN and EVICT_PLAN. -/
def Cmd.planId (c : Cmd) : Nat := c.at 0x10 4

/-- DRAW_LIST. -/
def Cmd.isDraw (c : Cmd) : Bool := c.op == 0x30

/-- LOAD_PLAN with PRELOAD or PIN, whose load is admitted in a stream (R600). -/
def Cmd.loads (c : Cmd) : Bool := c.op == 0x02 && (c.at 0x20 1 % 4 != 0)

/-- The scheduling class: the descriptor's CLASS, lowered to the instance's ceiling (R348). -/
def Dev.cmdClass (d : Dev) (c : Cmd) : Nat := min (c.at 3 1 % 4) (d.f (Off.QE_INST_SCHED c.inst) 17 16)

/-- Commands in flight, oldest first, that satisfy `p`. -/
def Dev.cmdsWhere (d : Dev) (p : Cmd → Bool) : List (Nat × Cmd) := d.cmds.filter (fun x => p x.2)

/-- IN_FLIGHT of a ring (R108). -/
def Dev.ringFlight (d : Dev) (i r : Nat) : Nat := (d.cmdsWhere (fun c => c.inst == i && c.ring == r)).length

/-- IN_FLIGHT of an instance (R106). -/
def Dev.instFlight (d : Dev) (i : Nat) : Nat := (d.cmdsWhere (fun c => c.inst == i)).length

/-- Slots of completion ring `c` reserved for commands in flight (R103): QE_CPL_RESV. -/
def Dev.cplResv (d : Dev) (i c : Nat) : Nat := (d.cmdsWhere (fun x => x.inst == i && x.cpl == c)).length

/-- An earlier command of the ring, or of the instance when `all`, is still in flight. -/
def Dev.earlierOpen (d : Dev) (id : Nat) (c : Cmd) (all : Bool) : Bool :=
  d.cmds.any (fun x => decide (x.1 < id) && x.2.inst == c.inst && (all || x.2.ring == c.ring))

/-- The DEADLINE_OVER of a command has passed (R123). -/
def Dev.late (d : Dev) (c : Cmd) : Bool :=
  decide (c.at 0x0C 4 ≠ 0 ∧ signedOf 32 (c.at 0x0C 4 + 2 ^ 32 - d.over % 2 ^ 32) < 0)

/-- The partition in force of an instance (R348). -/
def Dev.instPart (d : Dev) (i : Nat) : Nat := (d.inst i).oldPart.getD (d.f (Off.QE_INST_SCHED i) 2 0)

/-- The instance is bound to the safety partition. -/
def Dev.instSafe (d : Dev) (i : Nat) : Bool := d.safetyNow == some (d.instPart i)

/-- STATE of an instance: 0 STOPPED, 1 RUNNING, 2 FROZEN, 3 TORN_DOWN (R106). -/
def Dev.instState (d : Dev) (i : Nat) : Nat := d.f (Off.QE_INST_STATUS i) 1 0

/-- STATE of a command ring: 0 DISABLED, 1 RUNNING, 2 STOPPED (R108). -/
def Dev.ringState (d : Dev) (i r : Nat) : Nat := d.f (Off.QE_CMD_STATUS i r) 1 0

/-- Entries of command ring `r`. -/
def Dev.ringSize (d : Dev) (i r : Nat) : Nat := 2 ^ d.f (Off.QE_CMD_CTRL i r) 12 8

/-- Entries of completion ring `c`. -/
def Dev.cplSize (d : Dev) (i c : Nat) : Nat := 2 ^ d.f (Off.QE_CPL_CTRL i c) 12 8

/-- A count of descriptors pending in a ring: accepted by doorbell and not picked up (R100). -/
def Dev.ringPending (d : Dev) (i r : Nat) : Nat :=
  (KMap.getD (d.inst i).prod r 0 + 2 ^ 32 - d.n (Off.QE_CMD_CONS i r) % 2 ^ 32) % 2 ^ 32

/-- A command ring stops with an error (R107, R111). -/
def Dev.ringStop (d : Dev) (i r error : Nat) : Dev :=
  ((d.setF (Off.QE_CMD_STATUS i r) 1 0 2).setF (Off.QE_CMD_STATUS i r) 7 4 error).setB (Off.QE_INST_EVENTS i) 1 true

/-! ### Doorbells (R98 to R101) -/

/-- The doorbell's address. -/
def Dev.dbAddr (d : Dev) (i r : Nat) : Nat := d.addr (Off.QE_DB_ADDR_LO i r) (Off.QE_DB_ADDR_HI i r)

/-- A doorbell value read by the queue engine takes effect (R99, R100). -/
def Dev.takeDoorbell (d : Dev) (i r value : Nat) : Dev :=
  let p := value % 2 ^ 32
  if value / 2 ^ 32 % 2 ^ 32 ≠ d.n (Off.QE_DB_GEN i r) % 2 ^ 32 then
    (d.incSat (Off.QE_STALE_DB i)).setB (Off.QE_INST_EVENTS i) 3 true
  else
    let n := (p + 2 ^ 32 - d.n (Off.QE_CMD_CONS i r) % 2 ^ 32) % 2 ^ 32
    if n = 0 then d
    else if n ≤ d.ringSize i r then d.onInst i (fun x => { x with prod := KMap.put x.prod r p })
    else d.ringStop i r 1

/-- The queue engine reads no doorbell of a ring that is not running, of an instance that is not, or before S5 (R101, R353). -/
def Dev.readsDoorbell (d : Dev) (i r : Nat) : Bool :=
  decide (i < 256 ∧ r < 16) && decide (5 ≤ d.stage) && d.instState i == 1 && (d.inst i).op == 0 && (d.inst i).teardown.isNone && d.ringState i r == 1

/-- Reads of doorbells are reported to meet uncorrectable errors (R111). -/
def Dev.reportBad (d : Dev) (l : List DbTarget) : Dev := { d with badDb := l }

/-- Those of them that the reads of Ball `k` meet, of what was reported for the Over. -/
def Dev.reportBall (d : Dev) (k : Nat) : Dev := d.reportBad ((d.badLater.filter (fun x => x.1 == k)).map (fun x => x.2))

/-- A reported error is met by a read of a doorbell at an address, which receives an error response. -/
def Dev.doorbellError (d : Dev) (x : DbTarget) (a : Nat) : Dev := ({ d with badDb := d.badDb.erase x }).memEcc a .uncorrectable

/-- The queue engine reads the doorbell of a ring with the owner's world; a failed read, or an uncorrectable error in it, stops the ring (R111). -/
def State.readDoorbell (s : State) (i r : Nat) : State :=
  if s.dev.readsDoorbell i r then
    match s.readAs (.qe i) (s.dev.dbAddr i r) 8 with
    | (some bs, t) =>
      t.onDev (fun d =>
        if d.badDb.contains (.ring i r) then (d.doorbellError (.ring i r) (d.dbAddr i r)).ringStop i r 3 else d.takeDoorbell i r (leNat bs))
    | (none, t) => t.onDev (fun d => d.ringStop i r 3)
  else s

/-- The enabled command rings, found from the registers held. -/
def Dev.ringsOn (d : Dev) : List (Nat × Nat) :=
  (d.regs.filterMap (fun p =>
    let i := (p.1 - 0x700000) / 0x1000
    let x := p.1 % 0x1000
    if 0x700000 ≤ p.1 ∧ p.1 < 0x800000 ∧ 0x100 ≤ x ∧ x < 0x300 ∧ x % 0x20 = 8 ∧ bitOf p.2 0 then some (i, (x - 0x100) / 0x20) else none))

/-- A ring uses BALL_POLL: its PICKUP says so, or its instance's owner is an external PCIe host (R101). -/
def Dev.ballPoll (d : Dev) (i r : Nat) : Bool := d.b (Off.QE_CMD_CTRL i r) 1 || d.f (Off.QE_INST_CTRL i) 2 1 == 2

/-- The doorbell of every BALL_POLL ring is sampled (R33). -/
def State.pollDoorbells (s : State) : State :=
  s.forAll (s.dev.ringsOn.filter (fun x => s.dev.ballPoll x.1 x.2)) (fun x t => t.readDoorbell x.1 x.2)

/-- The doorbell of every enabled ring is read once, at the first edge of S5 (R101). -/
def State.readAllDoorbells (s : State) : State := s.forAll s.dev.ringsOn (fun x t => t.readDoorbell x.1 x.2)

/-! ### Completion records (R124 to R126) -/

/-- The bytes of a completion record. -/
def recordBytes (c : Cmd) (status detail commitNs commitOver phase : Nat) : List Byte :=
  leBytes 4 c.seq ++ leBytes 2 status ++ leBytes 1 (c.ring % 16 + phase * 128) ++ leBytes 1 (min c.kills 255) ++
    leBytes 4 c.gen ++ leBytes 4 c.startNs ++ leBytes 4 commitNs ++ leBytes 4 c.startOver ++ leBytes 4 commitOver ++
    leBytes 2 (min c.clamps 0xFFFF) ++ leBytes 2 detail

/-- PHASE of the record at index `x` of a ring of `size` entries. -/
def phaseBit (x size : Nat) : Nat := if x / size % 2 = 0 then 1 else 0

/-- A record is written into the next slot of a completion ring, and its producer index advances; a refused write has no
effect (R604). -/
def State.writeRecord (s : State) (c : Cmd) (status detail : Nat) : State :=
  let d := s.dev
  let x := d.n (Off.QE_CPL_PROD c.inst c.cpl)
  let size := d.cplSize c.inst c.cpl
  let a := d.addr (Off.QE_CPL_BASE_LO c.inst c.cpl) (Off.QE_CPL_BASE_HI c.inst c.cpl) + x % size * 32
  ((s.writeAs (.qe c.inst) a (recordBytes c status detail d.nsField (d.over % 2 ^ 32) (phaseBit x size))).2).onDev
    (fun e => e.incWrap (Off.QE_CPL_PROD c.inst c.cpl))

/-- The completion interrupt, when FLAGS.IRQ asks for it (R121). -/
def Dev.cplInterrupt (d : Dev) (c : Cmd) : Dev :=
  d.when c.irq (fun e => e.emit (.cplIrq c.inst (d.f (Off.QE_CPL_CTRL c.inst c.cpl) 20 16)))

/-- Slots of a completion ring that are neither filled nor reserved (R103, R126). -/
def Dev.cplFree (d : Dev) (i c : Nat) : Nat :=
  d.cplSize i c - (d.n (Off.QE_CPL_PROD i c) + 2 ^ 32 - d.n (Off.QE_CPL_CONS i c) % 2 ^ 32) % 2 ^ 32 - d.cplResv i c

/-- What a final status counts besides its record: WCET_REJECT (R359, R363), KV_EXHAUSTED (R298, R312). -/
def Dev.countStatus (d : Dev) (status : Nat) : Dev :=
  if status = 0x24 then (d.incSat Off.SCH_CNT_REJECT).setB Off.SCH_EVENTS 0 true
  else if status = 0x30 then (d.incSat Off.KV_CNT_EXHAUSTED).setB Off.KV_EVENTS 1 true
  else d

/-- A KILLED_RERUN record, if the command asked for one: written into a slot that is free and unreserved, or dropped and counted (R126). -/
def State.killRecord (s : State) (c : Cmd) : State :=
  if !c.reportKill then s
  else if 0 < s.dev.cplFree c.inst c.cpl then s.writeRecord c 0x10 0
  else s.onDev (fun d => (d.incSat (Off.QE_KILL_DROPPED c.inst)).setB (Off.QE_INST_EVENTS c.inst) 2 true)

end Sys2Proof.Machine
end

