-- ==== Sys2Proof/Machine/Codec.lean ====
section
/-! DEFINITION. Machine/Codec.lean: video codec sessions and their jobs (R487 to R489, R494). -/

namespace Sys2Proof.Machine

/-- Session `s`. -/
def Dev.session (d : Dev) (s : Nat) : Session := KMap.getD d.media.sessions s { prod := 0, job := none }

/-- `d` with session `s` changed. -/
def Dev.onSession (d : Dev) (s : Nat) (g : Session → Session) : Dev :=
  d.onMedia (fun m => { m with sessions := KMap.put m.sessions s (g (d.session s)) })

/-- The instance that owns a session. -/
def Dev.vcOwner (d : Dev) (s : Nat) : Nat := d.effF (Off.VC_CTRL s) 15 8

/-- Entries of a session's rings. -/
def Dev.vcSize (d : Dev) (s : Nat) : Nat := 2 ^ d.effF (Off.VC_CTRL s) 27 24

/-- STATE of a session: 0 DISABLED, 1 RUNNING, 2 STOPPED. -/
def Dev.vcState (d : Dev) (s : Nat) : Nat := d.f (Off.VC_STATUS s) 1 0

/-- A session stops with an error, as a command ring does (R111, R494). -/
def Dev.vcStop (d : Dev) (s error : Nat) : Dev := (d.setF (Off.VC_STATUS s) 1 0 2).setF (Off.VC_STATUS s) 7 4 error

/-- Jobs accepted by doorbell and not taken. -/
def Dev.vcPending (d : Dev) (s : Nat) : Nat := ((d.session s).prod + 2 ^ 32 - d.n (Off.VC_CONS s) % 2 ^ 32) % 2 ^ 32

/-- A doorbell value takes effect for a session (R99, R100, R488). -/
def Dev.vcDoorbell (d : Dev) (s value : Nat) : Dev :=
  let p := value % 2 ^ 32
  if value / 2 ^ 32 % 2 ^ 32 ≠ d.n (Off.VC_DB_GEN s) % 2 ^ 32 then
    (d.incSat (Off.QE_STALE_DB (d.vcOwner s))).setB (Off.QE_INST_EVENTS (d.vcOwner s)) 3 true
  else
    let n := (p + 2 ^ 32 - d.n (Off.VC_CONS s) % 2 ^ 32) % 2 ^ 32
    if n = 0 then d
    else if n ≤ d.vcSize s then d.onSession s (fun x => { x with prod := p })
    else d.vcStop s 1

/-- A session's doorbell is read with its owner's world, while the session runs and from S5 on (R101, R111, R488). -/
def State.readVcDoorbell (t : State) (s : Nat) : State :=
  if decide (5 ≤ t.dev.stage) && t.dev.vcState s == 1 then
    match t.readAs (.codec s) (t.dev.effAddr (Off.VC_DB_ADDR_LO s) (Off.VC_DB_ADDR_HI s)) 8 with
    | (some bs, u) =>
      u.onDev (fun d =>
        if d.badDb.contains (.session s) then (d.doorbellError (.session s) (d.effAddr (Off.VC_DB_ADDR_LO s) (Off.VC_DB_ADDR_HI s))).vcStop s 3
        else d.vcDoorbell s (leNat bs))
    | (none, u) => u.onDev (fun d => d.vcStop s 3)
  else t

/-- A session is polled at Ball edges when its owner is an external host (R488). -/
def Dev.vcPoll (d : Dev) (s : Nat) : Bool := d.f (Off.QE_INST_CTRL (d.vcOwner s)) 2 1 == 2

/-! ### Watched lines (R101) -/

/-- The 64-byte line at `a` is touched by `n` bytes from `b`. -/
def lineTouched (a b n : Nat) : Bool := decide (0 < n ∧ b / 64 ≤ a / 64 ∧ a / 64 ≤ (b + n - 1) / 64)

/-- The doorbell address of a session. -/
def Dev.vcDbAddr (d : Dev) (s : Nat) : Nat := d.effAddr (Off.VC_DB_ADDR_LO s) (Off.VC_DB_ADDR_HI s)

/-- A write of `n` bytes at `a` becomes visible: the doorbells that watch a line it touches are read (R101, R488). -/
def State.watchLines (t : State) (a n : Nat) : State :=
  let b := t.dev.localAddr a
  let rings := t.dev.ringsOn.filter (fun x => !t.dev.ballPoll x.1 x.2 && lineTouched (t.dev.localAddr (t.dev.dbAddr x.1 x.2)) b n)
  let sess := (List.range 16).filter (fun s => t.dev.vcState s == 1 && !t.dev.vcPoll s && lineTouched (t.dev.localAddr (t.dev.vcDbAddr s)) b n)
  (t.forAll rings (fun x u => u.readDoorbell x.1 x.2)).forAll sess (fun s u => u.readVcDoorbell s)

/-- A write by a master, and what the queue engine and the codecs do on it. -/
def State.storeAs (s : State) (m : Master) (a : Nat) (bs : List Byte) : Bool × State :=
  match s.writeAs m a bs with
  | (true, t) => (true, t.watchLines a bs.length)
  | (false, t) => (false, t)

/-- The doorbells of polled sessions are sampled (R33, R488). -/
def State.pollSessions (t : State) : State :=
  t.forAll ((List.range 16).filter (fun s => t.dev.vcPoll s)) (fun s u => u.readVcDoorbell s)

/-- Every session's doorbell is read once, at the first edge of S5 (R101, R488). -/
def State.readAllSessions (t : State) : State := t.forAll (List.range 16) (fun s u => u.readVcDoorbell s)

/-! ### Jobs (R488, R489) -/

/-- A number of a job descriptor. -/
def CodecJob.at (j : CodecJob) (off n : Nat) : Nat := leAt j.desc off n

/-- Bytes per sample of the job's picture format. -/
def CodecJob.sample (j : CodecJob) : Nat := if j.at 0x24 1 = 1 then 2 else 1

/-- Pixels of the job's picture. -/
def CodecJob.pixels (j : CodecJob) : Nat := j.at 0x20 2 * j.at 0x22 2

/-- Bytes of the job's picture, 4:2:0. -/
def CodecJob.picture (j : CodecJob) : Nat := j.pixels * 3 * j.sample / 2

/-- Context memory the job needs (R488). -/
def CodecJob.context (j : CodecJob) : Nat := 2 * (8 * j.pixels * 3 * j.sample / 2 + 2 ^ 20)

/-- The bytes a descriptor must hold zero (R488). -/
def CodecJob.reservedOk (j : CodecJob) : Bool :=
  decide (j.at 4 4 < 4) && j.at 0x26 2 == 0 && j.at 0x2C 4 == 0 && (slice j.desc 0x38 8).all (fun b => b == 0) && decide (j.at 8 8 < 2 ^ 52 ∧ j.at 0x18 8 < 2 ^ 52)

/-- The job is within what the codecs do (R487). -/
def CodecJob.sizeOk (j : CodecJob) : Bool :=
  decide (64 ≤ j.at 0x20 2 ∧ j.at 0x20 2 ≤ 4096 ∧ 64 ≤ j.at 0x22 2 ∧ j.at 0x22 2 ≤ 2304 ∧ j.at 0x24 1 ≤ 1)

/-- The codec takes the next job of a session: sessions of one codec are served round-robin, one job at a time (R487). -/
def Dev.vcCan (d : Dev) (s : Nat) (encode : Bool) (last : Nat) : Bool :=
  let ready := fun (x : Nat) => d.vcState x == 1 && d.effB (Off.VC_CTRL x) 1 == encode && d.vcPending x != 0 &&
    decide ((d.n (Off.VC_CPL_PROD x) + 2 ^ 32 - d.n (Off.VC_CPL_CONS x) % 2 ^ 32) % 2 ^ 32 < d.vcSize x)
  let busy := (List.range 16).any (fun x => d.effB (Off.VC_CTRL x) 1 == encode && (d.session x).job.isSome)
  decide (s < 16) && d.domOn (if encode then 36 else 35) && !busy && ((List.range 16).map (fun k => (last + 1 + k) % 16)).find? ready == some s

/-- A session's next job is taken: its descriptor is read with the owner's world; a read that is refused or has an uncorrectable error stops
the session (R111, R488). -/
def State.vcTake (t : State) (s : Nat) (ecc : Ecc) : State :=
  let d := t.dev
  let x := d.n (Off.VC_CONS s)
  afterRead (t.readAs (.codec s) (d.effAddr (Off.VC_RING_BASE_LO s) (Off.VC_RING_BASE_HI s) + x % d.vcSize s * 64) 64)
    (fun u => u.onDev (fun e => e.vcStop s 2))
    (fun desc u => u.onDev (fun f =>
      let e := f.memEcc (d.effAddr (Off.VC_RING_BASE_LO s) (Off.VC_RING_BASE_HI s) + x % d.vcSize s * 64) ecc
      if ecc = .uncorrectable then e.vcStop s 2
      else (e.incWrap (Off.VC_CONS s)).onSession s (fun y => { y with job := some { x := x, desc := desc, startNs := e.nsField } })))

/-- DECODE_JOB (R487, R488): the decoder takes the session's next job. -/
def execDecodeJob (j : JobRead) (t : State) : Host.Outcome State Fault Refusal :=
  .next (if t.dev.vcCan j.session false t.dev.media.lastDec then
    (t.vcTake j.session j.ecc).onDev (fun d => d.onMedia (fun m => { m with lastDec := j.session })) else t)

/-- ENCODE_JOB (R487, R488): the encoder takes the session's next job. -/
def execEncodeJob (j : JobRead) (t : State) : Host.Outcome State Fault Refusal :=
  .next (if t.dev.vcCan j.session true t.dev.media.lastEnc then
    (t.vcTake j.session j.ecc).onDev (fun d => d.onMedia (fun m => { m with lastEnc := j.session })) else t)

/-- The effects of a session's ENABLE, in force with the value `is` after `was` (R488, R494). -/
def Dev.vcSwitch (d : Dev) (s : Nat) (was is : Bool) : Dev :=
  if is && !was then
    ((((d.wn (Off.VC_CONS s) 0).wn (Off.VC_CPL_PROD s) 0).incWrap (Off.VC_DB_GEN s)).onSession s (fun x => { x with prod := 0 })).wn (Off.VC_STATUS s) 1
  else if was && !is then d.setF (Off.VC_STATUS s) 1 0 0
  else d

/-- The registers of a session take their applied values, its work being complete (R490). -/
def Dev.vcTakeApplied (d : Dev) (s : Nat) : Dev :=
  let e := d.takeApplied (Off.VC_CTRL s) (Off.VC_CTRL s + 0x40)
  e.vcSwitch s (d.effB (Off.VC_CTRL s) 0) (e.b (Off.VC_CTRL s) 0)

/-- A job's completion record is written, the producer index advances and the interrupt is raised if asked for (R489). -/
def State.vcRecord (t : State) (s : Nat) (j : CodecJob) (status flags used pts : Nat) : State :=
  let d := t.dev
  let size := d.vcSize s
  let rec_ := leBytes 4 j.x ++ leBytes 2 status ++ leBytes 1 (flags + 128 * phaseBit j.x size) ++ [0] ++ leBytes 4 (j.at 0 4) ++
    leBytes 4 used ++ leBytes 8 pts ++ leBytes 4 j.startNs ++ leBytes 4 d.nsField
  ((t.storeAs (.codec s) (d.effAddr (Off.VC_CPL_BASE_LO s) (Off.VC_CPL_BASE_HI s) + j.x % size * 32) rec_).2).onDev (fun e =>
    let f := (e.incWrap (Off.VC_CPL_PROD s)).onSession s (fun y => { y with job := none })
    (f.when (nbit (j.at 4 4) 0) (fun g => g.emit (.cplIrq (e.vcOwner s) (e.effF (Off.VC_CTRL s) 20 16)))).vcTakeApplied s)

/-- A running job ends with what the codec standard makes of it. -/
def State.vcEnd (t : State) (s : Nat) (j : CodecJob) (supported picture key concealed : Bool) (pts : Nat) (out : List Byte)
    (ecc : Ecc) : State :=
  let d := t.dev
  let encode := d.effB (Off.VC_CTRL s) 1
  let flush := !encode && nbit (j.at 4 4) 1
  let need := if encode then out.length else j.picture
  let ctx := d.effAddr (Off.VC_CTX_BASE_LO s) (Off.VC_CTX_BASE_HI s)
  let ctxLen := (d.eff (Off.VC_CTX_MIB s)).toNat * 2 ^ 20
  -- PTS is carried to the record; a decode job's is that of the picture put out (R488, R489)
  let carried := j.at 0x30 8
  let made := if encode then out else if picture then out.take j.picture else []
  if !j.reservedOk || !j.sizeOk || !supported || decide (j.at 0x14 4 < need ∨ ctxLen < j.context) then
    t.vcRecord s j 0x20 0 need carried
  else match (if flush then (some [], t) else t.readAs (.codec s) (j.at 8 8) (j.at 0x10 4)) with
    | (none, u) => u.vcRecord s j 0x22 0 0 carried
    | (some _, r) =>
      let u := r.onDev (fun e => e.when (!flush) (fun f => f.memEcc (j.at 8 8) ecc))
      if ecc = .uncorrectable ∧ flush = false then u.vcRecord s j 0x32 0 0 carried
      else match (u.dev.verdict (.codec s) (u.dev.world (.codec s)) .write ctx j.context) with
        | .ok =>
          match (if made.isEmpty then (true, u) else u.storeAs (.codec s) (j.at 0x18 8) made) with
          | (false, v) => v.vcRecord s j 0x22 0 0 carried
          | (true, v) => (v.fillFree ctx j.context).vcRecord s j 0
              (cond (!made.isEmpty && !encode) 1 0 + cond key 2 0 + cond concealed 4 0) made.length (if made.isEmpty || encode then carried else pts)
        | w => (u.onDev (fun e => e.refuse w ctx)).vcRecord s j 0x22 0 0 carried

/-- CODEC_JOB_DONE (R489): the running job of a session completes. -/
def execCodecJobDone (s : Nat) (supported picture key concealed : Bool) (pts : Nat) (out : List Byte) (ecc : Ecc) (t : State) :
    Host.Outcome State Fault Refusal :=
  .next (match (t.dev.session s).job with
    | none => t
    | some j => t.vcEnd s j supported picture key concealed pts out ecc)

/-- A teardown of instance `i` ends the running job of each of its sessions and stops the session (R489). -/
def State.vcTeardown (t : State) (i : Nat) : State :=
  t.forAll ((List.range 16).filter (fun s => t.dev.vcOwner s == i && t.dev.vcState s == 1)) (fun s u =>
    (match (u.dev.session s).job with
      | none => u
      | some j => u.vcRecord s j 0x11 0 0 (j.at 0x30 8)).onDev (fun d => d.when (d.vcState s == 1) (fun e => e.vcStop s 0)))

end Sys2Proof.Machine
end

