-- ==== Sys2Proof/Machine/PlanImage.lean ====
section
/-! DEFINITION. Machine/PlanImage.lean: the plan image: header, port table, WCET table, judge table, and LOAD_PLAN's checks (R321 to R324, R432). -/

namespace Sys2Proof.Machine

/-- A port entry (R322). -/
structure Port where
  port : Nat
  kind : Nat
  fmt : Nat
  pfl : Nat
  length : Nat
  scaleOff : Nat
  count : Nat
  deriving DecidableEq, Repr

/-- A WCET entry (R323). -/
structure Wcet where
  tiles : Nat
  bw : Nat
  cyclesA : Nat
  cyclesB : Nat
  weightBanks : Nat
  workBanks : Nat
  deriving DecidableEq, Repr

/-- A judge entry (R432). -/
structure JudgeEntry where
  pred : Nat
  k : Nat
  flags : Nat
  rowLen : Nat
  abs : W32
  rel : W32
  deriving DecidableEq, Repr

/-! ### Fields of an image -/

/-- PFLAGS.SAFETY. -/
def imgSafety (m : List Byte) : Bool := nbit (leAt m 6 2) 0

/-- PORT_COUNT. -/
def imgPortCount (m : List Byte) : Nat := leAt m 0x18 2

/-- WCET_COUNT. -/
def imgWcetCount (m : List Byte) : Nat := leAt m 0x1A 1

/-- CREDIT. -/
def imgCredit (m : List Byte) : Nat := leAt m 0x1B 1

/-- MAX_OUTSTANDING. -/
def imgReads (m : List Byte) : Nat := leAt m 0x1C 2

/-- BTEST_INTERVAL. -/
def imgBtest (m : List Byte) : Nat := leAt m 0x1E 2

/-- RES_BYTES. -/
def imgRes (m : List Byte) : Nat := leAt m 0x20 4

/-- PORT_OFF, WCET_OFF, CODE_OFF and RES_OFF. -/
def imgPortOff (m : List Byte) : Nat := leAt m 0x24 4
/-- WCET_OFF. -/
def imgWcetOff (m : List Byte) : Nat := leAt m 0x28 4
/-- CODE_OFF. -/
def imgCodeOff (m : List Byte) : Nat := leAt m 0x2C 4
/-- RES_OFF. -/
def imgResOff (m : List Byte) : Nat := leAt m 0x30 4

/-- The port entry at an offset. -/
def portAt (m : List Byte) (o : Nat) : Port :=
  { port := leAt m o 1, kind := leAt m (o + 1) 1, fmt := leAt m (o + 2) 1, pfl := leAt m (o + 3) 1, length := leAt m (o + 4) 4,
    scaleOff := leAt m (o + 8) 4, count := leAt m (o + 12) 4 }

/-- The port table, in its order. -/
def imgPorts (m : List Byte) : List Port := (List.range (imgPortCount m)).map (fun i => portAt m (imgPortOff m + 16 * i))

/-- The WCET entry at an offset. -/
def wcetAt (m : List Byte) (o : Nat) : Wcet :=
  { tiles := leAt m o 1, bw := leAt m (o + 2) 2, cyclesA := leAt m (o + 4) 4, cyclesB := leAt m (o + 8) 4,
    weightBanks := leAt m (o + 12) 1, workBanks := leAt m (o + 13) 1 }

/-- The WCET table. -/
def imgWcets (m : List Byte) : List Wcet := (List.range (imgWcetCount m)).map (fun i => wcetAt m (imgWcetOff m + 16 * i))

/-- Where the judge table begins: directly after the port table (R432). -/
def imgJudgeOff (m : List Byte) : Nat := imgPortOff m + 16 * imgPortCount m

/-- The judge entry at an offset. -/
def judgeAt (m : List Byte) (o : Nat) : JudgeEntry :=
  { pred := leAt m o 1, k := leAt m (o + 1) 1, flags := leAt m (o + 2) 2, rowLen := leAt m (o + 4) 4,
    abs := BitVec.ofNat 32 (leAt m (o + 8) 4), rel := BitVec.ofNat 32 (leAt m (o + 12) 4) }

/-- The judge table; empty for a plan that is not SAFETY. -/
def imgJudges (m : List Byte) : List JudgeEntry :=
  if imgSafety m then (List.range (imgPortCount m)).map (fun i => judgeAt m (imgJudgeOff m + 16 * i)) else []

/-- The least region length of a port: a scaled port covers its scale array too (R322). -/
def Port.isScaled (p : Port) : Bool := nbit p.pfl 0

/-- Geometry a KIND 2 port declares: Ln, log2 Tp, Bt and the span in tokens (R286, R287, R322). -/
def Port.kvLanes (p : Port) : Nat := p.length % 2 ^ 16
/-- log2 Tp. -/
def Port.kvLog2Tp (p : Port) : Nat := nfld p.length 19 16
/-- Bt. -/
def Port.kvBt (p : Port) : Nat := p.scaleOff
/-- The span. -/
def Port.kvSpan (p : Port) : Nat := p.count

/-- Ports that are judged, in table order, with their entries and predicate. -/
def imgJudged (m : List Byte) : List (Port × JudgeEntry) :=
  ((imgPorts m).zip (imgJudges m)).filter (fun x => x.2.pred != 0)

/-- The judged bytes of one copy: J (R434). -/
def imgJudgedBytes (m : List Byte) : Nat := ((imgJudged m).map (fun x => x.1.length)).sum

/-- Bytes of the plan's scratch ports, per copy. -/
def imgScratchBytes (m : List Byte) : Nat := (((imgPorts m).filter (fun p => p.kind == 3)).map (fun p => p.length)).sum

/-! ### LOAD_PLAN's checks (R324) -/

/-- The CRC-64 that ends an image, over every byte before it. -/
def crcEndOk (m : List Byte) : Bool := decide (8 ≤ m.length) && leAt m (m.length - 8) 8 == crcOf 1 (m.take (m.length - 8))

/-- Blocks of scales of a port (R201). -/
def Port.blocks (p : Port) : Nat := (p.count + (convOf p.fmt).block - 1) / max 1 (convOf p.fmt).block

/-- A port entry is within its ranges (R192, R286, R287, R322). -/
def Port.ok (p : Port) (safety : Bool) : Bool :=
  decide (p.kind ≤ 4) && (p.kind != 4 || safety) && decide (p.pfl < 16) && !srcConvBad p.fmt &&
    (if p.kind = 2 then
      decide (1 ≤ p.kvLanes ∧ p.kvLanes ≤ 256 ∧ p.kvLog2Tp ≤ 10 ∧ p.length < 2 ^ 20 ∧ p.kvBt % 64 = 0 ∧ 0 < p.kvBt ∧
        2 ^ p.kvLog2Tp * p.kvBt ≤ 65536 ∧ p.kvSpan ≤ 1048576)
    else
      ((convOf p.fmt).block == 0 || p.isScaled) &&
        (!p.isScaled || (convOf p.fmt).block == 0 || decide (p.scaleOff + p.blocks ≤ p.length)))

/-- A WCET entry is within its ranges (R323, R324); `z`: the bytes that must be zero are. -/
def Wcet.ok (w : Wcet) (safety z : Bool) : Bool :=
  decide (1 ≤ w.tiles ∧ w.tiles ≤ (if safety then 32 else 64) ∧ w.weightBanks ≤ 32 ∧ w.workBanks ≤ 32 ∧
    w.weightBanks + w.workBanks ≤ 32) && (safety || w.cyclesB == 0) && z

/-- A judge entry fits its port (R432). -/
def judgeOk (p : Port) (j : JudgeEntry) : Bool :=
  decide (j.pred ≤ 4) && (if j.pred = 3 then decide (1 ≤ j.k ∧ j.k ≤ 64) else j.k == 0) && decide (j.flags < 2) &&
    (j.pred == 2 || j.pred == 3 || j.rowLen == 0) && f32Finite j.abs && f32Finite j.rel && !bitOf (j.abs.zeroExtend 64) 31 &&
    !bitOf (j.rel.zeroExtend 64) 31 &&
    (j.pred == 0 || p.kind == 1 || p.kind == 4) && (p.kind != 4 || j.pred == 1) &&
    (j.pred != 4 || (!p.isScaled && (fmtFp (p.fmt % 16)).isNone)) &&
    (!(j.pred == 2 || j.pred == 3) || (j.rowLen != 0 && p.count % max 1 j.rowLen == 0 && decide (j.k ≤ j.rowLen)))

/-- The limits of R152 on a launch. -/
def VLaunch.ok (l : VLaunch) : Bool :=
  l.grid.all (fun n => decide (1 ≤ n ∧ n ≤ 65535)) && decide (32 ≤ l.threads ∧ l.threads ≤ 1024 ∧ l.threads % 32 = 0) &&
    decide (l.grid.prod * l.threads ≤ 16777216)

/-- A conversion that a plan may hold: its source byte and its target byte (R192). -/
def convPairOk (src dst : Nat) : Bool :=
  !srcConvBad src && !convBad dst && !((convOf dst).sr && (convOf dst).fmt == 13 && (convOf src).fmt == 13)

/-- The span of an attention layer: the COUNT of its KIND 2 port, or its own (R286, R322). -/
def layerSpan (m : List Byte) (l : AttLayer) : Nat :=
  match l.keys with
  | .seq p _ => ((imgPorts m).find? (fun x => x.port == p && x.kind == 2)).elim l.span (fun x => x.kvSpan)
  | .own _ => l.span

/-- The limits of R286 and R307 on an attention layer. -/
def layerOk (m : List Byte) (l : AttLayer) : Bool :=
  if l.retrieval.isSome then decide (layerSpan m l ≤ 1048576 ∧ l.dh * l.hkv ≤ 2048) else decide (layerSpan m l ≤ 65536)

/-- What the streams declare keeps the limits of R152, R192, R286 and R307 (R324). -/
def codeOk (m : List Byte) (code : CodeInfo) : Bool :=
  code.launches.all VLaunch.ok && code.convs.all (fun x => convPairOk x.1 x.2) && code.att.all (layerOk m)

/-- Header fields, tables and counts within the ranges of R321 to R323 and R432, and the limits of the streams at CODE_OFF, whose format
the spec does not give: `code` is what they declare. -/
def imageOk (m : List Byte) (bytes shadow : Nat) (code : CodeInfo) : Bool :=
  let sf := imgSafety m
  let ports := imgPorts m
  let n := m.length
  leAt m 0 4 == 0x4E414C50 && leAt m 4 2 == 1 && decide (leAt m 6 2 < 2) && leAt m 0x10 4 == bytes && bytes == n &&
    decide (72 ≤ n) && (slice m 0x34 12).all (fun b => b == 0) &&
    decide (1 ≤ imgPortCount m ∧ imgPortCount m ≤ 256 ∧ 1 ≤ imgWcetCount m ∧ imgWcetCount m ≤ 32 ∧ 1 ≤ imgCredit m ∧
      imgCredit m ≤ 64 ∧ 16 ≤ imgReads m ∧ imgReads m ≤ 512 ∧ 4 ≤ imgBtest m ∧ imgBtest m ≤ 4095) &&
    decide (64 ≤ imgPortOff m ∧ imgPortOff m + 16 * imgPortCount m * (if sf then 2 else 1) ≤ n - 8 ∧ 64 ≤ imgWcetOff m ∧
      imgWcetOff m + 16 * imgWcetCount m ≤ n - 8 ∧ 64 ≤ imgCodeOff m ∧ imgCodeOff m ≤ n - 8 ∧ 64 ≤ imgResOff m ∧
      imgResOff m + imgRes m ≤ n - 8) &&
    ports.all (fun p => p.ok sf) && decide ((ports.map (fun p => p.port)).Nodup) &&
    (List.range (imgWcetCount m)).all (fun i =>
      (wcetAt m (imgWcetOff m + 16 * i)).ok sf
        (leAt m (imgWcetOff m + 16 * i + 1) 1 == 0 && leAt m (imgWcetOff m + 16 * i + 14) 2 == 0)) &&
    (!sf || (!(imgJudged m).isEmpty && (ports.zip (imgJudges m)).all (fun x => judgeOk x.1 x.2) &&
      decide (imgJudgedBytes m + imgScratchBytes m ≤ shadow))) && codeOk m code

/-- LS_IDENT matches the image (R324). -/
def Dev.identOk (d : Dev) (m : List Byte) : Bool :=
  Nat.land d.lsIdent (leAt m 0x0C 4) == Nat.land (leAt m 0x08 4) (leAt m 0x0C 4)

/-! ### The plan table -/

/-- The registered plan `planId` of an instance. -/
def Dev.plan (d : Dev) (inst planId : Nat) : Option Plan := d.plans.find? (fun p => p.inst == inst && p.planId == planId)

/-- `d` with a registered plan changed. -/
def Dev.onPlan (d : Dev) (inst planId : Nat) (g : Plan → Plan) : Dev :=
  { d with plans := d.plans.map (fun p => if p.inst = inst ∧ p.planId = planId then g p else p) }

/-- The plan of a RUN_PLAN. -/
def Dev.cmdPlan (d : Dev) (c : Cmd) : Option Plan := if c.isRun then d.plan c.inst c.planId else none

/-- Commands in flight that use a plan (R116). -/
def Dev.planBusy (d : Dev) (inst planId : Nat) : Bool := d.cmds.any (fun x => x.2.isRun && x.2.inst == inst && x.2.planId == planId)

/-- A plan is resident (R326): a SAFETY plan on both streams, any other on one; RES_BYTES 0 counts as resident. -/
def Plan.isResident (p : Plan) : Bool :=
  imgRes p.image == 0 || (if imgSafety p.image then p.resident.contains 0 && p.resident.contains 1 else !p.resident.isEmpty)

/-- Plans that count towards the 256 of the model cache (R326). -/
def Dev.cachedPlans (d : Dev) : Nat := (d.plans.filter (fun p => imgRes p.image != 0 && p.isResident)).length

/-- Eviction frees a plan's banks at once, without a scrub (R327). -/
def Plan.evicted (p : Plan) : Plan := { p with resident := [], banks := [], evictDue := none }

/-- A plan leaves the cache, and the plan table too when `unregister` (R116). -/
def Dev.evict (d : Dev) (inst planId : Nat) (unregister : Bool) : Dev :=
  if unregister then { d with plans := d.plans.filter (fun p => !(p.inst == inst && p.planId == planId)) }
  else d.onPlan inst planId (fun p => { p.evicted with pinned := false, reload := none })

/-- EVICT_PLAN at commit: at once, or when the last command of the plan has completed (R116). -/
def Dev.evictAtCommit (d : Dev) (inst planId : Nat) (unregister : Bool) : Dev :=
  if d.planBusy inst planId then
    d.onPlan inst planId (fun p => { p with pinned := false, evictDue := some (unregister || p.evictDue == some true) })
  else d.evict inst planId unregister

/-- A deferred eviction takes effect once no command of the plan is in flight (R116). -/
def Dev.deferredEviction (d : Dev) (inst planId : Nat) : Dev :=
  match d.plan inst planId with
  | some p => match p.evictDue with
    | some u => if d.planBusy inst planId then d else d.evict inst planId u
    | none => d
  | none => d

end Sys2Proof.Machine
end

