-- ==== Sys2Proof/Machine/Kv.lean ====
section
/-! DEFINITION. Machine/Kv.lean: the key-value page manager: records, the pool, reservations, growth and recycling (R287 to R306, R311, R312). -/

namespace Sys2Proof.Machine

/-- A record that no sequence has used: FREE. -/
def KvRec.empty : KvRec :=
  { tag := 0, st := 0, window := false, inst := 0, lanes := 0, log2tp := 0, bt := 0, length := 0, firstS := 0, maxPages := 0,
    slots := [], heldPages := [], headRow := 0, headSlot := 0, spareRows := 0, gen := 0, recycled := 0, shared := false, dirs := [] }

/-- Record `x` of the page manager. -/
def Dev.kvRec (d : Dev) (x : Nat) : KvRec := KMap.getD d.kv.recs x KvRec.empty

/-- `d` with the page manager changed. -/
def Dev.onKv (d : Dev) (g : Kv → Kv) : Dev := { d with kv := g d.kv }

/-- KV_STATUS.READY (R311). -/
def Dev.kvReady (d : Dev) : Bool := d.b Off.KV_STATUS 0

/-- Free pool pages. -/
def Dev.kvFree (d : Dev) : Nat := d.n Off.KV_POOL_PAGES - d.kv.pages.length

/-- Free directory pages. -/
def Dev.kvFreeDir (d : Dev) : Nat := d.n Off.KV_DIR_PAGES - d.kv.dirs.length

/-- Free pool records (R289). -/
def Dev.kvFreeRecs (d : Dev) : Nat := 0xFE00 - (d.kv.recs.filter (fun p => p.2.st != 0)).length

/-- The free counts are shown, and LOW_WATER is set when free pages fall below KV_LOW_WATER (R312). -/
def Dev.kvSync (d : Dev) : Dev :=
  if d.kvReady then
    let e := ((d.wn Off.KV_FREE_PAGES d.kvFree).wn Off.KV_FREE_DIR d.kvFreeDir).wn Off.KV_FREE_RECORDS d.kvFreeRecs
    e.when (decide (d.kvFree < d.n Off.KV_LOW_WATER ∧ d.n Off.KV_LOW_WATER ≤ d.n Off.KV_FREE_PAGES)) (fun x => x.setB Off.KV_EVENTS 0 true)
  else d

/-- The first number from `x` on, below `total` and round from 0, that is not taken. -/
def pickFree (total : Nat) (taken : Nat → Bool) : Nat → Nat → Option Nat
  | 0, _ => none
  | fuel + 1, x => if total = 0 then none else if taken (x % total) then pickFree total taken fuel (x + 1) else some (x % total)

/-- One page leaves the pool: which one the spec leaves open, so it is found from a free value. -/
def Dev.kvTake1 (d : Dev) : Option (Nat × Dev) :=
  match pickFree (d.n Off.KV_POOL_PAGES) (fun p => (KMap.find d.kv.pages p).isSome) (d.kv.pages.length + 1) d.takeFree.1.toNat with
  | none => none
  | some p => some (p, d.takeFree.2.onKv (fun k => { k with pages := KMap.put k.pages p 0 }))

/-- `n` pages leave the pool, or none do. -/
def Dev.kvTake (d : Dev) : Nat → Option (List Nat × Dev)
  | 0 => some ([], d)
  | n + 1 =>
    match d.kvTake n with
    | none => none
    | some (l, e) => (e.kvTake1).map (fun x => (l ++ [x.1], x.2))

/-- Pages go back to the pool. -/
def Dev.kvGive (d : Dev) (ps : List Nat) : Dev := d.onKv (fun k => { k with pages := ps.foldl (fun m p => KMap.del m p) k.pages })

/-- The number of sequences that map a page (R293). -/
def Dev.kvCount (d : Dev) (p : Nat) : Nat := KMap.getD d.kv.pages p 0

/-- `n` directory pages are taken, or none are. -/
def Dev.kvTakeDirs (d : Dev) : Nat → Option (List Nat × Dev)
  | 0 => some ([], d)
  | n + 1 =>
    match d.kvTakeDirs n with
    | none => none
    | some (l, e) =>
      (pickFree (e.n Off.KV_DIR_PAGES) (fun p => e.kv.dirs.contains p) (e.kv.dirs.length + 1) e.takeFree.1.toNat).map
        (fun p => (l ++ [p], e.takeFree.2.onKv (fun k => { k with dirs := p :: k.dirs })))

/-- Directory pages go back. -/
def Dev.kvGiveDirs (d : Dev) (ps : List Nat) : Dev := d.onKv (fun k => { k with dirs := k.dirs.filter (fun p => !ps.contains p) })

/-- A free record: which one is a free choice. -/
def Dev.kvTakeRec (d : Dev) : Option (Nat × Dev) :=
  (pickFree 0xFE00 (fun x => (d.kvRec x).st != 0 || d.cmds.any (fun c => c.2.kvNew.any (fun y => y.1 == x)) ||
      d.insts.any (fun i => i.2.seqs.any (fun y => y.1 == x))) 0xFE00 d.takeFree.1.toNat).map
    (fun x => (x, d.takeFree.2))

/-! ### Handles and geometry -/

/-- A handle from record and tag. -/
def handleOf (x tag : Nat) : Nat := x + tag * 2 ^ 16

/-- The tag after `t`: 1 to 0xFFFE, wrapping (R289). -/
def nextTag (t : Nat) : Nat := if t < 0xFFFE then t + 1 else 1

/-- KV_RSV_SEQ in force (R305). -/
def Dev.rsvSeq (d : Dev) (n : Nat) : W64 := (KMap.find d.kv.rsvOld n).getD (d.r (Off.KV_RSV_SEQ n))

/-- MAX_ROWS, LANES, FIRST_ROWS and SPARE_ROWS of a KV_RSV_SEQ value (R313). -/
def rsvRows (v : W64) : Nat := fld v 20 0
/-- Ln. -/
def rsvLanes (v : W64) : Nat := fld v 28 21 + 1
/-- Tp. -/
def rsvTp (v : W64) : Nat := 2 ^ fld v 32 29
/-- FIRST_ROWS. -/
def rsvFirst (v : W64) : Nat := fld v 39 33
/-- SPARE_ROWS. -/
def rsvSpare (v : W64) : Nat := fld v 46 40
/-- POLICY WINDOW. -/
def rsvWindow (v : W64) : Bool := bitOf v 47
/-- ENABLE. -/
def rsvOn (v : W64) : Bool := bitOf v 63

/-- The start of reserved sequence `n`: the enabled sequences of its partition lie one after another (R303). -/
def Dev.rsvBase (d : Dev) (n : Nat) : Nat :=
  d.addr (Off.KV_RSV_BASE_LO (n / 64)) (Off.KV_RSV_BASE_HI (n / 64)) +
    (((List.range (n % 64)).map (fun j => n / 64 * 64 + j)).filter (fun k => rsvOn (d.rsvSeq k))).foldl
      (fun a k => a + rsvRows (d.rsvSeq k) * rsvLanes (d.rsvSeq k) * (68 * 1024)) 0

/-- The ring row of row `r` (R304). -/
def rsvRingRow (v : W64) (r : Nat) : Nat :=
  if r < rsvFirst v then r else rsvFirst v + (r - rsvFirst v) % max 1 (rsvRows v - rsvFirst v)

/-- A live sequence names this handle: an ALLOCATED or BOUND record, or an enabled reserved sequence (R297). -/
def Dev.kvLive (d : Dev) (h : Nat) : Bool :=
  if isReserved h then rsvOn (d.rsvSeq (rsvNum h))
  else decide (handleRec h < 0xFE00) && (d.kvRec (handleRec h)).st != 0 && (d.kvRec (handleRec h)).tag == handleTag h

/-- The sequence belongs to an instance, or the reserved sequence to its partition (R297). -/
def Dev.kvMine (d : Dev) (h i : Nat) : Bool :=
  if isReserved h then rsvNum h / 64 == d.instPart i else (d.kvRec (handleRec h)).inst == i

/-- Rows that hold `n` tokens. -/
def rowsOf (n tp : Nat) : Nat := (n + tp - 1) / tp

/-- Tp of a record. -/
def KvRec.tp (k : KvRec) : Nat := 2 ^ k.log2tp

/-- F, the rows kept at the head (R292). -/
def KvRec.firstRows (k : KvRec) : Nat := k.firstS / max 1 k.lanes

/-- Rr, the rows of the ring. -/
def KvRec.ringRows (k : KvRec) : Nat := (k.maxPages - k.firstS) / max 1 k.lanes

/-- The slot of lane `l` of row `r` (R292). -/
def KvRec.slot (k : KvRec) (r l : Nat) : Nat :=
  if r < k.firstRows then r * k.lanes + l
  else k.firstS + (k.headSlot + r + max 1 k.ringRows * k.headRow - k.headRow) % max 1 k.ringRows * k.lanes + l

/-- The page of lane `l` of row `r`. -/
def KvRec.page (k : KvRec) (r l : Nat) : Option Nat := KMap.find k.slots (k.slot r l)

/-- A row before HEAD_ROW that the sequence appended after a fork to fewer tokens: its slots are mapped, and no later row has taken them (R292, R295). -/
def KvRec.rejoined (k : KvRec) (r : Nat) : Bool := (k.page r 0).isSome && decide (rowsOf k.length k.tp ≤ r + k.ringRows)

/-- The rows of a record that are present: the first rows and the live ring rows, of the first `n` tokens. -/
def KvRec.rows (k : KvRec) (n : Nat) : List Nat :=
  (List.range (rowsOf n k.tp)).filter (fun r => decide (r < k.firstRows ∨ k.headRow ≤ r) || k.rejoined r)

/-- The row is shared: a page of it is mapped by more than one sequence (R293). -/
def Dev.kvShared (d : Dev) (k : KvRec) (r : Nat) : Bool :=
  (List.range k.lanes).any (fun l => match k.page r l with | none => false | some p => decide (1 < d.kvCount p))

/-! ### The image in the table region (R290 to R292) -/

/-- Bytes 0x000 to 0x03F of a record (R291). -/
def KvRec.header (k : KvRec) (x : Nat) : List Byte :=
  leBytes 4 (handleOf x k.tag) ++ leBytes 1 k.st ++ leBytes 1 (cond k.window 1 0 + cond k.shared 2 0) ++ leBytes 1 k.inst ++
    leBytes 1 0 ++ leBytes 2 k.lanes ++ leBytes 2 k.log2tp ++ leBytes 4 k.bt ++ leBytes 8 k.length ++ leBytes 4 k.firstS ++
    leBytes 4 k.maxPages ++ leBytes 4 k.slots.length ++ leBytes 4 k.heldPages.length ++ leBytes 8 k.headRow ++
    leBytes 4 k.headSlot ++ leBytes 2 k.spareRows ++ leBytes 2 0 ++ leBytes 4 k.gen ++ leBytes 4 k.recycled

/-- DIR[0..63] (R291). -/
def KvRec.dirBytes (k : KvRec) : List Byte := (List.range 64).flatMap (fun i => leBytes 4 (k.dirs.getD i 0xFFFFFFFF))

/-- The slots in which HELD pages are listed: the unmapped slots in increasing order (R292). -/
def KvRec.heldSlots (k : KvRec) : KMap Nat :=
  ((((List.range (k.slots.length + k.heldPages.length)).filter (fun s => (KMap.find k.slots s).isNone)).take k.heldPages.length).zip
    k.heldPages)

/-- Every page-table entry of a record (R292): slot and value. -/
def KvRec.entries (k : KvRec) : List (Nat × Nat) :=
  k.slots.map (fun p => (p.1, p.2 + 2 ^ 31)) ++ k.heldSlots.map (fun p => (p.1, p.2 + 2 ^ 30))

/-- The table region's base (R290). -/
def Dev.kvTable (d : Dev) : Nat := d.addr Off.KV_TABLE_BASE_LO Off.KV_TABLE_BASE_HI

/-- The address of a page-table entry. -/
def Dev.kvEntryAddr (d : Dev) (k : KvRec) (slot : Nat) : Nat :=
  d.kvTable + 0x2800000 + k.dirs.getD (slot / 16384) 0 * 65536 + slot % 16384 * 4

/-- SHARED as the counts stand (R291). -/
def Dev.kvSharedNow (d : Dev) (k : KvRec) : Bool := k.slots.any (fun p => decide (1 < d.kvCount p.2))

/-- Record `x` is `k`, and its 512 bytes in the table region say so (R291). -/
def State.kvWriteRec (s : State) (x : Nat) (k : KvRec) : State :=
  (s.put (s.dev.kvTable + x * 512) (k.header x ++ k.dirBytes ++ zeros 192)).onDev (fun d => d.onKv (fun v => { v with recs := KMap.put v.recs x k }))

/-- Other records that map one of some pages, with another SHARED than the counts now give, change too (R291). -/
def State.kvShowShared (s : State) (x : Nat) (pages : List Nat) : State :=
  s.forAll (s.dev.kv.recs.filter (fun y => y.1 != x && y.2.shared != s.dev.kvSharedNow y.2 && y.2.slots.any (fun p => pages.contains p.2)))
    (fun y t => t.kvWriteRec y.1 { y.2 with shared := !y.2.shared, gen := (y.2.gen + 1) % 2 ^ 32 })

/-- A record takes its new state: entries first, then the page counts, then the record (R301). The old entries that are gone read 0. -/
def State.kvPut (s : State) (x : Nat) (k : KvRec) : State :=
  let old := s.dev.kvRec x
  let gone := old.entries.filter (fun e => !(k.entries.any (fun f => f.1 == e.1)) )
  let t1 := s.forAll gone (fun e t => t.put (s.dev.kvEntryAddr old e.1) (leBytes 4 0))
  let t2 := t1.forAll k.entries (fun e t => t.put (s.dev.kvEntryAddr k e.1) (leBytes 4 e.2))
  let pages := (old.slots.map (fun p => p.2)) ++ (k.slots.map (fun p => p.2))
  let t3 := t2.forAll pages (fun p t => t.put (s.dev.kvTable + 0x2000000 + p * 2) (leBytes 2 (s.dev.kvCount p)))
  ((t3.kvWriteRec x { k with shared := s.dev.kvSharedNow k }).kvShowShared x pages).onDev Dev.kvSync

/-! ### The checks and the reservation when a command starts (R297, R298) -/

/-- Pages a command may need for a pool sequence: rows its appends could open, the copy of a shared tail row, and the spare
rows of a binding under WINDOW (R298). -/
def Dev.kvNeed (d : Dev) (k : KvRec) (limit spare : Nat) (binds : Bool) : Nat :=
  let newRows := rowsOf (k.length + limit) k.tp - rowsOf k.length k.tp
  let tail := k.length / k.tp
  newRows * k.lanes + (if 0 < limit ∧ k.length % k.tp ≠ 0 ∧ d.kvShared k tail then k.lanes else 0) +
    (if binds && k.window then spare * k.lanes else 0)

/-- Check 3 for a pool sequence: the record with the port's geometry, or none (R287, R297). -/
def KvRec.bound (k : KvRec) (p : Port) (spare : Nat) : Option KvRec :=
  if k.st = 2 then
    if k.lanes = p.kvLanes ∧ k.log2tp = p.kvLog2Tp ∧ k.bt = p.kvBt then some k else none
  else
    let b := { k with st := 2, lanes := p.kvLanes, log2tp := p.kvLog2Tp, bt := p.kvBt, spareRows := if k.window then spare else 0,
                      headRow := k.firstS / max 1 p.kvLanes }
    if k.firstS % max 1 p.kvLanes = 0 ∧ k.maxPages % max 1 p.kvLanes = 0 ∧
        k.maxPages * 2 ^ p.kvLog2Tp / max 1 p.kvLanes ≤ p.kvSpan ∧ (k.window = false ∨ spare + 1 ≤ b.ringRows) then some b
    else none

/-- Check 3 for a reserved sequence (R306). -/
def Dev.rsvGeomOk (d : Dev) (n : Nat) (p : Port) : Bool :=
  let v := d.rsvSeq n
  let bt := d.n (Off.KV_RSV_BT n)
  decide (p.kvLanes = rsvLanes v ∧ 2 ^ p.kvLog2Tp = rsvTp v ∧ (p.kvBt = bt ∨ bt = 0) ∧ rsvTp v * p.kvBt ≤ 65536 ∧
    rsvRows v * rsvTp v ≤ p.kvSpan)

/-- The outcome of the start checks of one sequence: a status, or what the command may stage. -/
inductive KvStart where
  | fail (status : Nat)
  | go (use : KvUse) (d : Dev)

/-- The checks of R297 for one argument that names sequence `h` with append limit `n`. -/
def Dev.kvStart (d : Dev) (i arg h n : Nat) (p : Port) : KvStart :=
  if !d.kvLive h then .fail 0x20
  else if !d.kvMine h i then .fail 0x22
  else if isReserved h then
    let v := d.rsvSeq (rsvNum h)
    let len := d.n (Off.KV_RSV_LEN (rsvNum h))
    if !d.rsvGeomOk (rsvNum h) p then .fail 0x20
    else if rsvWindow v && decide (rsvSpare v < rowsOf n (rsvTp v) + 1) then .fail 0x20
    else if !rsvWindow v && decide (rsvRows v * rsvTp v < len + n) then .fail 0x30
    else .go { arg := arg, handle := h, limit := n, base := len, appended := 0, binds := d.n (Off.KV_RSV_BT (rsvNum h)) == 0,
               lanes := p.kvLanes, log2tp := p.kvLog2Tp, bt := p.kvBt, reserved := [], fromHeld := 0, spareRows := rsvSpare v,
               staged := [] } d
  else
    let k := d.kvRec (handleRec h)
    let spare := if k.st = 2 then k.spareRows else rowsOf n (2 ^ p.kvLog2Tp) + 1
    match k.bound p spare with
    | none => .fail 0x20
    | some b =>
      if b.window && decide (b.spareRows < rowsOf n b.tp + 1) then .fail 0x20
      else
        let need := d.kvNeed b n spare (k.st != 2)
        let held := b.heldPages.take need
        if b.window = false ∧ b.maxPages / max 1 b.lanes < rowsOf (b.length + n) b.tp then .fail 0x30
        else match d.kvTake (need - held.length) with
          | none => .fail 0x30
          | some (ps, e) =>
            .go { arg := arg, handle := h, limit := n, base := b.length, appended := 0, binds := k.st != 2, lanes := b.lanes,
                  log2tp := b.log2tp, bt := b.bt, reserved := held ++ ps, fromHeld := held.length, spareRows := spare, staged := [] }
              e.kvSync

/-- Everything a killed or failed command set aside returns to where it came from (R130, R301). -/
def Dev.kvRelease (d : Dev) (c : Cmd) : Dev :=
  let e := d.forAll c.kv (fun u x =>
    if isReserved u.handle then x
    else
      let all := u.reserved ++ u.staged.map (fun p => p.2)
      let held := (x.kvRec (handleRec u.handle)).heldPages
      x.kvGive (all.filter (fun p => !held.contains p)))
  let f := match c.kvNew with
    | none => e
    | some (_, k) =>
      let g := (e.kvGive k.heldPages).kvGiveDirs k.dirs
      g.onKv (fun v => { v with pages := k.slots.foldl (fun m (y : Nat × Nat) => KMap.put m y.2 (KMap.getD m y.2 0 - 1)) v.pages })
  f.kvSync

/-! ### Appends (R300, R301) -/

/-- The pages of a row are staged, from the pages set aside. -/
def KvUse.stageRow (u : KvUse) (r : Nat) : KvUse :=
  { u with staged := (List.range u.lanes).foldl (fun m l => KMap.put m (r * 256 + l) (u.reserved.getD l 0)) u.staged
           reserved := u.reserved.drop u.lanes }

/-- The address of a data page. -/
def Dev.kvPageAddr (d : Dev) (p : Nat) : Nat := d.addr Off.KV_POOL_BASE_LO Off.KV_POOL_BASE_HI + p * 65536

/-- The address of the index entry of a data page. -/
def Dev.kvIndexAddr (d : Dev) (p : Nat) : Nat := d.addr Off.KV_INDEX_BASE_LO Off.KV_INDEX_BASE_HI + p * 4096

/-- The first append to a shared, partly filled tail row copies its pages (R300). -/
def State.kvCopyTail (s : State) (u : KvUse) : State × KvUse :=
  let k := s.dev.kvRec (handleRec u.handle)
  let r := u.base / 2 ^ u.log2tp
  if isReserved u.handle || u.base % 2 ^ u.log2tp == 0 || !s.dev.kvShared k r then (s, u)
  else
    let v := u.stageRow r
    let t := s.forAll (List.range u.lanes) (fun l t =>
      match k.page r l with
      | none => t
      | some p => t.put (s.dev.kvPageAddr (KMap.getD v.staged (r * 256 + l) 0)) (s.bytes (s.dev.kvPageAddr p) 65536))
    (t.onDev (fun d => d.wn Off.KV_CNT_COW ((d.n Off.KV_CNT_COW + u.lanes) % 2 ^ 32)), v)

/-- `n` tokens are appended: the rows they open take reserved pages. -/
def KvUse.grow (u : KvUse) (n : Nat) : KvUse :=
  let from_ := rowsOf (u.base + u.appended) (2 ^ u.log2tp)
  let dest := rowsOf (u.base + u.appended + n) (2 ^ u.log2tp)
  let v := if isReserved u.handle then u else (List.range (dest - from_)).foldl (fun w i => w.stageRow (from_ + i)) u
  { v with appended := u.appended + n }

/-- Where lane `l` of row `r` lies for a command, and its index entry: staged pages first. -/
def Dev.kvAddr (d : Dev) (u : KvUse) (r l : Nat) : Option (Nat × Nat) :=
  if isReserved u.handle then
    let v := d.rsvSeq (rsvNum u.handle)
    let x := rsvRingRow v r * rsvLanes v + l
    if l < rsvLanes v then
      some (d.rsvBase (rsvNum u.handle) + x * 65536, d.rsvBase (rsvNum u.handle) + rsvRows v * rsvLanes v * 65536 + x * 4096)
    else none
  else if u.lanes ≤ l then none
  else
    let k := d.kvRec (handleRec u.handle)
    match (KMap.find u.staged (r * 256 + l)).orElse (fun _ => if k.st = 2 ∧ r ∈ k.rows u.base then k.page r l else none) with
    | none => none
    | some p => some (d.kvPageAddr p, d.kvIndexAddr p)

/-- The command may store into lane `l` of row `r`: a staged page, or the unshared tail row; for a reserved sequence the rows of
its own appends and the tail (R300, R301). -/
def Dev.kvMayStore (d : Dev) (u : KvUse) (r l : Nat) : Bool :=
  let tp := 2 ^ u.log2tp
  decide (u.base / tp ≤ r ∧ r < rowsOf (u.base + u.limit) tp ∧ l < u.lanes) &&
    (isReserved u.handle || (KMap.find u.staged (r * 256 + l)).isSome ||
      (decide (u.base % tp ≠ 0 ∧ r = u.base / tp) && !d.kvShared (d.kvRec (handleRec u.handle)) r))

/-! ### Publication (R299 to R301, R305, R306) -/

/-- The oldest ring row is detached: counts fall, and pages no longer mapped are kept as HELD up to `keep` of them, the rest
return to the pool (R299). -/
def Dev.kvDetach (d : Dev) (k : KvRec) (keep : Nat) : Dev × KvRec :=
  let ps := (List.range k.lanes).filterMap (fun l => (k.page k.headRow l).map (fun p => (k.slot k.headRow l, p)))
  let e := d.onKv (fun v => { v with pages := ps.foldl (fun m x => KMap.put m x.2 (KMap.getD m x.2 0 - 1)) v.pages })
  let free := (ps.map (fun x => x.2)).filter (fun p => e.kvCount p == 0)
  let k' := { k with
    slots := ps.foldl (fun m x => KMap.del m x.1) k.slots, heldPages := k.heldPages ++ free.take keep
    headRow := k.headRow + 1, headSlot := (k.headSlot + 1) % max 1 k.ringRows, recycled := (k.recycled + 1) % 2 ^ 32 }
  ((e.kvGive (free.drop keep)).incWrap Off.KV_CNT_RECYCLED, k')

/-- Pages HELD are short of the spare rows by this many. -/
def KvRec.short (k : KvRec) : Nat := k.spareRows * k.lanes - k.heldPages.length

/-- Live rows of the ring, from HEAD_ROW to the tail. -/
def KvRec.liveRows (k : KvRec) : Nat := rowsOf k.length k.tp - k.headRow

/-- Rows beyond Rr − SPARE_ROWS are detached; `fuel` bounds the rows. -/
def Dev.kvTrim (d : Dev) (k : KvRec) : Nat → Dev × KvRec
  | 0 => (d, k)
  | fuel + 1 =>
    if k.ringRows - k.spareRows < k.liveRows then
      let r := d.kvDetach k k.short
      r.1.kvTrim r.2 fuel
    else (d, k)

/-- HELD is refilled: from the pool first, then by detaching unshared old rows; short, SPARE_SHORT is set. The tail row stays. -/
def Dev.kvRefill (d : Dev) (k : KvRec) : Nat → Dev × KvRec
  | 0 => (d, k)
  | fuel + 1 =>
    if k.short = 0 then (d, k)
    else match d.kvTake1 with
      | some (p, e) => e.kvRefill { k with heldPages := k.heldPages ++ [p] } fuel
      | none =>
        if d.kvShared k k.headRow || decide (k.liveRows ≤ 1) then (d.setB Off.KV_EVENTS 2 true, k)
        else
          let r := d.kvDetach k k.short
          r.1.kvRefill r.2 fuel

/-- The sequence's record after a commit that staged `u` (R299, R301). -/
def Dev.kvCommitRec (d : Dev) (u : KvUse) : Dev × KvRec :=
  let k0 := d.kvRec (handleRec u.handle)
  let k1 := if u.binds then
      { k0 with st := 2, lanes := u.lanes, log2tp := u.log2tp, bt := u.bt, spareRows := if k0.window then u.spareRows else 0,
                headRow := k0.firstS / max 1 u.lanes }
    else k0
  -- staged pages are mapped in their slots; a page they replace loses one sequence (R300), and with its last one it is free (R293)
  let r := u.staged.foldl (fun (x : Dev × KvRec) s =>
    let slot := k1.slot (s.1 / 256) (s.1 % 256)
    let pages := match KMap.find x.2.slots slot with
      | none => x.1.kv.pages
      | some old => if KMap.getD x.1.kv.pages old 0 ≤ 1 then KMap.del x.1.kv.pages old else KMap.put x.1.kv.pages old (KMap.getD x.1.kv.pages old 0 - 1)
    (x.1.onKv (fun v => { v with pages := KMap.put pages s.2 1 }), { x.2 with slots := KMap.put x.2.slots slot s.2 })) (d, k1)
  -- pages set aside and not used: HELD ones stay HELD, and so do the spare pages of a binding under WINDOW
  let used := u.staged.map (fun p => p.2)
  let held := k0.heldPages.filter (fun p => !used.contains p)
  let rest := u.reserved.filter (fun p => !held.contains p)
  let keep := if u.binds && k0.window then u.spareRows * u.lanes - held.length else 0
  let e := r.1.kvGive (rest.drop keep)
  let k2 := { r.2 with heldPages := held ++ rest.take keep, length := u.base + u.appended }
  let t := if k0.window && decide (0 < u.appended) then
      let x := e.kvTrim k2 (k2.liveRows + 1)
      x.1.kvRefill x.2 (k2.spareRows * k2.lanes + k2.liveRows + 1)
    else (e, k2)
  (t.1, if u.binds || decide (0 < u.appended) then { t.2 with gen := (t.2.gen + 1) % 2 ^ 32 } else t.2)

/-- One sequence of a committing command becomes visible with its appends (R121, R301, R305, R306). -/
def State.kvPublish (s : State) (u : KvUse) : State :=
  if isReserved u.handle then
    s.onDev (fun d => (d.wn (Off.KV_RSV_LEN (rsvNum u.handle)) (u.base + u.appended)).wn (Off.KV_RSV_BT (rsvNum u.handle)) u.bt)
  else
    let r := s.dev.kvCommitRec u
    (s.onDev (fun _ => r.1)).kvPut (handleRec u.handle) r.2

/-- A reserved sequence becomes empty, and its Bt is free to bind again (R305, R306). -/
def Dev.rsvEmpty (d : Dev) (n : Nat) : Dev := (d.wn (Off.KV_RSV_LEN n) 0).wn (Off.KV_RSV_BT n) 0

/-- A sequence is freed, and its record's tag moves on (R296; DEDUCED, log 63: it increments again at the next allocation, R289). -/
def State.kvFreeSeq (s : State) (h : Nat) : State :=
  if isReserved h then s.onDev (fun d => d.rsvEmpty (rsvNum h))
  else
    let x := handleRec h
    let k := s.dev.kvRec x
    let ps := k.slots.map (fun p => p.2)
    let t := s.onDev (fun d =>
      let e := d.onKv (fun v => { v with pages := ps.foldl (fun m p => KMap.put m p (KMap.getD m p 0 - 1)) v.pages })
      ((e.kvGive (ps.filter (fun p => e.kvCount p == 0))).kvGive k.heldPages).kvGiveDirs k.dirs)
    t.kvPut x { KvRec.empty with tag := nextTag k.tag, gen := (k.gen + 1) % 2 ^ 32 }

/-! ### KV_ALLOC and KV_FORK (R294, R295) -/

/-- What KV_ALLOC takes when it starts, or the status it completes with. -/
def Dev.kvAlloc (d : Dev) (c : Cmd) : Except Nat (Nat × KvRec × Dev) :=
  let maxPages := c.at 0x18 4
  let window := c.at 0x10 1 == 1
  match d.kvTakeRec with
  | none => .error 0x31
  | some (x, d1) => match d1.kvTakeDirs ((maxPages + 16383) / 16384) with
    | none => .error 0x31
    | some (ds, d2) =>
      let want := c.at 0x14 4
      match d2.kvTake (if window then min want d2.kvFree else want) with
      | none => .error 0x30
      | some (ps, d3) =>
        .ok (x, { KvRec.empty with
          tag := nextTag (d.kvRec x).tag, st := 1, window := window, inst := c.inst, firstS := if window then c.at 0x12 2 else 0
          maxPages := maxPages, heldPages := ps, dirs := ds, gen := (d.kvRec x).gen }, d3.kvSync)

/-- What KV_FORK takes when it starts, or the status it completes with. -/
def Dev.kvFork (d : Dev) (c : Cmd) : Except Nat (Nat × KvRec × Dev) :=
  let h := c.at 0x10 4
  let src := d.kvRec (handleRec h)
  let n := if c.at 0x14 4 = 0 then src.length else c.at 0x14 4
  if isReserved h || !d.kvLive h then .error 0x20
  else if !d.kvMine h c.inst then .error 0x22
  else if src.length < n then .error 0x20
  else match d.kvTakeRec with
    | none => .error 0x31
    | some (x, d1) => match d1.kvTakeDirs ((src.maxPages + 16383) / 16384) with
      | none => .error 0x31
      | some (ds, d2) =>
        let k0 := { src with tag := nextTag (d.kvRec x).tag, length := n, headSlot := 0, slots := [], heldPages := [], dirs := ds,
                             gen := (d.kvRec x).gen, recycled := 0 }
        let maps := if src.st = 2 then (src.rows n).flatMap (fun r => (List.range src.lanes).filterMap (fun l =>
          (src.page r l).map (fun p => (k0.slot r l, p)))) else []
        if maps.any (fun m => decide (65535 ≤ d2.kvCount m.2)) then .error 0x31
        else match d2.kvTake (if !src.window && src.st == 2 && n % src.tp != 0 then src.lanes else 0) with
          | none => .error 0x30
          | some (ps, d3) =>
            let k := { k0 with slots := maps.foldl (fun m y => KMap.put m y.1 y.2) [], heldPages := ps }
            .ok (x, k, (d3.onKv (fun v =>
              { v with pages := maps.foldl (fun m y => KMap.put m y.2 (KMap.getD m y.2 0 + 1)) v.pages })).kvSync)

/-! ### The reset of a partition and the disabling of the page manager -/

/-- At a reset of partition `p`, lengths go to 0 where CLEAR_ON_RESET is 1 (R305). -/
def Dev.rsvPartReset (d : Dev) (p : Nat) : Dev :=
  d.forEach 64 (fun j e => e.when (bitOf (d.rsvSeq (p * 64 + j)) 48) (fun x => x.rsvEmpty (p * 64 + j)))

/-- A command in flight, older than `id`, names one of the same sequences (R104). -/
def Dev.kvBlocked (d : Dev) (id : Nat) (c : Cmd) : Bool :=
  d.cmds.any (fun x => decide (x.1 < id) && x.2.handles.any (fun h => c.handles.contains h))

end Sys2Proof.Machine
end

