-- ==== Sys2Proof/Machine/Banks.lean ====
section
/-! DEFINITION. Machine/Banks.lean: tile release, scratchpad bank ownership, handover, scrub and errors (R173 to R182, R228 to R241). -/

namespace Sys2Proof.Machine

/-! ### Tiles -/

/-- A tile's STATE: 0 OFF, 1 IDLE, 2 RUNNING, 3 KILLING, 4 SELFTEST, 5 RESETTING (R184). -/
def Dev.tileState (d : Dev) (t : Nat) : Nat := d.f (Off.TILE_STATUS t) 2 0

/-- The partition of a tile in force (R181, R182). -/
def Dev.tilePart (d : Dev) (t : Nat) : Nat := (d.tile t).part

/-- The clock in force of a tile (R137). -/
def Dev.tileMhz (d : Dev) (t : Nat) : Nat := d.f (Off.TILE_FREQ t) 10 0

/-- FLOOR_MHZ of a tile. -/
def Dev.floorMhz (d : Dev) (t : Nat) : Nat := d.f (Off.TILE_FREQ_CTRL t) 10 0

/-- The highest clock that the frequency loop may give a tile: CEIL_MHZ, and 1,000 MHz while the derate holds (R137, R138). -/
def Dev.topMhz (d : Dev) (t : Nat) : Nat :=
  let c := d.f (Off.TILE_FREQ_CTRL t) 26 16
  if d.b (Off.TILE_FREQ t) 16 then min 1000 c else c

/-- A tile's clock within what holds now: 1,000 MHz in RESETTING, 400 MHz while THERMAL_CRIT holds, else from FLOOR_MHZ to what the loop may
give (R137, R138, R140, R566). -/
def Dev.settleClock (d : Dev) (t : Nat) : Dev :=
  d.setF (Off.TILE_FREQ t) 10 0 (if d.tileState t = 5 then 1000 else if d.b Off.PWR_STATUS 3 then 400
    else max (d.floorMhz t) (min (d.tileMhz t) (d.topMhz t)))

/-- The scheduler may place work on the tile: ENABLE is applied, it is not withdrawn, and its domain is ON (R181, R445, R559, R562). -/
def Dev.tileUsable (d : Dev) (t : Nat) : Bool :=
  d.b (Off.TILE_CTRL t) 0 && !(d.tile t).withdrawn && d.tileState t != 0 && d.domOn (t / 4)

/-- A register-file or accumulator error found in a tile; the answer to whether it ended the command lies with the caller (R176). -/
def Dev.tileEcc (d : Dev) (t : Nat) (fatal : Bool) : Dev :=
  if fatal then (d.incSat (Off.TILE_ECC_UE t)).setB (Off.TILE_EVENTS t) 1 true
  else (d.incSat (Off.TILE_ECC_CE t)).setB (Off.TILE_EVENTS t) 0 true

/-- The random source is reseeded: from TILE_RNG_SEED when FIXED, else from the hub's entropy source (R177). -/
def Dev.tileSeed (d : Dev) (t : Nat) : Nat × Dev :=
  if d.b (Off.TILE_RNG_CTRL t) 0 then (d.n (Off.TILE_RNG_SEED t), d)
  else (Config.entropy d.fresh, { d with fresh := d.fresh + 1 })

/-- Register file, accumulator memory, token counters, access stream and random source are cleared (R173, R175, R177). -/
def Dev.tileClear (d : Dev) (t : Nat) : Dev :=
  let s := d.tileSeed t
  (s.2.onTile t (fun x => { x with acc := [], vregs := [], inactive := [], tokens := [], att := [], groups := [], stale := [], flight := [], issued := 0, releasedBlocks := 0,
                                   seed := s.1, draws := 0 })).w (Off.TILE_AE_STATUS t) 0

/-- The tile is free: a waiting PARTITION or WORLD change takes effect (R182). -/
def Dev.tileFree (d : Dev) (t : Nat) : Dev :=
  (((d.setF (Off.TILE_STATUS t) 3 0 1).setF (Off.TILE_STATUS t) 18 8 0)).onTile t (fun x =>
    { x with cmd := none, part := d.f (Off.TILE_CTRL t) 7 4, world := d.b (Off.TILE_CTRL t) 8 })

/-! ### Router links (R185, R186, R189) -/

/-- The peer's bit of a link: the opposite direction, or the bridge port (R189). -/
def routerBack (link : Nat) : Nat := match link with | 0 => 2 | 1 => 3 | 2 => 0 | 3 => 1 | _ => 4

/-- Link `k` of tile `t` is trained, or down, at both its ends (R189). -/
def Dev.setLink (d : Dev) (t k : Nat) (up : Bool) : Dev :=
  (d.setB (Off.TILE_ROUTER_STATUS t) k up).setB (Off.TILE_ROUTER_STATUS (routerPeer t k)) (routerBack k) up

/-- Link `k` of tile `t` fails to train: it is down, and both its tiles set ROUTER_ERROR (R185). -/
def Dev.linkUntrained (d : Dev) (t k : Nat) : Dev :=
  if t < 64 ∧ nbit (routerLinks t) k = true then
    ((d.setLink t k false).setB (Off.TILE_EVENTS t) 4 true).setB (Off.TILE_EVENTS (routerPeer t k)) 4 true
  else d

/-- Every link that is down tries to train, once an Over (R186); `up`: those that succeed, each named at either end. -/
def Dev.retrainLinks (d : Dev) (up : List (Nat × Nat)) : Dev :=
  if !d.start.released then d
  else d.forEach 64 (fun t e =>
    if e.n (Off.TILE_ROUTER_STATUS t) = routerLinks t then e
    else e.forAll ((List.range 5).filter (fun k => nbit (routerLinks t) k && !e.b (Off.TILE_ROUTER_STATUS t) k)) (fun k f =>
      if up.contains (t, k) || up.contains (routerPeer t k, routerBack k) then f.setLink t k true else f.linkUntrained t k))

/-! ### Bank owners (R228 to R231) -/

/-- KIND of the owner in force: 0 FREE, 1 PARTITION, 2 MODEL_CACHE, 3 GRAPHICS. -/
def Dev.bankKind (d : Dev) (t b : Nat) : Nat := fld (d.bankOwner t b) 2 0

/-- ID of the owner in force. -/
def Dev.bankId (d : Dev) (t b : Nat) : Nat := fld (d.bankOwner t b) 7 4

/-- WORLD of the owner in force. -/
def Dev.bankWorld (d : Dev) (t b : Nat) : Bool := bitOf (d.bankOwner t b) 8

/-- `d` with a bank changed. -/
def Dev.onBank (d : Dev) (t b : Nat) (g : Bank → Bank) : Dev :=
  { d with banks := KMap.put d.banks (t * 32 + b) (g ((KMap.find d.banks (t * 32 + b)).getD { owner := d.r (Off.TILE_BANK_OWNER t b), pending := false })) }

/-- The banks of a tile that hold KIND `k` for partition `p` in the tile's world and are not FAULTY in the safety partition (R327, R445). -/
def Dev.banksOfKind (d : Dev) (t k p : Nat) : List Nat :=
  (List.range 32).filter (fun b => d.bankKind t b == k && d.bankId t b == p && d.bankWorld t b == (d.tile t).world &&
    !(d.safetyNow == some p && d.b (Off.TILE_BANK_STATUS t b) 6))

/-- A DRAW_LIST of graphics context `x` has started and not left flight. -/
def Dev.ctxRuns (d : Dev) (x : Nat) : Bool :=
  d.cmds.any (fun y => y.2.isDraw && y.2.at 0x1C 1 == x && y.2.phase != .waiting && y.2.phase != .admitted && y.2.phase != .held)

/-- Work that may access a bank runs (R229, R234): a command of the bank's partition on the tile, or a draw of its context (R466). -/
def Dev.bankInUse (d : Dev) (t b : Nat) : Bool :=
  (d.bankKind t b == 3 && d.ctxRuns (d.bankId t b)) ||
    ((d.bankKind t b == 1 || d.bankKind t b == 2) && d.bankId t b == d.tilePart t &&
      (match (d.tile t).cmd with
        | none => false
        | some id => (d.cmd id).any (fun c => c.isRun)))

/-- A load has taken the bank (R327). -/
def Dev.bankLoads (d : Dev) (t b : Nat) : Bool :=
  d.cmds.any (fun x => x.2.load.any (fun l => l.taken.contains (t, b))) ||
    d.plans.any (fun p => p.reload.any (fun l => l.taken.contains (t, b)))

/-- Weights of a pinned plan lie in the bank (R238). -/
def Dev.bankPinned (d : Dev) (t b : Nat) : Bool := d.bankKind t b == 2 && d.plans.any (fun p => p.pinned && p.banks.contains (t, b))

/-- The bank is unused, so that a handover may take effect (R234, R238). -/
def Dev.bankUnused (d : Dev) (t b : Nat) : Bool := !d.bankInUse t b && !d.bankLoads t b && !d.bankPinned t b

/-- Plans that hold weights in a bank and are not pinned are evicted; their commands not yet running wait for admission again
(R237, R602). -/
def Dev.evictFromBank (d : Dev) (t b : Nat) : Dev :=
  let out := d.plans.filter (fun p => !p.pinned && p.banks.contains (t, b))
  d.forAll out (fun p e =>
    let f := e.onPlan p.inst p.planId Plan.evicted
    { f with
      cmds := KMap.mapV f.cmds (fun _ c =>
        if c.isRun && c.inst == p.inst && c.planId == p.planId && c.phase == .admitted then { c with phase := .waiting, load := none }
        else c)
      parts := KMap.mapV f.parts (fun _ x => { x with streams := x.streams.map (fun st =>
        { st with admitted := st.admitted.filter (fun id => !(match f.cmd id with
            | some c => c.isRun && c.inst == p.inst && c.planId == p.planId && c.phase == .admitted
            | none => false)) }) }) })

/-- A bank is written to zero (R236). -/
def State.scrub (s : State) (t b : Nat) : State := s.zero (bankAddr t b) 0x20000

/-- R235: the handover from `o` to `n` scrubs whatever KEEP says. -/
def Dev.mustScrub (d : Dev) (o n : W64) : Bool :=
  bitOf o 8 != bitOf n 8 || d.ownerSafe o || d.ownerSafe n || fld o 2 0 == 3 || fld n 2 0 == 3

/-- A handover: a change of KIND, ID or WORLD. -/
def isHandover (o n : W64) : Bool := fld o 2 0 != fld n 2 0 || fld o 7 4 != fld n 7 4 || bitOf o 8 != bitOf n 8

/-- MISMATCH: the ID names a partition other than the tile's own (R230). -/
def Dev.bankMismatch (d : Dev) (t b : Nat) : Bool :=
  (d.bankKind t b == 1 || d.bankKind t b == 2) && d.bankId t b != d.tilePart t

/-- The handover of an unused bank takes effect (R235 to R237, R602). -/
def State.handover (s : State) (t b : Nat) : State :=
  let o := s.dev.bankOwner t b
  let n := s.dev.r (Off.TILE_BANK_OWNER t b)
  let must := s.dev.mustScrub o n
  let keep := bitOf n 9
  let s1 := s.onDev (fun d => d.when (fld o 2 0 == 2) (fun e => e.evictFromBank t b))
  let s2 := s1.when (must || !keep) (fun x => x.scrub t b)
  s2.onDev (fun d =>
    let e := { d with banks := KMap.del d.banks (t * 32 + b) }
    let st := Off.TILE_BANK_STATUS t b
    (((e.setF st 1 0 0).setB st 2 false).setB st 4 (must && keep)).setF st 15 8 ((e.f st 15 8 + 1) % 256))

/-- After an apply that changed a bank's owner from `o`: at once where the bank is unused, else it waits with PENDING
(R234); PINNED_HOLD follows from that and the plan that holds it (R238). -/
def State.ownerApplied (s : State) (t b : Nat) (o : W64) : State :=
  if !isHandover o (s.dev.r (Off.TILE_BANK_OWNER t b)) then
    s.onDev (fun d => ({ d with banks := KMap.del d.banks (t * 32 + b) }).setB (Off.TILE_BANK_STATUS t b) 2 false)
  else
    let w := s.onDev (fun d => { d with banks := KMap.put d.banks (t * 32 + b) { owner := o, pending := true } })
    if w.dev.bankUnused t b then w.handover t b
    else w.onDev (fun d => d.setB (Off.TILE_BANK_STATUS t b) 2 true)

/-- BANK_HANDOVER (R234 to R238, R602): a waiting handover takes effect once its bank is unused. -/
def execBankHandover (t b : Nat) (s : State) : Host.Outcome State Fault Refusal :=
  .next (if s.dev.b (Off.TILE_BANK_STATUS t b) 2 && s.dev.bankUnused t b then s.handover t b else s)

/-! ### Release of a tile (R173, R175, R239, R601) -/

/-- The PARTITION banks with RETAIN = 0 are scrubbed (R239). -/
def State.scrubRelease (s : State) (t : Nat) : State :=
  s.forAll ((List.range 32).filter (fun b => s.dev.bankKind t b == 1 && !bitOf (s.dev.bankOwner t b) 10)) (fun b x => x.scrub t b)

/-- A tile is cleared, its banks are scrubbed as R239 gives, and it is free (R173, R175, R601). -/
def State.releaseTile (s : State) (t : Nat) : State := ((s.onDev (fun d => d.tileClear t)).scrubRelease t).onDev (fun d => d.tileFree t)

/-- Every tile that runs a command. -/
def Dev.tilesOf (d : Dev) (id : Nat) : List Nat := (List.range 64).filter (fun t => (d.tile t).cmd == some id)

/-- The tiles of a command are released. -/
def State.releaseTiles (s : State) (id : Nat) : State := s.forAll (s.dev.tilesOf id) (fun t x => x.releaseTile t)

/-- Every PARTITION and MODEL_CACHE bank of partition `p` is scrubbed (R239). -/
def State.scrubPart (s : State) (p : Nat) : State :=
  s.forAll ((List.range 2048).filter (fun x => (s.dev.bankKind (x / 32) (x % 32) == 1 || s.dev.bankKind (x / 32) (x % 32) == 2) &&
    s.dev.bankId (x / 32) (x % 32) == p)) (fun x y => y.scrub (x / 32) (x % 32))

/-- The PARTITION banks with RETAIN = 1 on some tiles are scrubbed (R239). -/
def State.scrubRetained (s : State) (ts : List Nat) : State :=
  s.forAll ts (fun t y => y.forAll ((List.range 32).filter (fun b => y.dev.bankKind t b == 1 && bitOf (y.dev.bankOwner t b) 10))
    (fun b z => z.scrub t b))

/-! ### Scratchpad errors (R241) -/

/-- Every plan with weights in a bank is evicted after an uncorrectable error there (R241). -/
def Dev.evictAllFrom (d : Dev) (t b : Nat) : Dev :=
  d.forAll (d.plans.filter (fun p => p.banks.contains (t, b))) (fun p e => e.onPlan p.inst p.planId Plan.evicted)

end Sys2Proof.Machine
end

