-- ==== Sys2Proof/Machine/Sched.lean ====
section
/-! DEFINITION. Machine/Sched.lean: partitions, streams, plan loads, WCET and admission, pre-emption (R315 to R344, R600 to R603). -/

namespace Sys2Proof.Machine

/-! ### Settings in force -/

/-- SCH_PART_CTRL[p] in force (R320). -/
def Dev.pctrl (d : Dev) (p : Nat) : W64 := KMap.getD d.sched.pctrl p 0

/-- SCH_PART_WIN[p] in force. -/
def Dev.pwin (d : Dev) (p : Nat) : W64 := KMap.getD d.sched.pwin p 0x3F00

/-- A partition that nothing has run in. -/
def Part.empty : Part := { streams := [], tiles := [], resetting := false, resumeAtEdge := false, resetDue := false }

/-- Partition `p`. -/
def Dev.part (d : Dev) (p : Nat) : Part := KMap.getD d.parts p Part.empty

/-- `d` with partition `p` changed. -/
def Dev.onPart (d : Dev) (p : Nat) (g : Part → Part) : Dev := { d with parts := KMap.put d.parts p (g (d.part p)) }

/-- A stream that runs nothing. -/
def Stream.empty : Stream := { admitted := [], moved := [], used := 0, bonus := 0 }

/-- Stream `s` of partition `p`. -/
def Dev.stream (d : Dev) (p s : Nat) : Stream := (d.part p).streams.getD s Stream.empty

/-- `d` with stream `s` of partition `p` changed. -/
def Dev.onStream (d : Dev) (p s : Nat) (g : Stream → Stream) : Dev :=
  d.onPart p (fun x => { x with streams := x.streams.set s (g (x.streams.getD s Stream.empty)) })

/-- Window of partition `p`: first and last Ball in this Over (R333, R362). -/
def Dev.window (d : Dev) (p : Nat) : Nat × Nat := (fld (d.pwin p) 5 0, min (fld (d.pwin p) 13 8) (d.balls - 1))

/-- GFX_SHARE as it counts: 0 while GRAPHICS is 0 and in the safety partition (R318, R333). -/
def Dev.gfxShare (d : Dev) (p : Nat) : Nat :=
  if bitOf (d.pctrl p) 11 && d.safetyNow != some p then fld (d.pctrl p) 22 16 else 0

/-- A stream's budget in each Over, in whole ns (R333). -/
def Dev.budget (d : Dev) (p : Nat) : Nat :=
  ((d.window p).2 + 1 - (d.window p).1) * d.overNs * 9995 * (100 - d.gfxShare p) / (d.balls * 1000000)

/-- Time from the window's start to the present (R336). -/
def Dev.elapsed (d : Dev) (p : Nat) : Nat := d.now - (d.time.edgeAt + d.ballStart (d.window p).1)

/-- What a stream may still admit: budget − max(used, elapsed), with the graphics shares released to it (R336, R471). -/
def Dev.avail (d : Dev) (p s : Nat) : Nat :=
  d.budget p + (d.stream p s).bonus - max (d.stream p s).used (d.elapsed p)

/-- Partitions that name a bandwidth class, and the loader if it does (R331). -/
def Dev.classUsers (d : Dev) (c : Nat) : Nat :=
  ((List.range 8).filter (fun p => bitOf (d.pctrl p) 0 && fld (d.pctrl p) 7 4 == c)).length +
    (if fld d.sched.ctrl 7 4 = c then 1 else 0)

/-- Bandwidth `bw` GB/s is credited to partition `p` (R331, R332). -/
def Dev.creditHas (d : Dev) (p bw : Nat) : Bool :=
  let c := fld (d.pctrl p) 7 4
  decide (bw * max 1 (d.classUsers c) ≤ KMap.getD d.sched.classMin c 0)

/-- B_loader as a fraction, in GB/s (R329). -/
def Dev.loaderBw (d : Dev) : Nat × Nat :=
  let c := fld d.sched.ctrl 7 4
  (KMap.getD d.sched.classMin c 0, max 1 (d.classUsers c))

/-- t_load of a plan onto `n` tiles, in ns rounded up; none when B_loader is 0 (R329, R603). -/
def Dev.loadNs (d : Dev) (m : List Byte) (n : Nat) : Option Nat :=
  let bytes := (if imgSafety m then 2 else 1) * imgRes m
  let b := d.loaderBw
  if b.1 = 0 then none
  else some (25000 + max ((bytes * b.2 + b.1 - 1) / b.1) ((bytes + 80 * n - 1) / (80 * max 1 n)))

/-- The tiles of partition `p`, in increasing number (R315, R445, R562). -/
def Dev.partTiles (d : Dev) (p : Nat) : List Nat := (List.range 64).filter (fun t => d.tileUsable t && d.tilePart t == p)

/-- Streams computed from the tiles (R317, R318). -/
def Dev.computeStreams (d : Dev) (p : Nat) : List (List Nat) :=
  let ts := d.partTiles p
  if d.safetyNow = some p then
    let a := ts.filter (fun t => decide (t < 32))
    let b := ts.filter (fun t => decide (32 ≤ t))
    let n := min a.length b.length
    if n = 0 then [] else [a.take n, b.take n]
  else
    let s := fld (d.pctrl p) 2 1 + 1
    let n := ts.length / s
    if n = 0 then [] else (List.range s).map (fun i => (ts.drop (i * n)).take n)

/-- SPLIT_BAD: the safety partition holds no tile on one of the dies (R319). -/
def Dev.splitBad (d : Dev) (p : Nat) : Bool := d.safetyNow == some p && (d.computeStreams p).isEmpty

/-- A router link of the tile, or of a neighbour across it, has failed (R186). -/
def Dev.linkFailed (d : Dev) (p : Nat) : Bool := (d.partTiles p).any (fun t => d.n (Off.TILE_ROUTER_STATUS t) != routerLinks t)

/-- The partition can run commands (R315, R332). -/
def Dev.partRuns (d : Dev) (p : Nat) : Bool := bitOf (d.pctrl p) 0 && !(d.part p).tiles.isEmpty && decide (p < 8)

/-- Admission takes place in the partition: it runs, is not in a reset, no link of it has failed, and the Over is not dead (R25, R186, R336, R345). -/
def Dev.partAdmits (d : Dev) (p : Nat) : Bool :=
  d.partRuns p && !(d.part p).resetting && !(d.part p).resumeAtEdge && !d.linkFailed p && !d.deadOver && decide (5 ≤ d.stage)

/-! ### Loads and residency (R326 to R330) -/

/-- Streams in which work is admitted: for the safety partition one schedule covers both. -/
def Dev.lanes (d : Dev) (p : Nat) : List Nat :=
  if d.safetyNow = some p then (if (d.part p).tiles.isEmpty then [] else [0]) else List.range (d.part p).tiles.length

/-- Banks that loads or plans hold on a tile. -/
def Dev.heldBanks (d : Dev) (t : Nat) : List Nat :=
  ((d.plans.flatMap (fun p => p.banks ++ (p.reload.elim [] (fun l => l.taken)))) ++
    d.cmds.flatMap (fun x => x.2.load.elim [] (fun l => l.taken))).filterMap (fun x => if x.1 = t then some x.2 else none)

/-- MODEL_CACHE banks of a tile that hold no plan (R327). -/
def Dev.freeCacheBanks (d : Dev) (t p : Nat) : List Nat := (d.banksOfKind t 2 p).filter (fun b => !(d.heldBanks t).contains b)

/-- Unpinned plans of partition `p` with no command in flight that hold a bank on one of the tiles, least recently admitted first (R327). -/
def Dev.evictable (d : Dev) (p : Nat) (ts : List Nat) : List Plan :=
  (d.plans.filter (fun x => !x.pinned && d.instPart x.inst == p && !d.planBusy x.inst x.planId &&
    x.banks.any (fun y => ts.contains y.1))).mergeSort (fun x y => decide (x.lastUse ≤ y.lastUse))

/-- Every tile has `n` banks for a load. -/
def Dev.banksEnough (d : Dev) (p n : Nat) (ts : List Nat) : Bool := ts.all (fun t => decide (n ≤ (d.freeCacheBanks t p).length))

/-- The loader evicts plans, one by one, until every tile has `n` banks free; none if it never does (R327). -/
def Dev.makeRoom (d : Dev) (p n : Nat) (ts : List Nat) : Nat → Option Dev
  | 0 => if d.banksEnough p n ts then some d else none
  | fuel + 1 =>
    if d.banksEnough p n ts then some d
    else match d.evictable p ts with
      | [] => none
      | x :: _ => (d.onPlan x.inst x.planId Plan.evicted).makeRoom p n ts fuel

/-- Loads under way: their plans will be resident (R326). -/
def Dev.loadsMoving (d : Dev) : Nat :=
  (d.cmds.filter (fun x => x.2.load.any (fun l => l.started.isSome))).length + (d.plans.filter (fun p => p.reload.any (fun l => l.started.isSome))).length

/-- The cache holds 256 plans, loads under way among them: the least recently admitted unpinned plan of the partition leaves it (R327). -/
def Dev.cacheRoom (d : Dev) (p : Nat) : Option Dev :=
  if d.cachedPlans + d.loadsMoving < 256 then some d
  else match (d.plans.filter (fun x => !x.pinned && x.isResident && imgRes x.image != 0 && d.instPart x.inst == p &&
      !d.planBusy x.inst x.planId)).mergeSort (fun x y => decide (x.lastUse ≤ y.lastUse)) with
    | [] => none
    | x :: _ => some (d.onPlan x.inst x.planId Plan.evicted)

/-- The loader takes `n` banks on each tile (R327): the block after evictions, and the banks, lowest numbers first. -/
def Dev.takeBanks (d : Dev) (p n : Nat) (ts : List Nat) : Option (Dev × List (Nat × Nat)) :=
  match d.cacheRoom p with
  | none => none
  | some e => match e.makeRoom p n ts 256 with
    | none => none
    | some f => some (f, ts.flatMap (fun t => ((f.freeCacheBanks t p).take n).map (fun b => (t, b))))

/-- A plan can be made resident on the tiles. -/
def Dev.canLoad (d : Dev) (p n : Nat) (ts : List Nat) : Bool := (d.takeBanks p n ts).isSome

/-! ### Selection (R188, R244, R332) -/

/-- What R332 selects: the WCET entry, copy A's and copy B's tiles, the WCET in µs. -/
structure Pick where
  entry : Wcet
  tiles : List Nat
  tilesB : List Nat
  us : Nat
  deriving DecidableEq, Repr

/-- The least of a register field over a tile set. -/
def Dev.leastOf (d : Dev) (ts : List Nat) (off : Nat → Nat) (hi lo : Nat) : Nat :=
  ts.foldl (fun m t => min m (d.f (off t) hi lo)) (2 ^ (hi + 1 - lo))

/-- WCET in µs at the lowest floor of the set: the larger of the two copies' (R332). -/
def Dev.wcetUs (d : Dev) (w : Wcet) (ts : List Nat) : Nat :=
  let f := max 1 (d.leastOf ts Off.TILE_FREQ_CTRL 10 0)
  (max w.cyclesA w.cyclesB + f - 1) / f

/-- The tile sets an entry takes in stream `s`: the first TILES tiles of the stream, or of each of the two. -/
def Dev.entryTiles (d : Dev) (p s : Nat) (safety : Bool) (w : Wcet) : List Nat × List Nat :=
  if safety then (((d.part p).tiles.getD 0 []).take w.tiles, ((d.part p).tiles.getD 1 []).take w.tiles)
  else (((d.part p).tiles.getD s []).take w.tiles, [])

/-- A WCET entry fits stream `s` of partition `p` but for its banks: tiles, bandwidth, credit, reads in flight, test interval (R188, R244, R332). -/
def Dev.entryFits (d : Dev) (m : List Byte) (p s : Nat) (w : Wcet) : Bool :=
  let ts := d.entryTiles p s (imgSafety m) w
  let all := ts.1 ++ ts.2
  decide (w.tiles ≤ ts.1.length) && (!imgSafety m || decide (w.tiles ≤ ts.2.length)) && d.creditHas p w.bw &&
    decide (imgCredit m ≤ d.leastOf all Off.TILE_AE_CTRL 6 0) && decide (imgReads m ≤ d.leastOf all Off.TILE_AE_CTRL 25 16) &&
    decide (imgBtest m ≤ d.leastOf all Off.TILE_BTEST_CTRL 19 8)

/-- The tile set is usable: WORK_BANKS PARTITION banks on each tile and, for a plan not resident, the banks of its load (R332). -/
def Dev.entryUsable (d : Dev) (p : Nat) (w : Wcet) (all : List Nat) (resident : Bool) : Bool :=
  all.all (fun t => decide (w.workBanks ≤ (d.banksOfKind t 1 p).length)) && (resident || d.canLoad p w.weightBanks all)

/-- The entry R332 selects for an image in stream `s`: the usable one with the smallest WCET, a tie to the smaller TILES. -/
def Dev.select (d : Dev) (m : List Byte) (p s : Nat) (resident : Bool) : Option Pick :=
  if imgSafety m != (d.safetyNow == some p) then none
  else
    (imgWcets m).foldl (fun (best : Option Pick) w =>
      let ts := d.entryTiles p s (imgSafety m) w
      if d.entryFits m p s w && d.entryUsable p w (ts.1 ++ ts.2) resident then
        let x : Pick := { entry := w, tiles := ts.1, tilesB := ts.2, us := d.wcetUs w (ts.1 ++ ts.2) }
        match best with
        | none => some x
        | some b => if x.us < b.us ∨ (x.us = b.us ∧ w.tiles < b.entry.tiles) then some x else best
      else best) none

/-- The plan is resident in stream `s` (R326). -/
def Plan.residentIn (x : Plan) (s : Nat) : Bool := imgRes x.image == 0 || (if imgSafety x.image then x.isResident else x.resident.contains s)

/-- The selection for a registered plan in stream `s`; none where the plan is resident in another stream (R326). -/
def Dev.selectPlan (d : Dev) (x : Plan) (p s : Nat) : Option Pick :=
  if x.residentIn s then d.select x.image p s true
  else if x.isResident then none
  else d.select x.image p s false

/-- What is left of a load, in ns; a load without bound fills every budget (R334, R603). -/
def Dev.loadLeft (d : Dev) (p : Nat) (l : Load) : Nat :=
  match l.need with
  | none => d.budget p
  | some n => match l.started with
    | none => n
    | some t => n - (d.now - t)

/-- What loads admitted in stream `s` still need past the end of this Over, in ns (R334). -/
def Dev.loadTail (d : Dev) (p s : Nat) : Nat :=
  (((d.stream p s).admitted.filterMap (fun id => (d.cmd id).bind (fun c => c.load))).map (fun l =>
    match l.need with
    | none => 2 ^ 60
    | some _ => d.loadLeft p l)).sum - (d.time.edgeAt + d.overNs - d.now)

/-- What stream `s` has used when it begins to admit in the Over `j` after this one, nothing else arriving (R334, R336, R340): in the next Over the work
moved there, and in each the part that loads carried into it fill. -/
def Dev.usedIn (d : Dev) (p s j : Nat) : Nat :=
  if j = 0 then max (d.stream p s).used (d.elapsed p)
  else min (d.budget p) (d.loadTail p s - (j - 1) * d.overNs) +
    (if j = 1 then (((d.stream p s).moved.filterMap (fun id => d.cmd id)).map (fun c => c.charge)).sum else 0)

/-- When a load and a run admitted in the Over `j` after this one would end, in ns from this Over's edge; none where that Over does not admit them
(R334): both together, or the load alone and the run once a budget holds it. -/
def Dev.endsIn (d : Dev) (p s load run j : Nat) : Option Nat :=
  let u := d.usedIn p s j
  let b := d.budget p + (if j = 0 then (d.stream p s).bonus else 0)
  let ws := d.ballStart (d.window p).1
  let bare := if j = 0 then (d.stream p s).admitted.isEmpty && (d.stream p s).used == 0 else u == 0
  if u + load + run ≤ b then some (ws + j * d.overNs + u + load + run)
  else if u + load ≤ b ∨ bare = true then
    let k := (u + load) / d.overNs
    let spent := (u + load) % d.overNs
    some (if spent + run ≤ d.budget p ∧ k ≠ 0 then ws + (j + k) * d.overNs + spent + run else ws + (j + k + 1) * d.overNs + run)
  else none

/-- When a load and a run would end in stream `s`, admitted now or in the first of the following Overs that admits them, with the work carried and moved
there and the loads that fill their budgets (R327, R334): in ns from the Over edge. -/
def Dev.endsAt (d : Dev) (p s : Nat) (load : Option Nat) (run : Nat) : Nat :=
  let clear := d.loadTail p s / max 1 d.overNs + 1
  if d.budget p < run then 2 ^ 80
  else (([0, 1, clear, clear + 1].filterMap (fun j => d.endsIn p s (load.getD (2 ^ 60)) run j)).head?).getD (2 ^ 80)

/-- The stream the loader chooses for an image: where load and run would end the earliest, the lowest-numbered of equals (R327, R600). -/
def Dev.loadStream (d : Dev) (m : List Byte) (p : Nat) : Option (Nat × Pick) :=
  ((d.lanes p).filterMap (fun s => (d.select m p s false).map (fun k => (s, k)))).foldl (fun (best : Option (Nat × Pick)) x =>
    match best with
    | none => some x
    | some b =>
      if d.endsAt p x.1 (d.loadNs m x.2.entry.tiles) (x.2.us * 1000) < d.endsAt p b.1 (d.loadNs m b.2.entry.tiles) (b.2.us * 1000) then some x
      else best) none

/-- Some stream of the partition has a usable entry for a plan (R332). -/
def Dev.hasEntry (d : Dev) (x : Plan) (p : Nat) : Bool := (d.lanes p).any (fun s => (d.selectPlan x p s).isSome)

/-- Check 7 of R117: the plan's WCET fits an empty Over of the partition. -/
def Dev.fitsEmpty (d : Dev) (x : Plan) (p : Nat) : Bool :=
  (d.lanes p).any (fun s => (imgWcets x.image).any (fun w =>
    let ts := d.entryTiles p s (imgSafety x.image) w
    decide (w.tiles ≤ ts.1.length) && d.creditHas p w.bw && decide (d.wcetUs w (ts.1 ++ ts.2) * 1000 ≤ d.budget p)))

/-! ### The end of a command -/

/-- A load that has not ended is given up: its banks count as free (R330). -/
def Dev.abandonLoad (d : Dev) (id : Nat) : Dev := d.onCmd id (fun c => { c with load := none })

/-- A command leaves every stream's schedule. -/
def Dev.unschedule (d : Dev) (id : Nat) : Dev :=
  { d with parts := KMap.mapV d.parts (fun _ x => { x with streams := x.streams.map (fun st =>
      { st with admitted := st.admitted.filter (fun y => y != id), moved := st.moved.filter (fun y => y != id) }) }) }

/-- A command leaves flight: its slot reservation goes with it (R103), and a deferred eviction may follow (R116). -/
def Dev.dropCmd (d : Dev) (id : Nat) : Dev :=
  match d.cmd id with
  | none => d
  | some c =>
    let e := { (d.unschedule id) with cmds := KMap.del d.cmds id }
    if c.isRun then e.deferredEviction c.inst c.planId else e

/-- The command has started. -/
def Cmd.started (c : Cmd) : Bool := c.phase != .waiting && c.phase != .admitted && c.phase != .held

/-- A DRAW_LIST leaves its context: the context idles, a list that ran and did not commit leaves banks to scrub (R468), and changes
that waited for the context's work take effect (R490). -/
def Dev.drawEnd (d : Dev) (id : Nat) (c : Cmd) (commit : Bool) : Dev :=
  if c.isDraw then
    let x := c.at 0x1C 1
    let e := d.when c.started (fun y => ((y.setB Off.GFX_STATUS x false).w (Off.GFX_CTX_STATUS x) 0).onMedia (fun m =>
      { m with dirty := if commit then m.dirty else if x ∈ m.dirty then m.dirty else x :: m.dirty }))
    if d.cmds.any (fun y => y.1 != id && y.2.isDraw && y.2.at 0x1C 1 == x) then e
    else e.takeApplied (Off.GFX_CTX_CTRL x) (Off.GFX_CTX_CTRL x + 0x40)
  else d

/-- The run-ahead reads of a command that ends or is killed will be discarded (R379). -/
def Dev.discardAhead (d : Dev) (c : Cmd) : Dev := { d with discards := c.ahead.map (fun x => x.2) ++ d.discards }

/-- A command completes without commit (R129 to R131): its staged effects are discarded, its tiles released, its record written. -/
def State.finish (s : State) (id status detail : Nat) : State :=
  match s.dev.cmd id with
  | none => s
  | some c =>
    let s1 := (s.releaseTiles id).onDev (fun d => ((d.kvRelease c).discardAhead c).countStatus status)
    (s1.writeRecord c status detail).onDev (fun d => ((d.cplInterrupt c).drawEnd id c false).dropCmd id)

/-! ### Rate limits (R349) -/

/-- Declared regions in KiB, key-value arguments excluded. -/
def kibOf (ls : List Nat) : Nat := (ls.map (fun n => (n + 1023) / 1024)).sum

/-- Lengths of the regions a command declares (R115, R349). -/
def Cmd.regionLengths (c : Cmd) : List Nat :=
  match c.op with
  | 0x01 => (c.args.filter (fun a => a.kind != 2)).map (fun a => a.len)
  | 0x02 => [c.at 0x14 4]
  | 0x10 => [c.at 0x20 4, c.at 0x20 4 + 32 * (c.at 0x24 1 % 2)]
  | 0x11 => [c.at 0x18 4]
  | 0x12 => [c.at 0x18 4, if c.at 0x28 8 = 0 then 0 else 8]
  | 0x20 => [4]
  | 0x22 => [4]
  | 0x30 => c.at 0x18 4 :: c.args.map (fun a => a.len)
  | 0x40 => [if c.at 0x18 8 = 0 then 0 else 8]
  | 0x41 => [16]
  | 0x50 => [c.at 0x18 2]
  | _ => []

/-- What a charge meets: 0 it fits, 1 it waits for a later Over, 2 it alone exceeds a limit. -/
def Dev.rateCheck (d : Dev) (i tileUs kib : Nat) : Nat :=
  let x := d.inst i
  let ovr := fun (lim used c : Nat) => decide (lim ≠ 0 ∧ lim < used + c)
  let a := d.n (Off.QE_RATE_CMDS i)
  let b := d.n (Off.QE_RATE_TILE_US i)
  let k := d.n (Off.QE_RATE_KIB i)
  if ovr a 0 1 || ovr b 0 tileUs || ovr k 0 kib then 2
  else if ovr a x.usedCmds 1 || ovr b x.usedTileUs tileUs || ovr k x.usedKib kib then 1 else 0

/-- The charges of one admission. -/
def Dev.chargeRate (d : Dev) (i tileUs kib : Nat) : Dev :=
  d.onInst i (fun x => { x with usedCmds := x.usedCmds + 1, usedTileUs := x.usedTileUs + tileUs, usedKib := x.usedKib + kib,
                                served := x.served + tileUs })

/-! ### Candidates (R104, R335) -/

/-- No older command of the ring waits for admission: the command is the head of its ring (R104). -/
def Dev.ringHead (d : Dev) (id : Nat) (c : Cmd) : Bool :=
  !d.cmds.any (fun x => decide (x.1 < id) && x.2.inst == c.inst && x.2.ring == c.ring && x.2.phase == .waiting)

/-- The instance takes no admissions: a freeze, a teardown, or a state other than RUNNING (R345, R353). -/
def Dev.instHeld (d : Dev) (i : Nat) : Bool := (d.inst i).op != 0 || (d.inst i).teardown.isSome || d.instState i != 1

/-- A pinned plan of the command is still reloading (R345). -/
def Dev.reloading (d : Dev) (c : Cmd) : Bool := (d.cmdPlan c).any (fun p => p.reload.isSome)

/-- The command is a candidate for admission in partition `p` (R335): a RUN_PLAN that waits at the head of its ring, or a
LOAD_PLAN whose load is not admitted yet (R600). -/
def Dev.candidate (d : Dev) (p id : Nat) (c : Cmd) : Bool :=
  d.instPart c.inst == p && !d.instHeld c.inst && c.load.isNone &&
    ((c.isRun && c.phase == .waiting && d.ringHead id c && !(c.ordered && d.earlierOpen id c false) && !d.reloading c) ||
     (c.loads && c.phase == .running && !c.image.isEmpty))

/-- The order of two candidates (R335, R337, R341): aged first, then class, then re-runs, then the instance with the least
served / (WEIGHT + 1), then its number, then rings after the ring last served, then pickup order. -/
def Dev.before (d : Dev) (x y : Nat × Cmd) : Bool :=
  let aged := fun (c : Cmd) => if 8 ≤ c.skips then 0 else 1
  let rerun := fun (c : Cmd) => if 0 < c.kills then 0 else 1
  let sv := fun (i : Nat) => (d.inst i).served + (d.inst i).servedPrev
  let wt := fun (i : Nat) => d.f (Off.QE_INST_SCHED i) 15 8 + 1
  let rg := fun (c : Cmd) => (c.ring + 15 - (d.inst c.inst).lastRing) % 16
  let a := x.2
  let b := y.2
  if aged a ≠ aged b then decide (aged a < aged b)
  else if d.cmdClass a ≠ d.cmdClass b then decide (d.cmdClass b < d.cmdClass a)
  else if rerun a ≠ rerun b then decide (rerun a < rerun b)
  else if sv a.inst * wt b.inst ≠ sv b.inst * wt a.inst then decide (sv a.inst * wt b.inst < sv b.inst * wt a.inst)
  else if a.inst ≠ b.inst then decide (a.inst < b.inst)
  else if rg a ≠ rg b then decide (rg a < rg b)
  else decide (x.1 ≤ y.1)

/-- The candidates of a partition in their order, those already tried left out. -/
def Dev.candidates (d : Dev) (p : Nat) (tried : List Nat) : List (Nat × Cmd) :=
  (d.cmds.filter (fun x => d.candidate p x.1 x.2 && !tried.contains x.1)).mergeSort (fun x y => d.before x y)

/-! ### Admission (R333 to R343) -/

/-- The command is admitted in stream `s` with a charge (R332, R343, R349). -/
def Dev.admitTo (d : Dev) (p s id : Nat) (k : Pick) (load : Option Load) (charge tileUs : Nat) (front : Bool) : Dev :=
  match d.cmd id with
  | none => d
  | some c =>
    let np := decide (3 ≤ c.kills) && decide (fld (d.pctrl p) 10 8 ≤ d.cmdClass c)
    let e := d.onCmd id (fun x => { x with
      phase := .admitted, stream := s, tiles := k.tiles, tilesB := k.tilesB, wcetUs := k.us, charge := charge, load := load
      skips := 0, skipped := false, nonPreempt := np })
    let f := e.when (c.kills == 0) (fun x => x.chargeRate c.inst tileUs (kibOf c.regionLengths))
    let g := (f.onInst c.inst (fun x => { x with lastRing := c.ring })).onStream p s (fun st =>
      { st with admitted := if front then id :: st.admitted else st.admitted ++ [id], used := st.used + charge })
    { (g.onPlan c.inst c.planId (fun x => { x with lastUse := d.sched.clock + 1 })) with
      sched := { g.sched with clock := d.sched.clock + 1 } }

/-- A load alone is admitted in stream `s` (R334, R600). -/
def Dev.admitLoad (d : Dev) (p s id : Nat) (l : Load) (charge : Nat) : Dev :=
  (d.onCmd id (fun x => { x with load := some l, stream := s, charge := charge })).onStream p s (fun st =>
    { st with admitted := st.admitted ++ [id], used := st.used + charge })

/-- The stream has nothing else admitted in the Over (R334). -/
def Dev.streamBare (d : Dev) (p s : Nat) : Bool := (d.stream p s).admitted.isEmpty && (d.stream p s).used == 0

/-- Admitted commands of a lower class that have not started, latest admitted first (R340). -/
def Dev.movable (d : Dev) (p s : Nat) : List (Nat × Nat) :=
  ((d.stream p s).admitted.filterMap (fun id => match d.cmd id with
    | some c => if c.phase = .admitted ∧ d.cmdClass c < 3 ∧ ¬ (c.load.any (fun l => l.started.isSome)) then some (id, c.charge) else none
    | none => none)).reverse

/-- The commands to move so that `cost` fits in a stream with `have_` left (R340). -/
def toMove (cost : Nat) : Nat → List (Nat × Nat) → List (Nat × Nat)
  | _, [] => []
  | have_, x :: t => if cost ≤ have_ then [] else x :: toMove cost (have_ + x.2) t

/-- Work moved to the next Over leaves the stream's charge (R340). -/
def Dev.moveWork (d : Dev) (p s : Nat) (l : List (Nat × Nat)) : Dev :=
  d.onStream p s (fun st => { st with
    admitted := st.admitted.filter (fun y => !l.any (fun m => m.1 == y)), moved := (l.map (fun m => m.1)).reverse ++ st.moved
    used := st.used - (l.map (fun m => m.2)).sum })

/-- A kill or abort is decided for a command on tiles: they go to KILLING, and it ends with `final`, or is re-run (R130, R173, R344). -/
def Dev.kill (d : Dev) (id : Nat) (final : Option Nat) (rank : Nat) : Dev :=
  (d.forAll (d.tilesOf id) (fun t e => e.setF (Off.TILE_STATUS t) 2 0 3)).onCmd id (fun c =>
    { c with phase := .stopping final, decided := some { instant := d.now, rank := rank, ended := c.phase == .ended || c.decided.any (fun x => x.ended) } })

/-- An outcome of a rank is void for a command: one decided earlier stands, and of one decided at this instant the higher-ranked (R344). -/
def Dev.outranked (d : Dev) (c : Cmd) (final : Option Nat) (rank : Nat) : Bool :=
  c.decided.any (fun x => if x.instant = d.now then decide (x.rank ≤ rank) else final.isSome)

/-- The command that runs in a stream. -/
def Dev.runningIn (d : Dev) (p s : Nat) : Option (Nat × Cmd) :=
  ((d.stream p s).admitted.filterMap (fun id => (d.cmd id).bind (fun c => if c.phase = .running ∧ c.isRun then some (id, c) else none))).head?

/-- Pre-emption for a class-3 command of cost `cost` (R340, R341): the block after it and the extra charge; none if it cannot make room. -/
def Dev.preempt (d : Dev) (p s cost : Nat) : Option (Dev × Nat) :=
  if d.safetyNow = some p then none
  else
    let mv := d.movable p s
    let pick := toMove cost (d.avail p s) mv
    let e := d.moveWork p s pick
    if cost ≤ e.avail p s then some (e, 0)
    else match e.runningIn p s with
      | none => none
      | some (v, c) =>
        let rest := c.wcetUs * 1000 - (d.now - c.startAt)
        let f := e.onStream p s (fun st => { st with used := st.used - rest })
        if d.cmdClass c < 3 ∧ ¬ c.nonPreempt ∧ cost + 20000 ≤ f.avail p s then
          some ((f.kill v none 6).incSat Off.SCH_CNT_KILL, 20000)
        else none

/-- A new load of an image onto the tiles of a selection. -/
def Dev.newLoad (d : Dev) (m : List Byte) (s : Nat) (k : Pick) : Load :=
  { stream := s, tiles := k.tiles ++ k.tilesB, banks := k.entry.weightBanks, need := d.loadNs m k.entry.tiles, started := none, taken := [] }

/-- The load of a command is admitted alone, when it fits or the stream has nothing else (R334); otherwise it was skipped for lack of budget (R337). A cold
load's tile-microseconds are charged as WCET and count as served (R335, R349). DEDUCED (log 9) from the example of R337: no rate limit keeps a load alone
waiting. -/
def Dev.tryLoadAlone (d : Dev) (p s id : Nat) (m : List Byte) (k : Pick) : Dev :=
  let l := d.newLoad m s k
  if l.need.any (fun t => decide (t ≤ d.avail p s)) || d.streamBare p s then
    let tileUs := k.entry.tiles * ((l.need.getD (d.budget p) + 999) / 1000)
    let e := d.admitLoad p s id l (match l.need with | none => d.budget p | some t => min t (d.avail p s))
    match d.cmd id with
    | none => e
    | some c => e.when (c.isRun && c.kills == 0) (fun x => x.onInst c.inst (fun y =>
        { y with usedTileUs := y.usedTileUs + tileUs, served := y.served + tileUs }))
  else d.onCmd id (fun x => { x with skipped := true })

/-- The command's transfers use a group of which a port is DOWN (R576). -/
def Dev.linkBlocked (d : Dev) (c : Cmd) : Bool := c.args.any (fun a => a.kind != 2 && (d.peerOf a.addr).any (fun m => d.groupDown m))

/-- One RUN_PLAN candidate is considered in stream `s` (R332 to R340, R349): the run's own charge is held to the rate limits, then that of what is admitted
together. -/
def State.considerRun (s : State) (p st id : Nat) (c : Cmd) (x : Plan) : State :=
  let d := s.dev.onCmd id (fun y => { y with seen := true })
  if !c.seen && !d.hasEntry x p then s.finish id 0x24 0
  else match d.selectPlan x p st with
    | none => s.onDev (fun _ => d)
    | some k =>
      let res := x.residentIn st
      if !res && (d.loadStream x.image p).any (fun y => y.1 != st) then s.onDev (fun _ => d)
      else
        let load := if res then none else some (d.newLoad x.image st k)
        let kib := kibOf c.regionLengths
        let tileUs := fun (ns : Nat) => k.entry.tiles * ((ns + 999) / 1000)
        let rate := fun (ns : Nat) => if 0 < c.kills then 0 else d.rateCheck c.inst (tileUs ns) kib
        let take := fun (t extra : Nat) (e : Dev) =>
          match rate t with
          | 2 => s.finish id 0x24 0
          | 1 => s.onDev (fun _ => d)
          | _ => s.onDev (fun _ => e.admitTo p st id k load (t + extra) (tileUs t) (extra != 0))
        let alone := s.onDev (fun _ => if res then d.onCmd id (fun y => { y with skipped := true }) else d.tryLoadAlone p st id x.image k)
        match rate (k.us * 1000) with
        | 2 => s.finish id 0x24 0
        | 1 => s.onDev (fun _ => d)
        | _ =>
          match (load.elim (some 0) (fun l => l.need)).map (fun t => t + k.us * 1000) with
          | none => alone
          | some t =>
            if t ≤ d.avail p st then take t 0 d
            else if d.cmdClass c = 3 then
              match d.preempt p st t with
              | some (e, extra) => take t extra e
              | none => alone
            else alone

/-- One candidate is considered in stream `s`. -/
def State.consider (s : State) (p st id : Nat) : State :=
  match s.dev.cmd id with
  | none => s
  | some c =>
    if c.loads then
      match s.dev.loadStream c.image p with
      | none => s
      | some (y, k) => if y = st then s.onDev (fun d => d.tryLoadAlone p st id c.image k) else s
    else match s.dev.cmdPlan c with
      | none => s.finish id 0x20 0x10
      | some x => if s.dev.linkBlocked c then s else s.considerRun p st id c x

/-- The candidates of stream `st` are considered in order; `fuel` bounds them. -/
def State.admitStream (s : State) (p st : Nat) (tried : List Nat) : Nat → State
  | 0 => s
  | fuel + 1 =>
    match s.dev.candidates p tried with
    | [] => s
    | x :: _ => (s.consider p st x.1).admitStream p st (x.1 :: tried) fuel

/-- Admission in every stream of a partition, where it takes place (R335, R336). -/
def State.admitPart (s : State) (p : Nat) : State :=
  if s.dev.partAdmits p then s.forAll (s.dev.lanes p) (fun st t => t.admitStream p st [] (t.dev.cmds.length + 1)) else s

/-! ### Commands that occupy no tiles (R350, R455) -/

/-- A command other than RUN_PLAN at the head of its ring is admitted under the command and KiB limits; DRAW_LIST likewise
(R350, R455). While a link of its partition has failed none is (R186). -/
def State.admitOther (s : State) (id : Nat) : State :=
  match s.dev.cmd id with
  | none => s
  | some c =>
    let d := s.dev
    if c.isRun || c.phase != .waiting || !d.ringHead id c || d.instHeld c.inst || (c.ordered && d.earlierOpen id c false) ||
        (d.part (d.instPart c.inst)).resetting || d.linkFailed (d.instPart c.inst) then s
    else if 0 < c.kills then s.onDev (fun e => e.setPhase id .admitted)
    else match d.rateCheck c.inst 0 (kibOf c.regionLengths) with
      | 0 => s.onDev (fun e => (e.chargeRate c.inst 0 (kibOf c.regionLengths)).setPhase id .admitted)
      | 1 => s
      | _ => s.finish id 0x24 0

/-- Every command that waits and occupies no tiles is considered, oldest first. -/
def State.admitOthers (s : State) : State := s.forAll (s.dev.cmds.map (fun x => x.1)) (fun id t => t.admitOther id)

/-- Every command that waits is considered: at an edge, at pickup, and whenever one ends (R335, R336, R350). -/
def State.admitAll (s : State) : State := s.admitOthers.forAll (List.range 8) (fun p t => t.admitPart p)

end Sys2Proof.Machine
end

