-- ==== Sys2Proof/Machine/Operands.lean ====
section
/-! DEFINITION. Machine/Operands.lean: descriptors, argument entries and the checks at pickup (R112 to R117, R376, R453). -/

namespace Sys2Proof.Machine

/-! ### Check 1: the descriptor alone (R112, R113, R115, R294, R529) -/

/-- A reserved part of a descriptor: byte offset reported, and whether it is zero. -/
abbrev Zero := Nat × Bool

/-- Byte `o` of the descriptor holds only bits below `2^n`. -/
def topZero (b : List Byte) (o n : Nat) : Zero := (o, decide (leAt b o 1 < 2 ^ n))

/-- The address field at `o` has bits 63:52 zero (R113). -/
def addrZero (b : List Byte) (o : Nat) : Zero := (o, decide (leAt b o 8 < 2 ^ 52))

/-- Bytes `o` to `e` are zero, each reported by its own offset. -/
def bytesZero (b : List Byte) (o e : Nat) : List Zero := (List.range (e + 1 - o)).map (fun i => (o + i, leAt b (o + i) 1 == 0))

/-- The common header's reserved bits (R112). -/
def headerZeros (b : List Byte) : List Zero := [topZero b 1 3, topZero b 2 4, topZero b 3 2]

/-- The reserved parts of each opcode's operands (R115); `none` for an unknown opcode. -/
def opcodeZeros (b : List Byte) : Option (List Zero) :=
  match leAt b 0 1 with
  | 0x01 => some ([(0x16, decide (leAt b 0x16 2 < 2)), addrZero b 0x18] ++ bytesZero b 0x20 0x3F)
  | 0x02 => some ([addrZero b 0x18, topZero b 0x20 2] ++ bytesZero b 0x21 0x3F)
  | 0x03 => some ([topZero b 0x14 1] ++ bytesZero b 0x15 0x3F)
  | 0x10 => some ([addrZero b 0x10, addrZero b 0x18, topZero b 0x24 1] ++ bytesZero b 0x25 0x3F)
  | 0x11 => some ([addrZero b 0x10] ++ bytesZero b 0x1C 0x1F ++ bytesZero b 0x28 0x3F)
  | 0x12 => some ([addrZero b 0x10] ++ bytesZero b 0x1E 0x1F ++ [addrZero b 0x28] ++ bytesZero b 0x38 0x3F)
  | 0x20 => some (bytesZero b 0x11 0x11 ++ bytesZero b 0x1C 0x1F ++ [addrZero b 0x20] ++ bytesZero b 0x28 0x3F)
  | 0x21 => some (bytesZero b 0x14 0x3F)
  | 0x22 => some ([addrZero b 0x18] ++ bytesZero b 0x20 0x3F)
  | 0x30 => some ([addrZero b 0x10] ++ bytesZero b 0x1D 0x1F ++ [addrZero b 0x20] ++ bytesZero b 0x2A 0x3F)
  | 0x40 => some (bytesZero b 0x11 0x17 ++ [addrZero b 0x18] ++ bytesZero b 0x28 0x3F)
  | 0x41 => some ([addrZero b 0x10] ++ bytesZero b 0x18 0x3F)
  | 0x50 => some ([addrZero b 0x10] ++ bytesZero b 0x1A 0x1B ++ bytesZero b 0x23 0x3F)
  | _ => none

/-- The fields of each opcode within the ranges of R115, R294 and R529: offset reported, and whether it holds. -/
def opcodeRanges (b : List Byte) : List Zero :=
  let n := leAt b
  match leAt b 0 1 with
  | 0x01 => [(0x10, decide (1 ≤ n 0x10 4 ∧ n 0x10 4 ≤ 65535)), (0x14, decide (1 ≤ n 0x14 2 ∧ n 0x14 2 ≤ 256)), (0x18, n 0x18 8 % 16 == 0)]
  | 0x02 => [(0x10, decide (1 ≤ n 0x10 4 ∧ n 0x10 4 ≤ 65535))]
  | 0x03 => [(0x10, decide (1 ≤ n 0x10 4 ∧ n 0x10 4 ≤ 65535))]
  | 0x10 => [(0x18, !nbit (n 0x24 1) 0 || n 0x18 8 % 32 == 0), (0x20, decide (1 ≤ n 0x20 4))]
  | 0x11 => [(0x10, n 0x10 8 % 8 == 0), (0x18, n 0x18 4 % 8 == 0)]
  | 0x12 => [(0x1C, decide (n 0x1C 1 ≤ 3)), (0x1D, decide (n 0x1D 1 ≤ 1)),
             (0x20, decide (n 0x20 8 < 2 ^ crcWidth (n 0x1C 1)))]
  | 0x20 => [(0x10, decide (n 0x10 1 ≤ 1)), (0x12, decide (n 0x12 2 ≤ n 0x18 4)), (0x14, decide (n 0x14 4 ≤ n 0x18 4)),
             (0x18, decide (1 ≤ n 0x18 4 ∧ n 0x18 4 ≤ 1048576))]
  | 0x30 => [(0x1C, decide (n 0x1C 1 ≤ 15)), (0x20, n 0x20 8 % 16 == 0), (0x28, decide (1 ≤ n 0x28 2 ∧ n 0x28 2 ≤ 256))]
  | 0x40 => [(0x10, decide (n 0x10 1 ≤ 1))]
  | 0x50 => [(0x18, decide (14 ≤ n 0x18 2 ∧ n 0x18 2 ≤ 9216)), (0x1C, decide (n 0x1C 4 ≤ 65535)), (0x22, decide (n 0x22 1 ≤ 4))]
  | _ => []

/-- The first part that does not hold. -/
def firstBad (l : List Zero) : Option Nat := (l.find? (fun z => !z.2)).map (fun z => z.1)

/-- Check 1 of R117, in the order its row names: the byte offset of what fails. `cplOn`: the ring that CPL names is enabled. -/
def check1 (b : List Byte) (cplOn : Bool) : Option Nat :=
  match opcodeZeros b with
  | none => some 0
  | some z =>
    (firstBad (headerZeros b ++ z)).orElse (fun _ => (firstBad (opcodeRanges b)).orElse (fun _ =>
      if leAt b 4 4 = 0 then some 4 else if cplOn then none else some 2))

/-! ### Argument entries (R114) -/

/-- An argument entry's 16 bytes. -/
def argAt (b : List Byte) (o : Nat) : Arg :=
  { addr := leAt b o 8, len := leAt b (o + 8) 4, port := leAt b (o + 0xC) 1, kind := leAt b (o + 0xD) 1, hdr := nbit (leAt b (o + 0xE) 2) 0 }

/-- An entry is well formed (R113, R114); `flags`: its AFLAGS. -/
def argOk (a : Arg) (flags : Nat) : Bool :=
  decide (a.kind ≤ 4) && decide (flags < 2) && (if a.kind = 2 then decide (a.addr < 2 ^ 32) else decide (a.addr < 2 ^ 52)) &&
    (!a.hdr || (a.kind == 1 && a.addr % 32 == 0 && decide (32 ≤ a.len)))

/-- The port entry with a number. -/
def portOf (m : List Byte) (n : Nat) : Option Port := (imgPorts m).find? (fun p => p.port == n)

/-- Bytes of an argument beside its result header (R116). -/
def Arg.data (a : Arg) : Nat := if a.hdr then a.len - 32 else a.len

/-- An entry binds a port of the plan: its kind and at least its length, and no entry before it binds the port (R116). -/
def argBinds (m : List Byte) (as : List Arg) (i : Nat) (a : Arg) : Bool :=
  match portOf m a.port with
  | none => false
  | some p => p.kind == a.kind && (a.kind == 2 || decide (p.length ≤ a.data)) && !(as.take i).any (fun x => x.port == a.port)

/-- The first index at which a test fails. -/
def firstIndex {α : Type} (p : Nat → α → Bool) : Nat → List α → Option Nat
  | _, [] => none
  | i, a :: t => if p i a then firstIndex p (i + 1) t else some i

/-- Check 2 of R117: the DETAIL of what fails. `raw` is the argument block. -/
def Dev.check2 (d : Dev) (c : Cmd) (raw : List Byte) : Option Nat :=
  if !c.isRun && !c.isDraw then none
  else match firstIndex (fun i a => argOk a (leAt raw (16 * i + 0xE) 2)) 0 c.args with
    | some i => some (0x100 + i)
    | none =>
      if c.isDraw then (if d.effB (Off.GFX_CTX_CTRL (c.at 0x1C 1)) 0 then none else some 0x1C)
      else match d.plan c.inst c.planId with
        | none => some 0x10
        | some p =>
          match firstIndex (fun i a => argBinds p.image c.args i a) 0 c.args with
          | some i => some (0x100 + i)
          | none =>
            match (((imgPorts p.image).map (fun x => x.port)).mergeSort (fun a b => decide (a ≤ b))).find?
                (fun n => !c.args.any (fun a => a.port == n)) with
            | some n => some (0x200 + n)
            | none => none

/-! ### Regions (R113, R117) -/

/-- A region a command declares: the DETAIL that names it, address, length, and whether it is written. -/
structure Decl where
  detail : Nat
  addr : Nat
  len : Nat
  /-- Output, scratch, header or Keeper region. -/
  out : Bool
  /-- It must lie in memory-type ranges (R375). -/
  mem : Bool
  deriving DecidableEq, Repr

/-- The regions of argument entries; key-value arguments name sequences, not regions. -/
def argDecls (as : List Arg) : List Decl :=
  ((List.range as.length).zip as).filterMap (fun x =>
    if x.2.kind = 2 then none
    else some { detail := 0x100 + x.1, addr := x.2.addr, len := x.2.len, out := x.2.kind != 0, mem := x.2.kind == 1 || x.2.kind == 3 })

/-- Every region of a command (R114, R115). DESIGN CHOICE (log 59): the argument block is one, an input. -/
def Cmd.decls (c : Cmd) : List Decl :=
  let inp := fun (o l : Nat) => ({ detail := o, addr := c.at o 8, len := l, out := false, mem := false } : Decl)
  let out := fun (o l : Nat) => ({ detail := o, addr := c.at o 8, len := l, out := true, mem := true } : Decl)
  let opt := fun (o l : Nat) => if c.at o 8 = 0 then [] else [out o l]
  match c.op with
  | 0x01 => { detail := 0x18, addr := c.at 0x18 8, len := 16 * c.at 0x14 2, out := false, mem := true } :: argDecls c.args
  | 0x02 => [inp 0x18 (c.at 0x14 4)]
  | 0x10 => [inp 0x10 (c.at 0x20 4), out 0x18 (c.at 0x20 4 + 32 * (c.at 0x24 1 % 2))]
  | 0x11 => [out 0x10 (c.at 0x18 4)]
  | 0x12 => inp 0x10 (c.at 0x18 4) :: opt 0x28 8
  | 0x20 => [out 0x20 4]
  | 0x22 => [out 0x18 4]
  | 0x30 => inp 0x10 (c.at 0x18 4) :: { detail := 0x20, addr := c.at 0x20 8, len := 16 * c.at 0x28 2, out := false, mem := true } :: argDecls c.args
  | 0x40 => opt 0x18 8
  | 0x41 => [out 0x10 16]
  | 0x50 => [inp 0x10 (c.at 0x18 2)]
  | _ => []

/-- Check 3: every region of non-zero length inside one region of R44, outputs, scratch and headers of memory type. -/
def Dev.check3 (d : Dev) (l : List Decl) : Option Nat :=
  (l.find? (fun x => decide (0 < x.len) && !(d.inRegion x.addr x.len && (!x.mem || d.memType x.addr x.len)))).map (fun x => x.detail)

/-- Check 4: every region of non-zero length admitted to the owner's world and outside NODECL ranges; KIND 4 only for an instance
bound to the safety partition; a context only for its owner (R114, R376, R453). -/
def Dev.check4 (d : Dev) (c : Cmd) (l : List Decl) : Option Nat :=
  let w := d.world (.qe c.inst)
  let draw := if c.isDraw ∧ d.effF (Off.GFX_CTX_CTRL (c.at 0x1C 1)) 15 8 ≠ c.inst then some 0x1C else none
  draw.orElse (fun _ =>
    (l.find? (fun x =>
      (decide (0 < x.len) && !(d.attrAll x.addr x.len (fun a => a.admits w && !a.nodecl))) ||
        (decide (0x100 ≤ x.detail) && (c.args.getD (x.detail - 0x100) { addr := 0, len := 0, port := 0, kind := 0, hdr := false }).kind == 4 &&
          !d.instSafe c.inst))).map (fun x => x.detail))

/-- The bytes that the sequence of a KIND 2 argument holds: mapped pages and their index entries, or the reserved sequence's part of its region. -/
def Dev.kvRegionsOf (d : Dev) (h : Nat) : List (Nat × Nat) :=
  if !d.kvLive h then []
  else if isReserved h then [(d.rsvBase (rsvNum h), rsvBytes (d.rsvSeq (rsvNum h)))]
  else (d.kvRec (handleRec h)).slots.flatMap (fun x => [(d.kvPageAddr x.2, 65536), (d.kvIndexAddr x.2, 4096)])

/-- A region as check 5 sees it: its DETAIL, the bytes it covers, whether it must share none with others, and whether it is a sequence's. -/
structure Extent where
  detail : Nat
  addr : Nat
  len : Nat
  own : Bool
  kv : Bool

/-- What a command's regions cover, in their order, the key-value arguments in their places; local HBM by its local address (R45). -/
def Dev.extents (d : Dev) (c : Cmd) : List Extent :=
  let plain := fun (x : Decl) => ({ detail := x.detail, addr := d.localAddr x.addr, len := x.len, own := x.out, kv := false } : Extent)
  (c.decls.filter (fun x => decide (x.detail < 0x100))).map plain ++
    ((List.range c.args.length).zip c.args).flatMap (fun x =>
      if x.2.kind = 2 then
        (d.kvRegionsOf (x.2.addr % 2 ^ 32)).map (fun y => { detail := 0x100 + x.1, addr := d.localAddr y.1, len := y.2, own := true, kv := true })
      else (c.decls.filter (fun z => z.detail == 0x100 + x.1)).map plain)

/-- Two regions share a byte that one of them must have alone. Two sequences are told apart by their handles, since R293 has them share pages
(DEDUCED, log 59). -/
def Extent.clash (x y : Extent) : Bool :=
  (x.own || y.own) && !(x.kv && y.kv) && decide (0 < x.len ∧ 0 < y.len ∧ x.addr < y.addr + y.len ∧ y.addr < x.addr + x.len)

/-- Check 5: no written or key-value region shares a byte with another declared region, and no handle is named twice; the later one is reported. -/
def Dev.check5 (d : Dev) (c : Cmd) : Option Nat :=
  let l := d.extents c
  let bad := firstIndex (fun i (x : Extent) => !(l.take i).any (fun y => y.clash x)) 0 l
  let twice := firstIndex (fun i (a : Arg) => !(a.kind == 2 && (c.args.take i).any (fun y => y.kind == 2 && y.addr == a.addr))) 0 c.args
  match bad.bind (fun i => l[i]?.map (fun x => x.detail)), twice with
  | some x, some i => some (if 0x100 ≤ x then min x (0x100 + i) else x)
  | some x, none => some x
  | none, some i => some (0x100 + i)
  | none, none => none

/-! ### The checks in order (R117) -/

/-- The first check that fails: status and DETAIL. -/
def Dev.pickupChecks (d : Dev) (c : Cmd) (raw : List Byte) : Option (Nat × Nat) :=
  let l := c.decls
  match check1 c.desc (d.b (Off.QE_CPL_CTRL c.inst (c.at 2 1 % 16)) 0) with
  | some o => some (0x20, o)
  | none => match d.check2 c raw with
    | some o => some (0x20, o)
    | none => match d.check3 l with
      | some o => some (0x20, o)
      | none => match d.check4 c l with
        | some o => some (0x22, o)
        | none => match d.check5 c with
          | some o => some (0x21, o)
          | none =>
            if !c.isRun then none
            else match d.plan c.inst c.planId with
              | none => none
              | some p =>
                if (nbit (c.at 0x16 2) 0 || d.instSafe c.inst) && !p.isResident then some (0x23, 0)
                else if d.partRuns (d.instPart c.inst) && !d.fitsEmpty p (d.instPart c.inst) then some (0x24, 0)
                else none

end Sys2Proof.Machine
end

