-- ==== Sys2Proof/Machine/Recover.lean ====
section
/-! DEFINITION. Machine/Recover.lean: kill, re-run, timing supervision, teardown and partition reset (R129, R130, R173, R338 to R348, R379). -/

namespace Sys2Proof.Machine

/-- The rank of the outcome that ends a command with a status (R344). -/
def endRank (status : Nat) : Nat := match status with | 0x12 => 2 | 0x11 => 3 | _ => 5

/-- A decision ends a command in flight with a status: at once where it holds no tiles, else when they have stopped. A held
command keeps (R345); where a decision is already made R344 gives the one that stands. -/
def State.endCmd (s : State) (id status : Nat) : State :=
  match s.dev.cmd id with
  | none => s
  | some c =>
    match c.phase with
    | .held => s
    | .stopping f => if s.dev.outranked c f (endRank status) then s else s.onDev (fun d => d.kill id (some status) (endRank status))
    | _ => if (s.dev.tilesOf id).isEmpty then s.finish id status 0 else s.onDev (fun d => d.kill id (some status) (endRank status))

/-! ### Teardown (R345) -/

/-- The command rings of an instance stop, without an error (R130, R345). -/
def Dev.stopRings (d : Dev) (i : Nat) : Dev :=
  d.forEach 16 (fun r e => e.when (e.ringState i r == 1) (fun x => x.setF (Off.QE_CMD_STATUS i r) 1 0 2))

/-- Commands of an instance in flight. -/
def Dev.cmdsOf (d : Dev) (i : Nat) : List Nat := (d.cmdsWhere (fun c => c.inst == i)).map (fun x => x.1)

/-- The context of instance `i` is torn down; `stop`: the apply of ENABLE = 0 asks for it, so it ends in STOPPED. -/
def State.tearDown (s : State) (i : Nat) (stop : Bool) : State :=
  let b := stop || (s.dev.inst i).teardown == some true
  let t := s.onDev (fun d => (d.onInst i (fun x => { x with teardown := some b })).stopRings i)
  let u := (t.forAll (t.dev.cmdsOf i) (fun id x => x.endCmd id 0x11)).vcTeardown i
  u.onDev (fun d => { d with plans := d.plans.filter (fun p => p.inst != i) })

/-- A command whose tiles have stopped takes its final record (R130). -/
def State.endStopping (s : State) (id : Nat) : State :=
  match (s.dev.cmd id).map Cmd.phase with
  | some (.stopping (some st)) => s.finish id st 0
  | _ => s

/-- TEARDOWN_COMPLETE (R239, R345): the tiles have stopped, the banks are scrubbed, and the instance is TORN_DOWN or STOPPED. -/
def execTeardownComplete (inst : Nat) (s : State) : Host.Outcome State Fault Refusal :=
  .next (match (s.dev.inst inst).teardown with
    | none => s
    | some stop =>
      let t := s.forAll (s.dev.cmdsOf inst) (fun id x => x.endStopping id)
      let u := t.scrubRetained (t.dev.inst inst).ranOn
      (u.onDev (fun d =>
        ((d.onInst inst (fun x => { x with teardown := none, ranOn := [] })).setF (Off.QE_INST_STATUS inst) 1 0 (cond stop 0 3)).setB
          (Off.QE_INST_EVENTS inst) 0 true)).admitAll)

/-! ### Partition reset (R345, R347) -/

/-- Instances bound to a partition. -/
def Dev.boundTo (d : Dev) (p : Nat) (c : Cmd) : Bool := d.instPart c.inst == p

/-- A load that waits for its stream to be chosen (R345, R348). -/
def Load.waiting : Load := { stream := 0, tiles := [], banks := 0, need := none, started := none, taken := [] }

/-- The plans of a partition lose their residency; pinned ones are to be reloaded (R320, R345). -/
def Dev.evictPart (d : Dev) (p : Nat) (which : Plan → Bool) : Dev :=
  { d with plans := d.plans.map (fun x =>
      if d.instPart x.inst = p ∧ which x = true then { x.evicted with reload := if x.pinned then some Load.waiting else none } else x) }

/-- Partition `p` is reset: its commands end, its tiles go to RESETTING, plans leave the cache and pinned ones wait to be reloaded;
in the safety partition the Keeper takes the outputs (R345, R347). -/
def State.partReset (s : State) (p : Nat) : State :=
  if 8 ≤ p ∨ (s.dev.part p).resetting then s
  else
    let ids := (s.dev.cmdsWhere (fun c => s.dev.boundTo p c)).map (fun x => x.1)
    let t := s.onDev (fun d => d.onPart p (fun x => { x with resetting := true }))
    let u := t.forAll ids (fun id x => x.endCmd id 0x12)
    u.onDev (fun d =>
      let e := (d.forAll (d.partTiles p) (fun t f => (f.setF (Off.TILE_STATUS t) 2 0 5).settleClock t)).evictPart p (fun _ => true)
      let f := (e.rsvPartReset p).onPart p (fun x =>
        { x with streams := x.streams.map (fun st => { st with admitted := [], moved := [] }) })
      f.when (d.safetyNow == some p) (fun g => { g with judge := { g.judge with restarts := true } }.takeover.setF Off.START_STAGE 15 8 (g.f Off.KPR_CTRL 7 0)))

/-- The reset that an uncorrectable error in memory of the safety partition asks for (R241, R345). -/
def State.serveReset (s : State) : State :=
  if s.dev.safetyReset then
    let t := s.onDev (fun d => { d with safetyReset := false })
    match t.dev.safetyNow with
    | none => t
    | some p => t.partReset p
  else s

/-- A command ends without commit by a status that its own read brought, and what that error resets follows (R120, R241, R344, R345). -/
def State.inputEnd (s : State) (id status : Nat) : State := (s.finish id status 0).serveReset.admitAll

/-- PARTITION_RESET_END (R239, R345): the tiles are cleared and IDLE, every bank of the partition is scrubbed, and admission resumes at
the next Over edge. -/
def execPartitionResetEnd (p : Nat) (s : State) : Host.Outcome State Fault Refusal :=
  .next (if (s.dev.part p).resetting then
    let ids := (s.dev.cmdsWhere (fun c => s.dev.boundTo p c)).map (fun x => x.1)
    let t := s.forAll ids (fun id x => x.endStopping id)
    let u := (t.onDev (fun d => d.forAll ((d.partTiles p).filter (fun t => d.tileState t == 5)) (fun t e => ((e.tileClear t).tileFree t).settleClock t))).scrubPart p
    u.onDev (fun d => (d.onPart p (fun x => { x with resetting := false, resumeAtEdge := true })).setB Off.SCH_EVENTS 2 true)
  else s)

/-- SCH_PART_RESET (R345, R359): a write of 1 resets the partition at once. -/
def execSchPartReset (m : Master) (p value : Nat) (s : State) : Host.Outcome State Fault Refusal :=
  .next (match s.dev.setupRefused m (Off.SCH_PART_RESET p) 4 with
    | some d => { s with dev := d }
    | none => (if value = 1 ∧ p < 8 then s.partReset p else s).onDev (fun d => d.answer .ok))

/-- A command ends by a fault of its own (R165, R176, R241, R344, R345): it keeps that status; `recover`: its instance's context is
torn down, or the safety partition is reset. -/
def State.ownFault (s : State) (id status : Nat) (recover : Bool) : State :=
  match s.dev.cmd id with
  | none => s
  | some c =>
    let safe := s.dev.instSafe c.inst
    let p := s.dev.instPart c.inst
    let t := s.finish id status 0
    if safe then t.partReset p else if recover then t.tearDown c.inst false else t.admitAll

/-! ### Kill (R129, R130, R173, R338 to R342) -/

/-- A killed command whose tiles are clear waits for admission again, or is held by a freeze, which writes no record (R126, R341, R353). -/
def State.requeue (s : State) (id : Nat) (hold : Bool) : State :=
  match s.dev.cmd id with
  | none => s
  | some c =>
    let t := (s.releaseTiles id).onDev (fun d => (d.kvRelease c).discardAhead c)
    (if hold then t else t.killRecord c).onDev (fun d => (d.unschedule id).onCmd id (fun x =>
      { x with phase := if hold then .held else .waiting, kills := x.kills + 1, kv := [], kvNew := none, clamps := 0, voidRows := false, status := 0, detail := 0,
               endedA := false, endedB := false, judged := false, overran := false, frame := none, picks := [], launched := [], moe := [], ahead := [], image := [], result := 0, draw := .start
               load := none, charge := 0, decided := none }))

/-- TILE_KILL (R126, R130, R173, R341): the tiles of a killed command have stopped and are cleared; the command waits for its re-run, or
takes its final record. -/
def execTileKill (id : Nat) (s : State) : Host.Outcome State Fault Refusal :=
  .next (match s.dev.cmd id with
    | none => s
    | some c => match c.phase with
      | .stopping none => (s.requeue id ((s.dev.inst c.inst).op == 1)).admitAll
      | .stopping (some st) => (s.finish id st 0).admitAll
      | _ => s)

/-- The time budget of a command, in µs (R112, R338, R339). -/
def Cmd.timeBudget (c : Cmd) : Nat := if c.budgetUs ≠ 0 then c.budgetUs else if c.isRun then c.wcetUs else 10000

/-- The command runs and has not committed. -/
def Cmd.running (c : Cmd) : Bool := c.phase == .running || c.phase == .ended

/-- GRACE_US in force. -/
def Dev.graceUs (d : Dev) : Nat := fld d.sched.ctrl 17 8

/-- BUDGET_OVERRUN_KILL (R338): budget plus grace has elapsed without commit; the command ends in TIMEOUT. -/
def execBudgetOverrunKill (id : Nat) (s : State) : Host.Outcome State Fault Refusal :=
  .next (match s.dev.cmd id with
    | none => s
    | some c =>
      if c.running ∧ c.startAt + (c.timeBudget + s.dev.graceUs) * 1000 ≤ s.dev.now then
        let t := s.onDev (fun d => (d.incSat Off.SCH_CNT_OVERRUN).setB Off.SCH_EVENTS 1 true)
        t.endCmd id 0x13
      else s)

/-- SAFETY_BUDGET_ELAPSED (R339): the common budget of the copies has elapsed before commit; code 3 is raised for each copy that has
not ended, or once for copy A when only the comparison remains. -/
def execSafetyBudgetElapsed (id : Nat) (s : State) : Host.Outcome State Fault Refusal :=
  .next (match s.dev.cmd id with
    | none => s
    | some c =>
      if c.running && c.isRun && s.dev.instSafe c.inst && !c.overran && decide (c.startAt + c.timeBudget * 1000 ≤ s.dev.now) then
        s.onDev (fun d =>
          let e := d.onCmd id (fun x => { x with overran := true })
          let f := e.when (!c.endedA || c.endedB) (fun x => x.doubt 3 c.inst)
          f.when (!c.endedB) (fun x => x.doubt 3 (c.inst + 0x100)))
      else s)

/-- A deadline that has passed ends the command with TIMEOUT (R123, R342). -/
def State.deadline (s : State) (id : Nat) (c : Cmd) : State := if s.dev.late c then s.endCmd id 0x13 else s

/-- Every command in flight whose deadline has passed (R123). -/
def State.deadlines (s : State) : State := s.forAll s.dev.cmds (fun x t => t.deadline x.1 x.2)

/-- An instance's new partition is in force: every plan leaves the old one and pinned plans are to be reloaded in the new one (R348). -/
def Dev.moveInst (d : Dev) (i : Nat) : Dev :=
  let e := d.onInst i (fun x => { x with oldPart := none })
  { e with plans := e.plans.map (fun x =>
      if x.inst = i then { x.evicted with reload := if x.pinned then some Load.waiting else none } else x) }

/-- INSTANCE_PARTITION_CHANGE (R348): with no command in flight the new partition is in force. -/
def execInstancePartitionChange (inst : Nat) (s : State) : Host.Outcome State Fault Refusal :=
  .next (if (s.dev.inst inst).oldPart.isSome && s.dev.instFlight inst == 0 then
    (s.onDev (fun d => d.moveInst inst)).admitAll
  else s)

/-- RUNAHEAD_DISCARD (R379): a run-ahead read whose data is never used is counted against the entry that its address matches. -/
def execRunaheadDiscard (addr : Nat) (s : State) : Host.Outcome State Fault Refusal :=
  .next (s.onDev (fun d =>
    if addr ∈ d.discards then
      let e := { d with discards := d.discards.erase addr }
      match e.rtEntry addr with
      | none => e
      | some n => ((e.incSat (Off.RT_DISCARD_CNT n)).setAddr (Off.RT_DISCARD_ADDR_LO n) (Off.RT_DISCARD_ADDR_HI n) addr).when
          (e.b (Off.RT_ATTR n) 5) (fun x => x.setB Off.RT_EVENTS 1 true)
    else d))

end Sys2Proof.Machine
end

