-- ==== Sys2Proof/Machine/Start.lean ====
section
/-! DEFINITION. Machine/Start.lean: power good, the stages and the boot fetch (R51 to R87). -/

namespace Sys2Proof.Machine

/-- `d` with the start changed. -/
def Dev.onStart (d : Dev) (g : StartSt → StartSt) : Dev := { d with start := g d.start }

/-- `d` with the boot fetch changed. -/
def Dev.onFetch (d : Dev) (g : Fetch → Fetch) : Dev := d.onStart (fun t => { t with fetch := g t.fetch })

/-- A sticky start failure is set (R58). -/
def Dev.startFail (d : Dev) (bit : Nat) : Dev := d.setB Off.START_FAIL bit true

/-- KEEPER_ONLY is set until the next power good (R57). -/
def Dev.keeperOnly (d : Dev) : Dev := d.setB Off.START_STAGE 3 true

/-- The stage becomes `k` (R57). -/
def Dev.setStage (d : Dev) (k : Nat) : Dev := d.setF Off.START_STAGE 2 0 k

/-- BOOT_MODE of the straps (R60). -/
def Dev.bootMode (d : Dev) : Nat := d.f Off.START_STRAPS 1 0

/-- Stages after S1 run: BOOT_MODE is not provisioning (R60). -/
def Dev.startsOn (d : Dev) : Bool := d.bootMode != 1

/-! ### S0 and S1 -/

/-- The straps and module pins are latched (R43, R60, R572); BOOT_MODE 2 and 3 never leave the Keeper. -/
def Dev.latchPins (d : Dev) (straps modId modCnt : Nat) : Dev :=
  let e2 := (d.wn Off.START_STRAPS (straps % 16)).wn Off.GLB_MODULE
    (modId % 4 + modCnt % 4 * 4 + (if modId % 4 = 0 then 16 else 0))
  let e3 := e2.when (straps % 4 == 3) (fun e => e.startFail 10)
  e3.when (decide (2 ≤ straps % 4)) Dev.keeperOnly

/-- The block at a power good: everything at its reset value but the part, with the pins latched (R51, R66). -/
def Dev.atPowerGood (d : Dev) (straps modId modCnt : Nat) (islandOk : Bool) : Dev :=
  let e0 : Dev := { Dev.reset with hbmStacks := d.hbmStacks, ioDies := d.ioDies, stepping := d.stepping, fresh := d.fresh, out := d.out }
  let e1 := { e0 with vox := { e0.vox with oppOlder := d.vox.oppOlder } }
  (e1.onStart (fun t => { t with powered := true, halted := !islandOk })).latchPins straps modId modCnt

/-- POWER_GOOD (R51, R53, R60, R64, R66): S0 begins. Memory holds nothing; flash keeps its contents. -/
def execPowerGood (straps modId modCnt : Nat) (islandOk : Bool) (s : State) : Host.Outcome State Fault Refusal :=
  .next { s with dev := s.dev.atPowerGood straps modId modCnt islandOk, mem := [] }

/-- The Keeper runs a table from the end of S0: setpoints at SP_DEFAULT, outputs at their values (R64, R419). -/
def Dev.useTable (d : Dev) (k : KTable) : Dev :=
  let e := d.onKeeper (fun x => { x with table := k, loops := [], inputs := [], alive := [], startAt := d.islandNow, stepped := [], framed := [], seen := [] })
  ((e.forAll k.loops (fun p y => y.wn (Off.KPR_LOOP_SP p.1) p.2.spDefault.toNat)).wn Off.KPR_TABLE_SEQ k.sequence).drivePwm

/-- The Keeper table's region as it was at power good (R64, R94). -/
def State.tableBytes (s : State) : List Byte := s.dev.start.tableKept.getD (s.flashBytes 0x100000 0x2B80)

/-- The table a power good finds in flash: `none` stands for the ROM default table (R64, R65). -/
def State.flashTable (s : State) (rsaOk mldsaOk : Bool) : Option KTable :=
  if rsaOk && mldsaOk && tableOk s.tableBytes s.dev.lsIdent then some (parseTable s.tableBytes) else none

/-- S1 begins: the warm-up runs (R51, R451). -/
def Dev.startWarmup (d : Dev) : Dev := (d.setStage 1).wn Off.WUP_STATUS (2 ^ 8)

/-- KEEPER_TABLE_LOAD (R64, R65): the table is verified or the ROM default table taken; S0 ends, and with the island started MOD_FAULT_N is released (R593). -/
def execKeeperTableLoad (rsaOk mldsaOk : Bool) (s : State) : Host.Outcome State Fault Refusal :=
  .next (s.onDev (fun d =>
    if d.start.powered && !d.start.halted && d.stage == 0 then
      let e := d.onStart (fun t => { t with modFault := false })
      match s.flashTable rsaOk mldsaOk with
      | some k => (e.useTable k).startWarmup
      | none => (((e.useTable Dev.reset.keeper.table).startFail 0).setB Off.KPR_STATUS 2 true).startWarmup
    else d))

/-- The blocks held in reset since power good leave it (R52): tiles become IDLE with their links trained but for those
named (R185, R189), the island's Over monitor is armed (R53). -/
def Dev.release (d : Dev) (untrained : List (Nat × Nat)) : Dev :=
  ((d.forEach 64 (fun t e => (e.setF (Off.TILE_STATUS t) 2 0 1).wn (Off.TILE_ROUTER_STATUS t) (routerLinks t))).forAll untrained (fun x e =>
    e.linkUntrained x.1 x.2)).onStart (fun x => { x with released := true, monitor := true })

/-- WUP_STATUS and WUP_TIME_US at the end of the warm-up (R451). -/
def Dev.warmupResult (d : Dev) (failStep micros : Nat) : Dev :=
  (d.wn Off.WUP_STATUS (if failStep = 0 then 13 + 2 * 2 ^ 8 else (failStep - 1) + 3 * 2 ^ 8 + failStep * 2 ^ 16)).wn Off.WUP_TIME_US micros

/-- The warm-up runs the step: after a watchdog reset it skips those that test the island (R550). -/
def Dev.warmupRuns (d : Dev) (step : Nat) : Bool := d.f Off.WLD_RESET_CAUSE 1 0 != 1 || !(List.contains [3, 4, 5, 6, 13] step)

/-- WARMUP_COMPLETE (R52, R53, R67, R404, R441): S1 ends; a failed step sets WARMUP_FAIL and KEEPER_ONLY and raises code 9. The ages of the
periodic tests count from here (R444). -/
def execWarmupComplete (failStep : Nat) (w : Warmup) (s : State) : Host.Outcome State Fault Refusal :=
  .next (s.onDev (fun d =>
    if d.start.powered && !d.start.halted && d.stage == 1 && !d.start.released && d.warmupRuns failStep then
      let e := (((d.warmupResult failStep w.micros).onKeeper (fun k => { k with warmAt := d.islandNow })).when (failStep != 0) (fun x => ((x.startFail 1).keeperOnly).doubt 9 failStep)).release w.untrained
      e.when e.startsOn (fun x => x.setStage 2)
    else d))

/-! ### S2: the boot fetch (R72 to R76) -/

/-- The module's link-local address: fe80::/64 with the device's identifier (R72). -/
def linkLocal : List Byte := [0xFE, 0x80, 0, 0, 0, 0, 0, 0] ++ (List.range 8).map Config.deviceIdent

/-- The multicast group of discovery messages, ff02::f7a1 (R72). -/
def fetchGroup : List Byte := [0xFF, 0x02, 0, 0, 0, 0, 0, 0, 0, 0, 0, 0, 0, 0, 0xF7, 0xA1]

/-- A boot-fetch message (R73): the 16-byte header and the payload. -/
def fetchFrame (type session block : Nat) (payload : List Byte) (status : Nat) : List Byte :=
  leBytes 2 0x4642 ++ leBytes 1 1 ++ leBytes 1 type ++ leBytes 4 session ++ leBytes 4 block ++ leBytes 2 payload.length ++ leBytes 2 status ++ payload

/-- A boot-fetch message is sent to an address, on BOOT_VLAN with priority code point 6, from UDP port 47,411 to the server's (R68, R72). -/
def Dev.fetchSend (d : Dev) (dst : List Byte) (type session block : Nat) (payload : List Byte) (status : Nat) : Dev :=
  d.emit (.udp d.start.vlan 6 linkLocal dst 47411 d.start.port (fetchFrame type session block payload status))

/-- Where discovery messages go: FETCH_SERVER, or the multicast group where it is zero (R72). -/
def Dev.fetchServer (d : Dev) : List Byte := if d.start.server.isEmpty then fetchGroup else d.start.server

/-- The header of a received message is that of a boot-fetch message with `n` bytes of payload (R73). A message with another header is no
boot-fetch message and is ignored (DEDUCED, log 57). -/
def fetchHdrOk (h : FetchHdr) (n : Nat) : Bool := h.magic == 0x4642 && h.version == 1 && h.length == n

/-- The payload of SOLICIT: LS_IDENT, the identifier, the record's SEQUENCE (R74). -/
def Dev.solicitPayload (d : Dev) : List Byte :=
  leBytes 4 d.lsIdent ++ (List.range 8).map Config.deviceIdent ++ leBytes 4 (d.n Off.CFG_REC_SEQ)

/-- SOLICIT is sent with a reason in STATUS, and an OFFER is awaited for `waitMs`; what an earlier OFFER began is dropped (R73 to R75). -/
def Dev.solicit (d : Dev) (reason waitMs : Nat) : Dev :=
  (d.fetchSend d.fetchServer 1 0 0 d.solicitPayload reason).onFetch
    (fun _ => { active := true, failed := false, waitMs := waitMs, since := d.now, peer := [], offer := none, nextBlock := 0, outstanding := [],
                received := [], retries := [], asked := [], reason := reason })

/-- A new solicitation: FW_RETRYING is set (R58). -/
def Dev.solicitAgain (d : Dev) (reason waitMs : Nat) : Dev := (d.startFail 5).solicit reason waitMs

/-- An attempt has failed: SOLICIT follows after 1 s with the reason (R75). -/
def Dev.fetchFails (d : Dev) (reason : Nat) : Dev :=
  d.onFetch (fun f => { f with active := false, failed := true, offer := none, waitMs := 1000, since := d.now, reason := reason })

/-- Blocks of an image. -/
def blockCount (len size : Nat) : Nat := (len + size - 1) / size

/-- READ of `n` consecutive blocks from `b`, sent to the server whose OFFER was accepted (R73, R74). -/
def Dev.readBlocks (d : Dev) (session b n : Nat) : Dev :=
  if n = 0 then d
  else
    (d.fetchSend d.start.fetch.peer 3 session (b + (n - 1) * 2 ^ 28) [] 0).onFetch
      (fun f => { f with outstanding := f.outstanding ++ (List.range n).map (fun i => b + i), nextBlock := max f.nextBlock (b + n)
                         asked := (List.range n).foldl (fun m i => KMap.put m (b + i) d.now) f.asked })

/-- MGMT_LINK_UP (R68, R72): the fetch begins once the record has been read. -/
def execMgmtLinkUp (s : State) : Host.Outcome State Fault Refusal :=
  .next (s.onDev (fun d =>
    if d.runs && d.stage == 2 && d.start.recordRead && !d.start.voxsar && !d.start.fetch.active && !d.start.fetch.failed then d.solicit 0 100 else d))

/-- OFFER (R74, R75): the first valid one is accepted; one out of range is answered with ERROR, and SOLICIT follows after 1 s. DESIGN CHOICE (log 57):
that ERROR carries no payload and STATUS 0, since R73 and R74 define neither for the module's own; an image of length 0 is complete at once
and fails its length. -/
def execFetchOffer (m : FetchMsg) (imageLen version blockSize : Nat) (s : State) : Host.Outcome State Fault Refusal :=
  .next (s.onDev (fun d =>
    if d.runs && d.stage == 2 && d.start.fetch.active && d.start.fetch.offer.isNone && fetchHdrOk m.h m.payload && m.h.block == 0 then
      if 12 * 2 ^ 20 < imageLen ∨ blockSize < 512 ∨ 1408 < blockSize then (d.fetchSend m.src 6 m.h.session 0 [] 0).fetchFails 4
      else if imageLen = 0 then (d.startFail 6).fetchFails 4
      else
        (d.onFetch (fun f => { f with offer := some (m.h.session, imageLen, version, blockSize), peer := m.src })).readBlocks m.h.session 0
          (min 16 (blockCount imageLen blockSize))
    else d))

/-- Why a complete image is rejected: 2 signature, 3 version, 4 length (R63, R73, R75). Whether the length agrees with the image is its own format's. -/
def Dev.imageReason (d : Dev) (version : Nat) (rsaOk mldsaOk lengthOk : Bool) : Nat :=
  if !(rsaOk && mldsaOk) then 2 else if version < d.start.minFw then 3 else if !lengthOk then 4 else 0

/-- The first operating points (R84, R139, R564): the stored ones, each clock within its limits; else conservative defaults, with every tile at its
floor, the core groups at their lowest step, maximum voltage margin and the highest scrub rate. -/
def Dev.firstPoints (d : Dev) (opp : Option Points) : Dev :=
  match opp with
  | none => ((d.startFail 7).forEach 64 (fun t e => e.setF (Off.TILE_FREQ t) 10 0 (e.floorMhz t))).onPower (fun p =>
      { p with groups := [], volts := [], eq := [], scrub := [] })
  | some x => (d.forEach 64 (fun t e => (e.setF (Off.TILE_FREQ t) 10 0 (x.tiles.getD t (e.floorMhz t))).settleClock t)).onPower (fun p =>
      { p with
        groups := (List.range 4).foldl (fun m g => KMap.put m g (max 800 (min 3000 (x.groups.getD g 800)))) []
        volts := x.volts, eq := x.eq
        scrub := (List.range 8).foldl (fun m k => KMap.put m k (max 1 (min 24 (x.scrub.getD k 1)))) [] })

/-- `n` numbers from `a`. -/
def numbers (a n : Nat) : List Nat := (List.range n).map (fun i => a + i)

/-- `d` with Voxsar changed. -/
def Dev.onVox (d : Dev) (g : Voxsar → Voxsar) : Dev := { d with vox := g d.vox }

/-- Voxsar writes the identity record; what its image alone determines is open. -/
def Dev.writeRecord (d : Dev) (version : Nat) : Dev :=
  let n := d.fresh
  let w := fun (k : Nat) => (Config.freeWord (n + k)).toNat
  ({ d with fresh := n + 64 }).onVox (fun v =>
    { v with record := leBytes 4 0x58564449 ++ leBytes 2 (w 0) ++ leBytes 2 (w 1) ++ leBytes 2 (w 2) ++ leBytes 2 16 ++ leBytes 4 version ++
        leBytes 4 d.lsIdent ++ leBytes 4 (w 3 % 2) ++ leBytes 4 (w 4) ++ leBytes 4 (w 5) ++ (numbers 6 32).map (fun k => Config.freeByte (n + k)) })

/-- Voxsar starts: DONE is sent and S3 begins (R76, R557). -/
def Dev.voxsarStart (d : Dev) (session version : Nat) (opp : Option Points) : Dev :=
  ((((d.writeRecord version).fetchSend d.start.fetch.peer 5 session 0 [] 0).onStart (fun x =>
    { x with voxsar := true, fetch := { x.fetch with active := false } })).firstPoints opp).setStage 3

/-- The bytes a block of the image carries. -/
def blockLen (imageLen size b : Nat) : Nat := min size (imageLen - b * size)

/-- A block has been received; the last one brings the verification, and another is followed by the next READ (R74 to R76). -/
def Dev.blockTaken (d : Dev) (session len version size block : Nat) (rsaOk mldsaOk lengthOk : Bool) (opp : Option Points) : Dev :=
  let e := d.onFetch (fun f => { f with outstanding := f.outstanding.filter (fun b => b != block), received := block :: f.received })
  if e.start.fetch.received.length = blockCount len size then
    if e.imageReason version rsaOk mldsaOk lengthOk = 0 then e.voxsarStart session version opp
    else (e.startFail 6).fetchFails (e.imageReason version rsaOk mldsaOk lengthOk)
  else if e.start.fetch.nextBlock < blockCount len size then e.readBlocks session e.start.fetch.nextBlock 1
  else e

/-- DATA (R73 to R76): one block of the accepted session into the image region; a message with another header or length is ignored. -/
def execFetchData (h : FetchHdr) (bytes : List Byte) (rsaOk mldsaOk lengthOk : Bool) (opp : Option Points) (s : State) : Host.Outcome State Fault Refusal :=
  .next (match s.dev.start.fetch.offer with
    | none => s
    | some (ses, len, ver, size) =>
      if s.dev.runs && s.dev.stage == 2 && fetchHdrOk h bytes.length && ses == h.session && s.dev.start.fetch.outstanding.contains h.block &&
          bytes.length == blockLen len size h.block then
        (s.put (0x1200000 + h.block * size) bytes).onDev (fun d => d.blockTaken ses len ver size h.block rsaOk mldsaOk lengthOk opp)
      else s)

/-- The message belongs to the solicitation that runs: before an OFFER is accepted to any session, after it to its own (R73). -/
def Fetch.ofSession (f : Fetch) (session : Nat) : Bool :=
  f.active && (match f.offer with | none => true | some (ses, _, _, _) => ses == session)

/-- ERROR from the server, with a reason code that bears on nothing (R74): the module solicits again. DESIGN CHOICE (log 57): with reason 0,
since none of the reasons of R73 is the server's. -/
def execFetchError (m : FetchMsg) (_reason : Nat) (s : State) : Host.Outcome State Fault Refusal :=
  .next (s.onDev (fun d =>
    if d.runs && d.stage == 2 && fetchHdrOk m.h m.payload && m.h.block == 0 && d.start.fetch.ofSession m.h.session then d.solicitAgain 0 100 else d))

/-- SOLICIT_RETRY (R75): no OFFER has come in the wait, or 1 s has passed since a failure: SOLICIT again; the wait doubles up to 2 s.
DESIGN CHOICE (log 57): a SOLICIT repeated for want of an OFFER carries the same reason again. -/
def execSolicitRetry (s : State) : Host.Outcome State Fault Refusal :=
  .next (s.onDev (fun d =>
    let f := d.start.fetch
    if d.runs && d.stage == 2 && (f.failed || (f.active && f.offer.isNone)) && decide (f.since + f.waitMs * 1000000 ≤ d.now) then
      d.solicitAgain f.reason (if f.failed then 100 else min 2000 (f.waitMs * 2))
    else d))

/-- BOOT_DATA_TIMEOUT (R75): 20 ms without DATA for an outstanding block: READ again; after 5 retries of one block, SOLICIT again. -/
def execBootDataTimeout (block : Nat) (s : State) : Host.Outcome State Fault Refusal :=
  .next (s.onDev (fun d =>
    let f := d.start.fetch
    match f.offer with
    | none => d
    | some (ses, _, _, _) =>
      if d.runs && d.stage == 2 && f.outstanding.contains block && decide (KMap.getD f.asked block 0 + 20000000 ≤ d.now) then
        if KMap.getD f.retries block 0 < 5 then
          (d.fetchSend f.peer 3 ses block [] 0).onFetch (fun x =>
            { x with retries := KMap.put x.retries block (KMap.getD x.retries block 0 + 1), asked := KMap.put x.asked block d.now })
        else d.solicitAgain 1 100
      else d))

/-! ### S3 to S5 -/

/-- Where a site's training results lie in the region of R61. DESIGN CHOICE (log 6). -/
def trainingOff (site : Nat) : Nat := 0x400000 + site * 0x80000

/-- New training results are stored (R83). -/
def State.storeTraining (s : State) (x : Nat × List Byte) : State :=
  if s.dev.sitePopulated x.1 && decide (x.1 < 8) then
    (s.flashErase (trainingOff x.1) 0x80000).flashProgram (trainingOff x.1) (x.2.take 0x80000)
  else s

/-- START_CTRL_READY (R85): bit 0 from the secure world ends S4; a write before S4 is ignored. -/
def execStartCtrlReady (m : Master) (value : Nat) (s : State) : Host.Outcome State Fault Refusal :=
  .next (match s.dev.setupRefused m Off.START_CTRL 4 with
    | some d => { s with dev := d }
    | none => s.onDev (fun d => (d.when (nbit value 0 && d.stage == 4) (fun e => e.onStart (fun x => { x with ready := true }))).answer .ok))

/-- PCIE_CONFIG_REQUEST (R55): Configuration Request Retry Status until S5; a port the variant lacks, or not yet enabled, does not answer. -/
def execPcieConfigRequest (port : Nat) (s : State) : Host.Outcome State Fault Refusal :=
  .next (s.onDev (fun d =>
    if d.ioDies ≤ port ∨ d.start.voxsar = false then d.answer .none
    else if d.stage < 5 then d.answer .retry
    else d.answer .ok))

end Sys2Proof.Machine
end

