-- ==== Sys2Proof/Machine/Umpire.lean ====
section
/-! DEFINITION. Machine/Umpire.lean: HBM sites, their ECC, and the umpires (R364 to R368, R380 to R393). -/

namespace Sys2Proof.Machine

/-- REFRESH_2X (R368, R393): above 85 °C a site refreshes at twice the rate, and below it no longer. -/
def execRefresh2x (k : Nat) (hot : Bool) (s : State) : Host.Outcome State Fault Refusal :=
  .next (s.onDev (fun d =>
    if !d.sitePopulated k then d
    else (d.when (hot && !d.b (Off.UMP_STATUS k) 1) (fun e => e.setB (Off.UMP_EVENTS k) 3 true)).setB (Off.UMP_STATUS k) 1 hot))

/-! ### Umpires (R383 to R389) -/

/-- W in force. -/
def Umpire.window (u : Umpire) : Nat := (fld u.ctrl 3 0 + 1) * 256

/-- BL in force. -/
def Umpire.burstLimit (u : Umpire) : Nat := fld u.ctrl 13 8 + 1

/-- The class has HP. -/
def Umpire.hp (u : Umpire) (c : Nat) : Bool := bitOf (u.classes.getD c 0) 15

/-- MIN, or QUOTA for an HP class: the refill value and the guarantee (R384, R388). -/
def Umpire.refill (u : Umpire) (c : Nat) : Nat := if u.hp c then fld (u.classes.getD c 0) 27 16 else fld (u.classes.getD c 0) 11 0

/-- WEIGHT + 1. -/
def Umpire.weight (u : Umpire) (c : Nat) : Nat := fld (u.weights.getD c 0) 7 0 + 1

/-- Credit of a class. -/
def Umpire.creditOf (u : Umpire) (c : Nat) : Nat := KMap.getD u.credit c 0

/-- Share count of a class, 32 bits. -/
def Umpire.shareOf (u : Umpire) (c : Nat) : Nat := KMap.getD u.share c 0

/-- An umpire at a window's start with the applied settings of its site (R383, R384). -/
def Dev.umpStart (d : Dev) (k : Nat) (queue : List UmpReq) (grant : Option UmpGrant) : Umpire :=
  let u : Umpire := { ctrl := d.r (Off.UMP_CTRL k), classes := (List.range 16).map (fun c => d.r (Off.UMP_CLASS_CTRL k c))
                      weights := (List.range 16).map (fun c => d.r (Off.UMP_WEIGHT k c)), credit := [], share := [], queue := queue
                      grant := grant, got := [], idle := [], masked := [], exempt := false }
  { u with credit := (List.range 16).foldl (fun m c => KMap.put m c (u.refill c)) [] }

/-- The umpire of pseudo-channel `p` of site `k`. -/
def Dev.umpire (d : Dev) (k p : Nat) : Umpire := (KMap.find d.umps (k * 32 + p)).getD (d.umpStart k [] none)

/-- `d` with an umpire replaced. -/
def Dev.setUmpire (d : Dev) (k p : Nat) (u : Umpire) : Dev := { d with umps := KMap.put d.umps (k * 32 + p) u }

/-- The best of the classes that satisfy `ok`, by `better`; ties go to the lower class. -/
def bestClass (ok : Nat → Bool) (better : Nat → Nat → Bool) : Option Nat :=
  (List.range 16).foldl (fun b c => if !ok c then b else match b with | none => some c | some x => if better c x then some c else b) none

/-- The class and step of R385 that win the next grant. -/
def Umpire.winner (u : Umpire) : Option (Nat × Nat) :=
  let wants := fun (c : Nat) => u.queue.any (fun r => r.cls == c)
  let hpWants := fun (c : Nat) => u.queue.any (fun r => r.cls == c && r.realTime)
  let fuller := fun (c x : Nat) => decide (u.creditOf x < u.creditOf c)
  let open_ := fun (c : Nat) => !u.masked.contains c
  match bestClass (fun c => u.hp c && hpWants c && decide (0 < u.creditOf c) && open_ c) fuller with
  | some c => some (c, 1)
  | none => match bestClass (fun c => !u.hp c && wants c && decide (0 < u.creditOf c)) fuller with
    | some c => some (c, 2)
    | none => (bestClass (fun c => wants c && open_ c)
        (fun c x => decide (u.shareOf c * u.weight x < u.shareOf x * u.weight c))).map (fun c => (c, 3))

/-- The request of a class that is served next, in order of arrival; under step 1 a real-time master's. -/
def Umpire.takeReq (u : Umpire) (c step : Nat) : Option UmpReq := u.queue.find? (fun r => r.cls == c && (step != 1 || r.realTime))

/-- A grant is made where none is in force (R385). -/
def Umpire.grantNext (u : Umpire) : Umpire :=
  match u.grant with
  | some _ => u
  | none => match u.winner with
    | none => u
    | some (c, step) => match u.takeReq c step with
      | none => u
      | some r => { u with queue := u.queue.erase r, grant := some { req := r, step := step, made := 0 } }

/-- A class has demand that its guarantee covers: any request waits, and for an HP class one of a real-time master (R388). -/
def Umpire.demand (u : Umpire) (c : Nat) : Bool := u.queue.any (fun r => r.cls == c && (!u.hp c || r.realTime))

/-- Two controller cycles pass for the requests that wait, and for the classes that hold no grant (R388, R389). -/
def Dev.umpWait (d : Dev) (k p : Nat) (u : Umpire) : Dev :=
  let has := u.grant.map (fun g => g.req.cls)
  let waiting := (List.range 16).filter (fun c => some c != has && u.queue.any (fun r => r.cls == c))
  let idle := u.idle ++ (List.range 16).filter (fun c => some c != has && !u.demand c && !u.idle.contains c)
  let queue := u.queue.map (fun r => { r with waited := r.waited + 2 })
  let d1 := d.forAll waiting (fun c e => e.add64 (Off.UMP_CNT_WAIT k c) 2)
  let d2 := d1.forAll queue (fun r e => if e.n (Off.UMP_MAX_WAIT k r.cls) < r.waited then e.wn (Off.UMP_MAX_WAIT k r.cls) (min r.waited (2 ^ 32 - 1)) else e)
  d2.setUmpire k p { u with idle := idle, queue := queue }

/-- The time of one burst: the burst of the grant in force, and two cycles of waiting for the rest (R385, R387, R389). -/
def Dev.umpBurst (d : Dev) (k p : Nat) : Dev :=
  let d2 := d.umpWait k p (d.umpire k p).grantNext
  let u := d2.umpire k p
  match u.grant with
  | none => d2
  | some g =>
    let c := g.req.cls
    let credit := if g.step = 3 then u.credit else KMap.put u.credit c (u.creditOf c - 1)
    let share := if g.step = 3 then KMap.put u.share c ((u.shareOf c + 1) % 2 ^ 32) else u.share
    let left := g.req.bursts - 1
    let spent := g.step != 3 && u.creditOf c - 1 == 0
    let ovr := left == 0 || decide (u.burstLimit ≤ g.made + 1) || spent
    let masked := if spent && u.hp c then c :: u.masked else u.masked
    let req := { g.req with bursts := left, waited := 0 }
    (d2.add64 (Off.UMP_CNT_GRANT k c) 1).setUmpire k p { u with
      credit := credit, share := share, masked := masked, got := KMap.upd u.got c 0 (fun n => n + 1)
      queue := if ovr && left != 0 then req :: u.queue else u.queue, grant := if ovr then none else some { g with req := req, made := g.made + 1 } }

/-- The grant in force is revoked at the burst boundary: its bursts are not useful, its credit or share is returned, and the transfer
restarts from its first burst (R386). -/
def Dev.umpRevoke (d : Dev) (k p : Nat) : Dev :=
  let u := d.umpire k p
  match u.grant with
  | none => d
  | some g =>
    let c := g.req.cls
    let credit := if g.step = 3 then u.credit else KMap.put u.credit c (u.creditOf c + g.made)
    let share := if g.step = 3 then KMap.put u.share c (u.shareOf c - g.made) else u.share
    ((d.w (Off.UMP_CNT_GRANT k c) (d.r (Off.UMP_CNT_GRANT k c) - BitVec.ofNat 64 g.made)).incSat (Off.UMP_CNT_REVOKE k c)).setUmpire k p
      { u with credit := credit, share := share, grant := none, got := KMap.upd u.got c 0 (fun n => n - g.made)
               queue := { g.req with bursts := g.req.bursts + g.made, waited := 0 } :: u.queue }

/-- An HP request of an HP class whose counter is above 0 meets a grant made under step 2 or 3. -/
def Umpire.revokes (u : Umpire) (cls : Nat) : Bool :=
  u.hp cls && decide (0 < u.creditOf cls) && !u.masked.contains cls && u.grant.any (fun g => g.step != 1)

/-- A request arrives (R386). -/
def Dev.umpArrive (d : Dev) (k p cls : Nat) (realTime : Bool) (bursts : Nat) : Dev :=
  let d1 := d.when (realTime && (d.umpire k p).revokes cls) (fun e => e.umpRevoke k p)
  let u := d1.umpire k p
  if bursts = 0 then d1
  else d1.setUmpire k p { u with queue := u.queue ++ [{ cls := cls, realTime := realTime && u.hp cls, bursts := bursts, waited := 0 }] }

/-- The real-time masters (R382). -/
def realTimeMaster (m : HbmMaster) : Bool :=
  match m with
  | .displayPipe | .compositor | .cameraIntake | .tsnFrameDma | .islandBridge => true
  | .other => false

/-- The class of a transaction: the CLASS of its range (R380), and for the island bridge IBR_CTRL.CLASS (R394). -/
def Dev.umpClass (d : Dev) (m : HbmMaster) (a : Nat) : Nat :=
  match m with
  | .islandBridge => d.f Off.IBR_CTRL 3 0
  | .displayPipe | .compositor | .cameraIntake | .tsnFrameDma | .other => (d.attr a).cls

/-- A transaction to local HBM is a request of its class at the umpire of the pseudo-channel that its address maps to (R366, R380, R382);
a read that the application cluster serves is charged in the same way (R369). -/
def Dev.umpRequest (d : Dev) (m : HbmMaster) (a bursts : Nat) : Dev :=
  let k := d.hbmSite (d.localAddr a)
  if !d.inHbm a || !d.b (Off.UMP_STATUS k) 0 then d
  else d.umpArrive k (hbmPseudo (d.localAddr a)) (d.umpClass m a) (realTimeMaster m) bursts

/-- The owner of the grant in force, or of the `i`-th waiting request of a class, drops it (R385). -/
def Dev.umpDrop (d : Dev) (k p cls : Nat) (waiting : Option Nat) : Dev :=
  let u := d.umpire k p
  match waiting with
  | none => if u.grant.any (fun g => g.req.cls == cls) then d.setUmpire k p { u with grant := none } else d
  | some i =>
    match (u.queue.filter (fun r => r.cls == cls))[i]? with
    | none => d
    | some _ =>
      let step := fun (x : List UmpReq × Nat) (r : UmpReq) =>
        if r.cls == cls then (if x.2 = i then (x.1, x.2 + 1) else (x.1 ++ [r], x.2 + 1)) else (x.1 ++ [r], x.2)
      d.setUmpire k p { u with queue := (u.queue.foldl step ([], 0)).1 }

/-- One thing that happens at a pseudo-channel; a transaction that maps to another one is that one's. -/
def Dev.umpEvent (d : Dev) (k p : Nat) (e : UmpEvent) : Dev :=
  match e with
  | .arrive m a n => if d.hbmSite (d.localAddr a) = k ∧ hbmPseudo (d.localAddr a) = p then d.umpRequest m a n else d
  | .drop c i => d.umpDrop k p c i
  | .burst => d.umpBurst k p
  | .stall => d.umpWait k p (d.umpire k p)
  | .recovery => d.setUmpire k p { (d.umpire k p) with exempt := true }

/-- The bursts' times of the window that the report leaves out: the umpire grants and serves what waits; with nothing to serve one burst's
time stands for all. -/
def Dev.umpRest (d : Dev) (k p : Nat) : Nat → Dev
  | 0 => d
  | n + 1 =>
    if (d.umpire k p).grant.isNone && (d.umpire k p).queue.isEmpty then d.umpBurst k p else (d.umpBurst k p).umpRest k p n

/-- What happens in a window with `n` bursts' times left: the events, as far as the window reaches, then the rest of its time. -/
def Dev.umpWindow (d : Dev) (k p n : Nat) (l : List UmpEvent) : Dev :=
  match l with
  | [] => d.umpRest k p n
  | .burst :: l => if n = 0 then d else (d.umpEvent k p .burst).umpWindow k p (n - 1) l
  | .stall :: l => if n = 0 then d else (d.umpEvent k p .stall).umpWindow k p (n - 1) l
  | e :: l => (d.umpEvent k p e).umpWindow k p n l

/-- The window that ends: a class with continuous demand and fewer useful bursts than its guarantee counts a miss (R388). -/
def Dev.umpMisses (d : Dev) (k p : Nat) : Dev :=
  let u := d.umpire k p
  if u.exempt then d
  else d.forAll ((List.range 16).filter (fun c => !u.idle.contains c && decide (KMap.getD u.got c 0 < u.refill c))) (fun c e =>
    ((e.incSat (Off.UMP_CNT_MISS k c)).w (Off.UMP_MISS_LAST k) (BitVec.ofNat 64 (c + p * 2 ^ 8))).setB (Off.UMP_EVENTS k) 0 true)

/-- UMPIRE_WINDOW (R383 to R389): after what happened in the window of W / 2 bursts' times that ends, misses are counted, and the next
window starts with the applied settings, full counters and share counts of 0. -/
def execUmpireWindow (k p : Nat) (traffic : List UmpEvent) (s : State) : Host.Outcome State Fault Refusal :=
  .next (s.onDev (fun d =>
    if !d.sitePopulated k || decide (32 ≤ p) || !d.b (Off.UMP_STATUS k) 0 then d
    else
      let e := (d.umpWindow k p ((d.umpire k p).window / 2) traffic).umpMisses k p
      e.setUmpire k p (e.umpStart k (e.umpire k p).queue (e.umpire k p).grant)))

/-- HP_REQUEST (R382, R385, R386): a transaction arrives; where it is high-priority, a grant made under step 2 or 3 is revoked. -/
def execHpRequest (m : HbmMaster) (_dirty : Bool) (addr bursts : Nat) (s : State) : Host.Outcome State Fault Refusal :=
  .next (s.onDev (fun d => d.umpRequest m addr bursts))

/-- UMP_MAX_WAIT of each class in a mask goes to 0 (R389). -/
def Dev.clearMaxWait (d : Dev) (k mask : Nat) : Dev := d.forEach 16 (fun c e => e.when (nbit mask c) (fun x => x.w (Off.UMP_MAX_WAIT k c) 0))

/-- UMP_CNT_CLEAR (R389, R390): the longest waits of the masked classes go to 0. -/
def execUmpCntClear (m : Master) (k value : Nat) (s : State) : Host.Outcome State Fault Refusal :=
  .next (match s.dev.setupRefused m (Off.UMP_CNT_CLEAR k) 4 with
    | some d => { s with dev := d }
    | none => s.onDev (fun d => (d.clearMaxWait k (value % 2 ^ 16)).answer .ok))

/-! ### Class minimums (R380, R383) -/

/-- Sum over populated sites of MIN or QUOTA of class `c` as a fraction of GB/s × 10 over W / 256: min_k = MIN × 9.6 / (W / 256). -/
def Dev.classMinimum (d : Dev) (c : Nat) : Nat :=
  -- every term over the common denominator 720720, a multiple of 1 to 16
  (d.sites.map (fun k =>
    let u := d.umpire k 0
    u.refill c * 96 * (720720 / (fld u.ctrl 3 0 + 1)))).sum / 7207200

end Sys2Proof.Machine
end

