-- ==== Sys2Proof/Machine/Loads.lean ====
section
/-! DEFINITION. Machine/Loads.lean: LOAD_PLAN, EVICT_PLAN, and the loads and reloads of plans (R116, R324 to R330, R345, R348, R600 to R603). -/

namespace Sys2Proof.Machine

/-! ### Reads with ECC (R120, R241, R367) -/

/-- A read of a declared input: the bytes, or the status that ends the command, with what the read records; a refused one is recorded at its first
refused access. -/
def State.readInput (s : State) (m : Master) (a n : Nat) (ecc : Ecc) : Except Nat (List Byte) × State :=
  if n = 0 then (.ok [], s)
  else match s.readAs m a n with
    | (none, _) => (.error 0x22, s.onDev (fun d => d.refuseAt m (d.world m) .read a (d.reach m (d.world m) .read a n)))
    | (some bs, t) => ((if ecc = .uncorrectable then .error 0x32 else .ok bs), t.onDev (fun d => d.memEcc a ecc))

/-! ### LOAD_PLAN (R324, R600) -/

/-- The first check of R324 that fails. -/
def Dev.loadPlanCheck (d : Dev) (c : Cmd) (m : List Byte) (code : CodeInfo) : Option Nat :=
  if (d.plan c.inst c.planId).isSome || !imageOk m (c.at 0x14 4) d.judge.shadowBytes code then some 0x20
  else if !crcEndOk m || !d.identOk m then some 0x20
  else if imgSafety m != d.instSafe c.inst then some 0x22
  else if 64 ≤ (d.plans.filter (fun p => p.inst == c.inst)).length then some 0x31
  else none

/-- LOAD_PLAN (R116, R324, R600): the running command reads its image once and checks it; with PRELOAD or PIN its load follows. -/
def execLoadPlan (id : Nat) (code : CodeInfo) (ecc : Ecc) (s : State) : Host.Outcome State Fault Refusal :=
  .next (match s.dev.cmd id with
    | none => s
    | some c =>
      if c.op = 0x02 ∧ c.phase = .running ∧ c.image = [] then
        match s.readInput (.qe c.inst) (c.at 0x18 8) (c.at 0x14 4) ecc with
        | (.error st, t) => t.inputEnd id st
        | (.ok m, t) =>
          match t.dev.loadPlanCheck c m code with
          | some st => (t.finish id st 0).admitAll
          | none => (t.onDev (fun d => d.onCmd id (fun x =>
              { x with image := m, code := code, crc := leAt m (m.length - 8) 8, phase := if !c.loads || imgRes m == 0 then .ended else .running }))).admitAll
      else s)

/-- EVICT_PLAN (R116, R131): the plan is registered, or the command completes with NOT_RESIDENT. -/
def execEvictPlan (id : Nat) (s : State) : Host.Outcome State Fault Refusal :=
  .next (match s.dev.cmd id with
    | none => s
    | some c =>
      if c.op = 0x03 ∧ c.phase = .running then
        if (s.dev.plan c.inst c.planId).isSome then s.onDev (fun d => d.setPhase id .ended)
        else (s.finish id 0x23 0).admitAll
      else s)

/-! ### Starting work in a stream (R333) -/

/-- The current Ball lies in partition `p`'s window (R333, R362). -/
def Dev.windowOpen (d : Dev) (p : Nat) : Bool :=
  decide ((d.window p).1 ≤ d.f Off.OVER_BALL 5 0 ∧ d.f Off.OVER_BALL 5 0 ≤ (d.window p).2)

/-- The command heads the admitted work of stream `st`: those before it have ended and hold no tiles (R333). -/
def Dev.headOf (d : Dev) (p st id : Nat) : Bool :=
  (d.stream p st).admitted.find? (fun x => match d.cmd x with
    | none => false
    | some c => !(c.phase == .ended && (d.tilesOf x).isEmpty)) == some id

/-- Admitted work may begin in the partition now: its window is open, no reset runs, the Over is not dead (R25, R333, R345). -/
def Dev.mayBegin (d : Dev) (p : Nat) : Bool := d.partRuns p && !(d.part p).resetting && !d.deadOver && d.windowOpen p

/-- The next opening of partition `p`'s window, in ns from power good; now, while it is open. -/
def Dev.nextOpen (d : Dev) (p : Nat) : Nat :=
  let o := d.time.edgeAt + d.ballStart (d.window p).1
  if d.now < o then o else if d.now < d.time.edgeAt + d.ballStart ((d.window p).2 + 1) then d.now else o + d.overNs

/-! ### PLAN_LOAD_START (R327, R328, R600) -/

/-- Banks of a tile that a load could have if every unpinned plan left it. -/
def Dev.reachableBanks (d : Dev) (t p : Nat) : Nat :=
  ((d.banksOfKind t 2 p).filter (fun b => !d.bankPinned t b)).length

/-- Some stream could take the plan if every unpinned plan left it: pinned plans do not hold the banks it needs. -/
def Dev.loadPossible (d : Dev) (m : List Byte) (p : Nat) : Bool :=
  (d.lanes p).any (fun s => (imgWcets m).any (fun w =>
    let ts := d.entryTiles p s (imgSafety m) w
    d.entryFits m p s w && (ts.1 ++ ts.2).all (fun t =>
      decide (w.workBanks ≤ (d.banksOfKind t 1 p).length ∧ w.weightBanks ≤ d.reachableBanks t p))))

/-- Pinned plans hold banks that a load needs on one of its tiles (R328, R600). -/
def Dev.pinsHold (d : Dev) (p : Nat) (l : Load) : Bool := l.tiles.any (fun t => decide (d.reachableBanks t p < l.banks))

/-- A LOAD_PLAN whose plan cannot be made resident: BUSY under PIN; otherwise it registers a plan that is not resident (R600). -/
def State.loadNoRoom (s : State) (id : Nat) (c : Cmd) : State :=
  if nbit (c.at 0x20 1) 1 then (s.finish id 0x31 0).admitAll
  else (s.onDev (fun d => (d.unschedule id).onCmd id (fun x => { x with load := none, phase := .ended }))).admitAll

/-- The load of command `id` starts: the loader takes its banks (R327); where pinned plans hold them a LOAD_PLAN ends (R328, R600), and where other loads or
plans with a command in flight hold them the load waits for admission again. -/
def State.startLoad (s : State) (id : Nat) (c : Cmd) (l : Load) : State :=
  let d := s.dev
  let p := d.instPart c.inst
  if l.started = none ∧ d.mayBegin p = true ∧ d.headOf p l.stream id = true then
    match d.takeBanks p l.banks l.tiles with
    | some (e, taken) => s.onDev (fun _ => e.onCmd id (fun x => { x with load := some { l with started := some d.now, taken := taken } }))
    | none =>
      if c.loads && d.pinsHold p l then s.loadNoRoom id c
      else (s.onDev (fun d => (d.unschedule id).onCmd id (fun x =>
        { x with load := none, phase := if c.loads then x.phase else .waiting }))).admitAll
  else s

/-- A pinned plan of partition `p` whose reload has not started, the first in registration order (R345, R348). -/
def Dev.nextReload (d : Dev) (p : Nat) : Option Plan :=
  (d.plans.filter (fun x => d.instPart x.inst == p && x.reload.any (fun l => l.started.isNone))).foldl
    (fun (b : Option Plan) x => match b with | none => some x | some y => if x.order < y.order then some x else some y) none

/-- The reload of a pinned plan starts in the stream the loader chooses; where no stream could
take it, it stays not resident and RELOAD_FAIL is set; where loads hold the banks it waits. -/
def State.startReload (s : State) (x : Plan) : State :=
  let d := s.dev
  let p := d.instPart x.inst
  if !d.partRuns p || (d.part p).resetting then s
  else
    match (match d.loadStream x.image p with
      | none => none
      | some (st, k) => (d.takeBanks p k.entry.weightBanks (k.tiles ++ k.tilesB)).map (fun y => (st, k, y))) with
    | none => if d.loadPossible x.image p then s else (s.onDev (fun e => (e.onPlan x.inst x.planId (fun y => { y with reload := none })).setB Off.SCH_EVENTS 4 true)).admitAll
    | some (st, k, y) =>
      s.onDev (fun _ => y.1.onPlan x.inst x.planId (fun z =>
        { z with reload := some { d.newLoad x.image st k with started := some d.now, taken := y.2 } }))

/-- PLAN_LOAD_START (R327 to R329, R600, R603): the loader takes the banks of a load that heads its stream, or of the next reload. -/
def execPlanLoadStart (l : LoadRef) (s : State) : Host.Outcome State Fault Refusal :=
  .next (match l with
    | .command id =>
      match s.dev.cmd id with
      | none => s
      | some c =>
        match c.load with
        | some x => s.startLoad id c x
        | none =>
          if c.loads && c.phase == .running && !c.image.isEmpty && s.dev.partRuns (s.dev.instPart c.inst) &&
              !s.dev.loadPossible c.image (s.dev.instPart c.inst) then s.loadNoRoom id c else s
    | .reload inst pid =>
      match s.dev.nextReload (s.dev.instPart inst) with
      | none => s
      | some x => if x.inst = inst ∧ x.planId = pid then s.startReload x else s)

/-! ### PLAN_LOAD_DONE (R325, R330) -/

/-- The image at an address, read again, against the CRC-64 recorded at its LOAD_PLAN (R325): the status of what is wrong, an uncorrectable error in
the read (R120) or a changed image; the read is recorded. -/
def State.imageBad (s : State) (inst addr len crc : Nat) (ecc : Ecc) : Option Nat × State :=
  match s.readInput (.qe inst) addr len ecc with
  | (.error st, t) => (some (if st = 0x32 then 0x32 else 0x20), t)
  | (.ok m, t) => (if crcEndOk m && leAt m (m.length - 8) 8 == crc then none else some 0x20, t)

/-- The streams that hold a plan loaded by `l`. -/
def Load.holds (l : Load) (m : List Byte) : List Nat := if imgSafety m then [0, 1] else [l.stream]

/-- The loader has written the banks: how a resident section lies in them the spec leaves open. -/
def State.fillBanks (s : State) (l : Load) : State := s.forAll l.taken (fun x t => t.fillFree (bankAddr x.1 x.2) 0x20000)

/-- The plan of a load that has ended well is resident. -/
def Dev.makeResident (d : Dev) (x : Plan) (l : Load) : Dev :=
  d.onPlan x.inst x.planId (fun y => { y with resident := l.holds x.image, banks := l.taken, reload := none })

/-- A load failed its check (R325). -/
def Dev.reloadFail (d : Dev) : Dev := d.setB Off.SCH_EVENTS 4 true

/-- The load of a RUN_PLAN ends: the plan is resident before the run starts; a load made alone leaves the command waiting (R330, R334). -/
def State.runLoadDone (s : State) (id : Nat) (c : Cmd) (l : Load) (ecc : Ecc) : State :=
  match s.dev.cmdPlan c with
  | none => s
  | some x =>
    match s.imageBad x.inst x.addr x.image.length x.crc ecc with
    | (some st, t) => (t.onDev Dev.reloadFail).inputEnd id st
    | (none, t) =>
      ((t.fillBanks l).onDev (fun d =>
        let e := (d.makeResident x l).onCmd id (fun y => { y with load := none })
        e.when (c.phase == .waiting) (fun f => f.unschedule id))).admitAll

/-- The load of a LOAD_PLAN ends: its commit point may come; it keeps the banks to publication (R328, R600). -/
def State.planLoadDone (s : State) (id : Nat) (c : Cmd) (l : Load) (ecc : Ecc) : State :=
  match s.imageBad c.inst (c.at 0x18 8) (c.at 0x14 4) c.crc ecc with
  | (some st, t) => (t.onDev Dev.reloadFail).inputEnd id st
  | (none, t) => ((t.fillBanks l).onDev (fun d => (d.unschedule id).onCmd id (fun y => { y with phase := .ended }))).admitAll

/-- PLAN_LOAD_DONE (R325, R330, R600): a load or reload ends. -/
def execPlanLoadDone (l : LoadEnd) (s : State) : Host.Outcome State Fault Refusal :=
  .next (match l.load with
    | .command id =>
      match s.dev.cmd id with
      | none => s
      | some c =>
        match c.load with
        | none => s
        | some x =>
          if x.started = none ∨ c.phase = .ended then s
          else if c.loads then s.planLoadDone id c x l.ecc
          else s.runLoadDone id c x l.ecc
    | .reload inst pid =>
      match s.dev.plan inst pid with
      | none => s
      | some x =>
        match x.reload with
        | none => s
        | some y =>
          if y.started = none then s
          else match s.imageBad inst x.addr x.image.length x.crc l.ecc with
            | (some _, t) => (t.onDev (fun d => (d.onPlan inst pid (fun z => { z with reload := none })).reloadFail)).serveReset.admitAll
            | (none, t) => ((t.fillBanks y).onDev (fun d => d.makeResident x y)).admitAll)

end Sys2Proof.Machine
end

