-- ==== Sys2Proof/Machine/Tile.lean ====
section
/-! DEFINITION. Machine/Tile.lean: what the engines of a tile may reach: scratchpad, declared regions, sequences, weights; access faults; tokens and blocks (R136, R162 to R168, R172, R225 to R232, R431). -/

namespace Sys2Proof.Machine

/-- One operation's result: the state, and whether the list of operations goes on. -/
abbrev Run := State × Bool

/-- The operation was performed. -/
def State.go (s : State) : Run := (s, true)

/-- The operation cannot be performed, or it ended its command: nothing after it is. -/
def State.stop (s : State) : Run := (s, false)

/-- The tile works for the command, which runs. -/
def Dev.onIt (d : Dev) (id t : Nat) : Bool :=
  (d.tile t).cmd == some id && (d.cmd id).any (fun c => c.phase == .running)

/-- The tile runs copy B of a safety plan (R318, R431). -/
def Cmd.copyB (c : Cmd) (t : Nat) : Bool := c.tilesB.contains t

/-! ### Faults and errors -/

/-- An access fault at a tile (R165, R167, R172, R232): recorded, and the command completes with DENIED. -/
def State.accessFault (s : State) (id t a : Nat) : State :=
  (s.onDev (fun d =>
    (d.setAddr (Off.TILE_FAULT_ADDR_LO t) (Off.TILE_FAULT_ADDR_HI t) a).setB (Off.TILE_EVENTS t) 2 true)).ownFault id 0x22 true

/-- What ECC finds in a read that tile `t` made at a physical address (R120, R241, R367): it is recorded; an uncorrectable error evicts every
plan with weights in a MODEL_CACHE bank, ends the command, is a doubt trigger when a tile of the safety partition met it in HBM, and in a bank
of the safety partition resets it. -/
def State.eccFound (s : State) (id t a : Nat) (e : Ecc) : Run :=
  let u := s.onDev (fun d => d.memEcc a e)
  if e = .uncorrectable then
    (((u.onDev (fun d =>
      match d.region a with
      | some (.scratch v, _) => d.when (d.bankKind v (bankOf a).2 == 2) (fun x => x.evictAllFrom v (bankOf a).2)
      | _ => d.when (d.inHbm a && d.safetyNow == some (d.tilePart t)) (fun x => x.doubt 5 (0x100 + d.hbmSite (d.localAddr a)))))).inputEnd id 0x32).stop
  else u.go

/-! ### A tile's own scratchpad (R220, R225 to R232) -/

/-- The first byte of a tile's scratchpad. -/
def scratchBase (t : Nat) : Nat := 0x4000000000 + t * 0x400000

/-- A bank of kind `k` of the tile's partition and world: what the tile's engines may touch as R229 gives for that kind (R229 to R231). -/
def Dev.bankHolds (d : Dev) (k t b : Nat) : Bool :=
  d.bankKind t b == k && d.bankId t b == d.tilePart t && d.bankWorld t b == (d.tile t).world

/-- A PARTITION bank that engines of the tile's partition and world may touch (R229 to R231). -/
def Dev.bankTileOk (d : Dev) (t b : Nat) : Bool := d.bankHolds 1 t b

/-- Every byte of `n` bytes at an offset lies in banks that the tile's engines may touch. -/
def Dev.scratchOk (d : Dev) (t off n : Nat) : Bool :=
  n == 0 || (decide (off + n ≤ 0x400000) && (List.range ((off + n - 1) / 0x20000 - off / 0x20000 + 1)).all (fun i => d.bankTileOk t (off / 0x20000 + i)))

/-- `n` bytes of a tile's scratchpad. -/
def State.sp (s : State) (t off n : Nat) : List Byte := s.bytes (scratchBase t + off) n

/-- A read of a tile's own scratchpad. -/
def State.spRead (s : State) (t off n : Nat) : Option (List Byte) := if s.dev.scratchOk t off n then some (s.sp t off n) else none

/-- A write to a tile's own scratchpad, or the fault of it. -/
def State.spWrite (s : State) (id t off : Nat) (bs : List Byte) : Run :=
  if s.dev.scratchOk t off bs.length then (s.put (scratchBase t + off) bs).go else (s.accessFault id t (scratchBase t + off)).stop

/-- `f` on what several reads of a tile's own scratchpad give, each an offset and a length; the first refused one faults. -/
def State.withSp (s : State) (id t : Nat) (rs : List (Nat × Nat)) (f : List (List Byte) → Run) : Run :=
  match rs.find? (fun r => !s.dev.scratchOk t r.1 r.2) with
  | some r => (s.accessFault id t (scratchBase t + r.1)).stop
  | none => f (rs.map (fun r => s.sp t r.1 r.2))

/-! ### Declared regions (R165, R167, R431) -/

/-- The argument that binds a port. -/
def Cmd.portArg (c : Cmd) (n : Nat) : Option Arg := c.args.find? (fun a => a.port == n)

/-- Bytes of the shadow region before a port's judged bytes: the judged ports that stand before it (R431). -/
def shadowOff (m : List Byte) (n : Nat) : Option Nat :=
  match firstIndex (fun _ (x : Port × JudgeEntry) => x.1.port != n) 0 (imgJudged m) with
  | none => none
  | some i => some ((((imgJudged m).take i).map (fun x => x.1.length)).sum)

/-- Bytes of copy B's scratch before a scratch port, after the judged bytes (R431). -/
def shadowScratch (m : List Byte) (n : Nat) : Nat :=
  imgJudgedBytes m + ((((imgPorts m).filter (fun p => p.kind == 3)).takeWhile (fun p => p.port != n)).map (fun p => p.length)).sum

/-- A region: address, length. -/
def inside (a n base len : Nat) : Bool := decide (base ≤ a ∧ a + n ≤ base + len)

/-- A command's tile may read `n` bytes at a physical address: an input or scratch region, the plan's image, copy B's shadow region (R165). -/
def Dev.mayRead (d : Dev) (c : Cmd) (b : Bool) (a n : Nat) : Bool :=
  c.args.any (fun x => (x.kind == 0 || (x.kind == 3 && !b)) && inside a n x.addr x.len) ||
    (d.cmdPlan c).any (fun p => inside a n p.addr p.image.length) ||
    (b && inside a n d.judge.shadowBase d.judge.shadowBytes)

/-- A command's tile may write `n` bytes at a physical address: an output after its result header, which only publication writes (R127, R128), a
scratch or a Keeper region; copy B only the shadow region (R167, R431). -/
def Dev.mayWrite (d : Dev) (c : Cmd) (b : Bool) (a n : Nat) : Bool :=
  if b then inside a n d.judge.shadowBase d.judge.shadowBytes
  else c.args.any (fun x => (x.kind == 1 || x.kind == 3 || x.kind == 4) && inside a n (x.addr + cond x.hdr 32 0) x.data)

/-- What a place resolves to: a master and an address in memory, another tile's scratchpad, the plan's weights, nothing to do, or a fault. -/
inductive Spot where
  | mem (m : Master) (a : Nat)
  | tile (t off : Nat)
  | weights (off : Nat)
  /-- Copy B writes nothing else (R431): the write is dropped. -/
  | drop
  | fault (a : Nat)

/-- What a command stages for the sequence that a port names. -/
def Cmd.useOf (c : Cmd) (n : Nat) : Option KvUse :=
  c.kv.find? (fun u => (c.args[u.arg]?).any (fun a => a.port == n))

/-- What the streams of a command's plan declare. -/
def Dev.cmdCode (d : Dev) (c : Cmd) : CodeInfo := (d.cmdPlan c).elim noCode (fun p => p.code)

/-- The key of what a copy of a plan holds for a layer: `n` × 2, plus 1 for copy B (R318). -/
def Cmd.keyOf (c : Cmd) (t n : Nat) : Nat := n * 2 + cond (c.copyB t) 1 0

/-- An attention layer of the command's plan, with what the command stages for its sequence, and its lane. -/
def Dev.layerUse (d : Dev) (c : Cmd) (ly : Nat) : Option (AttLayer × KvUse × Nat) :=
  match (d.cmdCode c).att[ly]? with
  | none => none
  | some l =>
    match l.keys with
    | .own _ => none
    | .seq p lane => (c.useOf p).map (fun u => (l, u, lane))

/-- Bytes of one row of `dh` elements in a conversion's form. -/
def rowBytes (conv dh : Nat) : Nat := elemBytes (convOf conv).fmt dh

/-- Where token slot `slot` of the key rows or value rows of head `g` lies in a page: each head a section, key rows before value rows (R288). -/
def pageOff (l : AttLayer) (tp g : Nat) (value : Bool) (slot : Nat) : Nat :=
  g * (tp * (rowBytes l.kConv l.dh + rowBytes l.vConv l.dh)) +
    (if value then tp * rowBytes l.kConv l.dh + slot * rowBytes l.vConv l.dh else slot * rowBytes l.kConv l.dh)

/-- Bytes of a layer's key rows, or value rows, of one head in a page from a slot on (R288). -/
def halfLeft (l : AttLayer) (tp : Nat) (value : Bool) (slot : Nat) : Nat :=
  (tp - slot) * rowBytes (if value then l.vConv else l.kConv) l.dh

/-- Bytes of key or value rows of a page that a layer reads or appends to (R288). -/
def Dev.kvSpot (d : Dev) (c : Cmd) (ly row g : Nat) (value : Bool) (slot off len : Nat) : Spot :=
  match d.layerUse c ly with
  | none => .fault 0
  | some (l, u, lane) =>
    match d.kvAddr u row lane with
    | none => .fault 0
    | some (p, _) =>
      let o := pageOff l (2 ^ u.log2tp) g value slot + off
      if g < l.hkv ∧ off + len ≤ halfLeft l (2 ^ u.log2tp) value slot ∧ o + len ≤ 65536 then .mem .pageMgr (p + o) else .fault (p + o)

/-- Bytes of the index entry of a page that a layer reads (R307). -/
def Dev.indexSpot (d : Dev) (c : Cmd) (ly row off len : Nat) : Spot :=
  match d.layerUse c ly with
  | none => .fault 0
  | some (_, u, lane) =>
    match d.kvAddr u row lane with
    | none => .fault 0
    | some (_, x) => if off + len ≤ 4096 then .mem .pageMgr (x + off) else .fault (x + off)

/-- The command may store into the row of its sequence that a layer's page belongs to (R300, R301). -/
def Dev.layerMayStore (d : Dev) (c : Cmd) (ly row : Nat) : Bool :=
  match d.layerUse c ly with
  | none => false
  | some (_, u, lane) => d.kvMayStore u row lane

/-- The banks of tile `t` that hold the weights of the command's plan. -/
def Dev.weightBanks (d : Dev) (c : Cmd) (t : Nat) : List Nat :=
  (d.cmdPlan c).elim [] (fun p => (p.banks.filter (fun x => x.1 == t)).map (fun x => x.2))

/-- The access engine of tile `t` may read its plan's weights: its banks that hold them are MODEL_CACHE banks of its partition and world
(R229 to R231). -/
def Dev.weightsOk (d : Dev) (c : Cmd) (t : Nat) : Bool := (d.weightBanks c t).all (fun b => d.bankHolds 2 t b)

/-- Where tile `t` reads `n` bytes of a place (R165, R172, R376). -/
def Dev.readSpot (d : Dev) (c : Cmd) (t n : Nat) (p : Place) : Spot :=
  let b := c.copyB t
  match p with
  | .port k off =>
    match c.portArg k with
    | none => .fault off
    | some x =>
      if x.kind = 3 ∧ b = true then
        if off + n ≤ x.len then .mem (.tile t) (d.judge.shadowBase + shadowScratch ((d.cmdPlan c).elim [] (fun y => y.image)) k + off)
        else .fault off
      else if (x.kind = 0 ∨ x.kind = 3) ∧ off + n ≤ x.len then .mem (.tile t) (x.addr + off)
      else .fault (x.addr + off)
  | .addr a => if d.mayRead c b a n then .mem (.tile t) a else .fault a
  | .kv ly row g v slot off => d.kvSpot c ly row g v slot off n
  | .kvIndex ly row off => d.indexSpot c ly row off n
  | .kvPick ly g i v slot off =>
    match (KMap.getD c.picks (c.keyOf t (ly * 65536 + g)) [])[i]? with
    | none => .drop
    | some row => d.kvSpot c ly row g v slot off n
  | .weights off =>
    if off + n ≤ imgRes ((d.cmdPlan c).elim [] (fun y => y.image)) ∧ d.weightsOk c t = true then .weights off
    else .fault (bankAddr t ((d.weightBanks c t).headD 0))
  | .tile u off => if u < 64 ∧ d.tilePart u = d.tilePart t then .tile u off else .fault (scratchBase u + off)

/-- Where tile `t` writes `n` bytes of a place (R167, R300, R301, R431). -/
def Dev.writeSpot (d : Dev) (c : Cmd) (t n : Nat) (p : Place) : Spot :=
  let b := c.copyB t
  let img := (d.cmdPlan c).elim [] (fun y => y.image)
  match p with
  | .port k off =>
    match c.portArg k with
    | none => .fault off
    | some x =>
      let hdr := if x.hdr then 32 else 0
      if x.kind = 0 ∨ x.kind = 2 ∨ x.len < hdr + off + n then .fault (x.addr + off)
      else if !b then .mem (.tile t) (x.addr + hdr + off)
      else if x.kind = 3 then .mem (.tile t) (d.judge.shadowBase + shadowScratch img k + off)
      else match shadowOff img k, portOf img k with
        | some o, some q => if off + n ≤ q.length then .mem (.tile t) (d.judge.shadowBase + o + off) else .drop
        | _, _ => .drop
  | .addr a => if d.mayWrite c b a n then .mem (.tile t) a else .fault a
  | .kv ly row g v slot off => if !d.layerMayStore c ly row then .fault 0 else if b then .drop else d.kvSpot c ly row g v slot off n
  | .kvIndex ly row off => if !d.layerMayStore c ly row then .fault 0 else if b then .drop else d.indexSpot c ly row off n
  | .tile u off => .fault (scratchBase u + off)
  | _ => .fault 0

/-- The tiles whose routers forward a packet from `a` to `b`: along the row, then the column; across the dies by the port tiles. -/
def routeDie (a b : Nat) : List Nat :=
  let ca := a % 8
  let cb := b % 8
  let ra := a % 32 / 8
  let rb := b % 32 / 8
  let base := a / 32 * 32
  let along := (List.range (max ca cb - min ca cb + 1)).map (fun i => base + ra * 8 + (if ca ≤ cb then ca + i else ca - i))
  let down := (List.range (max ra rb - min ra rb)).map (fun i => base + (if ra ≤ rb then ra + 1 + i else ra - 1 - i) * 8 + cb)
  along ++ down

/-- Every router a packet passes. -/
def routePath (a b : Nat) : List Nat :=
  if a / 32 = b / 32 then routeDie a b
  else
    let r := a % 32 / 8
    let outP := if a < 32 then r * 8 + 7 else 32 + r * 8
    let inP := if a < 32 then 32 + r * 8 else r * 8 + 7
    routeDie a outP ++ routeDie inP b

/-- Bytes forwarded by the routers are counted at every router they pass, of tiles from `a` to `b` (R171, R178). -/
def Dev.countRoute (d : Dev) (a b n : Nat) : Dev := d.forAll (routePath a b) (fun t e => e.add64 (Off.TILE_CNT_RT_BYTES t) n)

/-- Tile `t` reads `n` bytes of tile `u`: a request goes out, whose length the spec does not give, and the bytes come back (R171). -/
def Dev.routeRead (d : Dev) (t u n : Nat) : Dev :=
  if t = u then d else let f := d.freeNat; (f.2.countRoute t u f.1).countRoute u t n

/-- Tile `t` may read `n` bytes of a tile's scratchpad: PARTITION banks of its own partition and world (R229, R231). -/
def Dev.mayTileRead (d : Dev) (t u off n : Nat) : Bool :=
  decide (u < 64) && d.tilePart u == d.tilePart t && d.scratchOk u off n && (d.tile u).world == (d.tile t).world

/-- The bytes read at a place by a tile; a refused read ends the command with a fault. -/
def State.placeRead (s : State) (id t n : Nat) (c : Cmd) (p : Place) : Option (List Byte) × State :=
  match s.dev.readSpot c t n p with
  | .mem m a =>
    match s.readAs m a n with
    | (none, u) => (none, u.accessFault id t a)
    | (some bs, u) => (some bs, u)
  | .tile x off => if s.dev.mayTileRead t x off n then (some (s.sp x off n), s.onDev (fun d => d.routeRead t x n))
      else (none, s.accessFault id t (scratchBase x + off))
  | .weights off =>
    let img := (s.dev.cmdPlan c).elim [] (fun y => y.image)
    (some (slice img (imgResOff img + off) n), s)
  | .drop => (some [], s)
  | .fault a => (none, s.accessFault id t a)

/-- The physical address that a read of a place meets, for what ECC finds there; of weights, whose order in their banks the spec leaves open, a
free one in those banks. -/
def Dev.placeAddr (d : Dev) (c : Cmd) (t n : Nat) (p : Place) : Option Nat × Dev :=
  match d.readSpot c t n p with
  | .mem _ a => (some a, d)
  | .tile x off => (some (scratchBase x + off), d)
  | .weights _ =>
    let f := d.freeNat
    ((d.weightBanks c t)[f.1 % max 1 (d.weightBanks c t).length]?.map (fun b => bankAddr t b + f.1 / 64 % 0x20000), f.2)
  | _ => (none, d)

/-- Bytes written at a place by the store engine of a tile. -/
def State.placeWrite (s : State) (id t : Nat) (c : Cmd) (p : Place) (bs : List Byte) : Run :=
  match s.dev.writeSpot c t bs.length p with
  | .mem m a =>
    match s.storeAs m a bs with
    | (false, u) => (u.accessFault id t a).stop
    | (true, u) => (u.onDev (fun d => d.add64 (Off.TILE_CNT_ST_BYTES t) bs.length)).go
  | .drop => (s.onDev (fun d => d.add64 (Off.TILE_CNT_ST_BYTES t) bs.length)).go
  | .tile x off => (s.accessFault id t (scratchBase x + off)).stop
  | .weights _ => (s.accessFault id t 0).stop
  | .fault a => (s.accessFault id t a).stop

/-- A place some bytes further on. -/
def placePlus (p : Place) (k : Nat) : Place :=
  match p with
  | .port n off => .port n (off + k)
  | .addr a => .addr (a + k)
  | .kv ly r g v sl off => .kv ly r g v sl (off + k)
  | .kvIndex ly r off => .kvIndex ly r (off + k)
  | .kvPick ly g i v sl off => .kvPick ly g i v sl (off + k)
  | .weights off => .weights (off + k)
  | .tile t off => .tile t (off + k)

/-! ### Tokens (R136) -/

/-- A token counter. -/
def Dev.tokenOf (d : Dev) (t c : Nat) : Nat := KMap.getD (d.tile t).tokens c 0

/-- A token counter is incremented; it wraps at 16 bits. -/
def Dev.tokenInc (d : Dev) (t c : Nat) : Dev :=
  if c < 64 then d.onTile t (fun x => { x with tokens := KMap.put x.tokens c ((KMap.getD x.tokens c 0 + 1) % 65536) }) else d

/-! ### The access engine (R162 to R166, R379) -/

/-- CREDIT of R163. -/
def Dev.credit (d : Dev) (t : Nat) (c : Cmd) : Nat :=
  min (imgCredit ((d.cmdPlan c).elim [] (fun y => y.image))) (d.f (Off.TILE_AE_CTRL t) 6 0)

/-- Offsets of a block's pieces, outermost dimension first. -/
def dimOffs : List (Nat × Nat) → List Nat
  | [] => [0]
  | (n, st) :: t => (List.range n).flatMap (fun i => (dimOffs t).map (fun o => i * st + o))

/-- The engine may run ahead into every byte of a piece (R164). -/
def Dev.mayRunAhead (d : Dev) (c : Cmd) (t n : Nat) (p : Place) : Bool :=
  match d.readSpot c t n p with
  | .mem _ a => d.attrAll a n (fun x => x.runahead && !x.device)
  | _ => true

/-- The physical address of a piece that memory holds. -/
def Dev.memAddr (d : Dev) (c : Cmd) (t n : Nat) (p : Place) : Option Nat :=
  match d.readSpot c t n p with
  | .mem _ a => some a
  | _ => none

/-- Reads of 64 bytes that the blocks in flight still wait for; the engine keeps at most MAX_OUTSTANDING of them in flight (R163, R187). -/
def Dev.outstanding (d : Dev) (t : Nat) : Nat :=
  min (d.f (Off.TILE_AE_CTRL t) 25 16) ((d.tile t).flight.map (fun x => x.left)).sum

/-- AHEAD and OUTSTANDING of TILE_AE_STATUS (R187). -/
def Dev.showAhead (d : Dev) (t : Nat) : Dev :=
  (d.setF (Off.TILE_AE_STATUS t) 6 0 ((d.tile t).issued - (d.tile t).releasedBlocks)).setF (Off.TILE_AE_STATUS t) 25 16 (d.outstanding t)

/-- What the reads of a block bring, one element after another (R164, R165); nothing for an element that is not to be read. -/
def State.blockReads (s : State) (id t run : Nat) (c : Cmd) (src : Place) : List Nat → List (List Byte) → Option (List (List Byte)) × State
  | [], acc => (some acc, s)
  | o :: rest, acc =>
    match s.placeRead id t run c (placePlus src o) with
    | (none, u) => (none, u)
    | (some bs, u) => u.blockReads id t run c src rest (acc ++ [bs])

/-- The access engine issues its next block (R162 to R165): its elements are checked and read; they are in flight until it arrives. Four
dimensions have strides of their own when an element is one element of a format; a longer run is a dimension itself. -/
def State.opBlock (s : State) (id t : Nat) (c : Cmd) (src : Place) (run : Nat) (dims : List (Nat × Nat)) (dst tok : Nat) (demand : Bool) : Run :=
  let d := s.dev
  let offs := dimOffs dims
  let x := d.tile t
  let n := run * offs.length
  if 4 < dims.length ∨ (3 < dims.length ∧ 4 < run) ∨ 262144 < n ∨ n = 0 ∨ d.credit t c ≤ x.issued - x.releasedBlocks then s.stop
  else if !demand && !offs.all (fun o => d.mayRunAhead c t run (placePlus src o)) then s.stop
  else if !d.scratchOk t dst n then (s.accessFault id t (scratchBase t + dst)).stop
  else
    let heads := if demand then [] else offs.filterMap (fun o => (d.memAddr c t run (placePlus src o)).map (fun a => (t * 2 ^ 32 + x.issued, a)))
    match s.blockReads id t run c src offs [] with
    | (none, u) => u.stop
    | (some l, u) =>
      let a := u.dev.placeAddr c t run src
      let f : Flight := { data := ((List.range l.length).zip l).filterMap (fun y => if y.2.isEmpty then none else some (dst + y.1 * run, y.2))
                          tok := tok, src := a.1, bytes := n, left := (n + 63) / 64 }
      (u.onDev (fun _ => ((a.2.onTile t (fun y => { y with issued := y.issued + 1, flight := y.flight ++ [f] })).onCmd id (fun y =>
        { y with ahead := y.ahead ++ heads })).showAhead t)).go

/-- Reads of a block in flight return (R163, R187). -/
def State.opReads (s : State) (t i n : Nat) : Run :=
  (s.onDev (fun d => (d.onTile t (fun y => { y with flight := (List.range y.flight.length).zip y.flight |>.map (fun x =>
    if x.1 = i then { x.2 with left := x.2.left - n } else x.2) })).showAhead t)).go

/-- The elements of a block are written to the tile's scratchpad. -/
def State.blockWrites (s : State) (id t : Nat) : List (Nat × List Byte) → Run
  | [] => s.go
  | x :: rest =>
    let r := s.spWrite id t x.1 x.2
    if r.2 then r.1.blockWrites id t rest else r

/-- A block has fully arrived (R162): its data is in scratchpad, its bytes are counted, its token is incremented; an uncorrectable error in its
reads ends the command. -/
def State.opArrive (s : State) (id t i : Nat) (ecc : Ecc) : Run :=
  match (s.dev.tile t).flight[i]? with
  | none => s.stop
  | some f =>
    let u := s.onDev (fun d => (d.onTile t (fun y => { y with flight := y.flight.eraseIdx i })).showAhead t)
    let e := match f.src with | none => u.go | some a => u.eccFound id t a ecc
    if !e.2 then e
    else
      let r := e.1.blockWrites id t f.data
      if r.2 then (r.1.onDev (fun d => (d.add64 (Off.TILE_CNT_AE_BYTES t) f.bytes).tokenInc t f.tok)).go else r

/-- The execute stream releases its next block: its reads are used (R163, R379). -/
def State.opRelease (s : State) (id t : Nat) : Run :=
  let x := s.dev.tile t
  if x.releasedBlocks < x.issued then
    (s.onDev (fun d => ((d.onTile t (fun y => { y with releasedBlocks := y.releasedBlocks + 1 })).onCmd id (fun y =>
      { y with ahead := y.ahead.filter (fun z => z.1 != t * 2 ^ 32 + x.releasedBlocks) })).showAhead t)).go
  else s.stop

/-! ### Tile-to-tile writes (R171, R172, R371) -/

/-- A tile may write into another: its partition, and PARTITION banks of it in the writer's world (R172, R231). -/
def Dev.mayTileWrite (d : Dev) (t u off n : Nat) : Bool := d.mayTileRead t u off n

/-- The tiles named are one tile, or a rectangle of tiles on one die. -/
def isRect (us : List Nat) : Bool :=
  match us with
  | [] => false
  | [_] => true
  | u :: _ =>
    let rows := us.map (fun x => x % 32 / 8)
    let cols := us.map (fun x => x % 8)
    let span := fun (l : List Nat) => l.foldl max 0 - l.foldl min 8 + 1
    us.all (fun x => x / 32 == u / 32) && us.Nodup && us.length == span rows * span cols

/-- A tile-to-tile write; one that fails the check is not sent, and its command faults (R172). -/
def State.opTileWrite (s : State) (id t off n : Nat) (us : List Nat) (dst : Nat) : Run :=
  if !isRect us then s.stop
  else s.withSp id t [(off, n)] (fun l =>
    match us.find? (fun u => !s.dev.mayTileWrite t u dst n) with
    | some u => (s.accessFault id t (scratchBase u + dst)).stop
    | none => ((s.forAll us (fun u x => x.put (scratchBase u + dst) (l.getD 0 []))).onDev (fun d =>
        d.forAll us (fun u e => e.countRoute t u n))).go)

end Sys2Proof.Machine
end

