-- ==== Sys2Proof/Machine/Matrix.lean ====
section
/-! DEFINITION. Machine/Matrix.lean: the matrix unit's normal mode and attention mode, and the scout pass (R141 to R149, R202 to R204, R280 to R284, R308). -/

namespace Sys2Proof.Machine

/-- A free order is taken: its number, and the block without it. -/
def Dev.takeOrder (d : Dev) : Nat × Dev := (d.fresh, { d with fresh := d.fresh + 1 })

/-- The accumulator at row × 128 + column. -/
def Dev.accOf (d : Dev) (t x : Nat) : W32 := KMap.getD (d.tile t).acc x 0

/-- `d` with an accumulator of a tile replaced. -/
def Dev.setAcc (d : Dev) (t x : Nat) (v : W32) : Dev := d.onTile t (fun y => { y with acc := KMap.put y.acc x v })

/-- Elements changed by saturation are counted for the command (R168, R203, R209). -/
def Dev.addClamps (d : Dev) (id n : Nat) : Dev := d.onCmd id (fun c => { c with clamps := c.clamps + n })

/-! ### Normal mode -/

/-- Reduction depth of a format, dense (R142); none for a format the unit does not take. -/
def fmtDepth (f : Nat) : Option Nat :=
  match f with
  | 0 => some 192 | 1 => some 96 | 2 => some 96 | 5 => some 192 | 6 => some 192 | 7 => some 192 | 8 => some 96 | 9 => some 96
  | 10 => some 96 | 11 => some 96 | 12 => some 96 | 15 => some 192 | _ => none

/-- The depth of a step of two formats: the smaller; sparse B formats double it (R142, R145). -/
def stepDepth (a b : Nat) (sparse : Bool) : Option Nat :=
  match fmtDepth a, fmtDepth b with
  | some x, some y =>
    if sparse then (if b = 1 ∨ b = 8 ∨ b = 9 then some (min (2 * x) 192) else if b = 5 then some (min (2 * x) 384) else none) else some (min x y)
  | _, _ => none

/-- The format of an operand is an unscaled integer one: its products go into INT32 accumulators (R203, R204). -/
def Conv.isInt (c : Conv) : Bool := !c.mx && decide (c.fmt < 3)

/-- The integer class of R142: INT4, INT8, UINT8 and BINT4, scaled or not; the rest is floating point. -/
def intClass (f : Nat) : Bool := decide (f < 3) || f == 15

/-- Operands of a step are of one class (R142). -/
def stepClass (a b : Conv) : Bool := intClass a.fmt == intClass b.fmt

/-- The 4-bit metadata code of group `g` of a column (R145). -/
def metaCode (bs : List Byte) (i : Nat) : Nat := leAt bs (i / 2) 1 / 2 ^ (4 * (i % 2)) % 16

/-- Where the value for depth `k` of a column lies among the column's stored values, if it is stored; all of them when dense (R145). -/
def sparseIndex (bs : List Byte) (col depth k : Nat) : Option Nat :=
  let code := metaCode bs (col * ((depth + 3) / 4) + k / 4)
  let i1 := code % 4
  let i2 := code / 4
  if k % 4 = i1 then some (k / 4 * 2) else if k % 4 = i2 ∧ i1 < i2 then some (k / 4 * 2 + 1) else none

/-- A length along the reduction dimension, padded to whole blocks in a scaled form (R199, R200). -/
def padLen (c : Conv) (n : Nat) : Nat := if c.block = 0 then n else (n + c.block - 1) / c.block * c.block

/-- The scales of a run of `n` elements along the reduction dimension. -/
def runScales (c : Conv) (n : Nat) : Nat := if c.block = 0 then 0 else (n + c.block - 1) / c.block

/-- Element `i` of an array, and the scale `j` of its scale array; an operand that is not scaled takes 1 (R204). -/
def elemAndScale (c : Conv) (es ss : List Byte) (i j : Nat) : Num × Num :=
  let x := leAt ss j 1
  (fmtValue c.fmt (elemAt c.fmt es i), if c.fmt = 15 then fp8e4.value x else if c.mx then e8m0Value x else .val false 1 1)

/-- One group's partial sum: exact, converted to FP32, then scaled, each multiplication rounded once (R204). -/
def groupSum (products : List Num) (sa sb : Num) (mxInts : Nat) : W32 :=
  let s := f32 (products.foldl Num.add (.val false 0 1))
  let x := f32 ((f32v s).mul sa)
  let y := f32 ((f32v x).mul sb)
  (List.range mxInts).foldl (fun w _ => f32 ((f32v w).mul (.val false 1 64))) y

/-- The new accumulator of one column (R141, R202 to R204), and whether it saturated; `o`: the free order. -/
def stepColumn (ca cb : Conv) (ae as_ be bs ms : List Byte) (sparse : Bool) (depth n o : Nat) (acc : W32) : W32 × Bool :=
  let p := padLen cb depth
  let lenB := if sparse then p / 2 else p
  let scB := fun (k : Nat) => n * runScales cb depth + k / max 1 cb.block
  let bAt := fun (k : Nat) => if sparse then (sparseIndex ms n p k).map (fun i => elemAndScale cb be bs (n * lenB + i) (scB k))
    else some (elemAndScale cb be bs (n * lenB + k) (scB k))
  let terms := (List.range depth).filterMap (fun k => (bAt k).map (fun y => (k, elemAndScale ca ae as_ k (k / max 1 ca.block), y)))
  if ca.block = 0 ∧ cb.block = 0 then
    if ca.isInt then
      let sum := terms.foldl (fun (z : Int) x => z + (match x.2.1.1.mul x.2.2.1 with | .val s p q => if s then -((p / q : Nat) : Int) else ((p / q : Nat) : Int) | _ => 0)) 0
      let r := acc.toInt + sum
      let v := clampInt (-2147483648) 2147483647 r
      (BitVec.ofInt 32 v, v != r)
    else (sumFree o (f32v acc :: terms.map (fun x => x.2.1.1.mul x.2.2.1)), false)
  else
    let g := if ca.fmt = 15 ∨ cb.fmt = 15 then 16 else 32
    let mxInts := (if ca.mx ∧ ca.fmt = 1 then 1 else 0) + (if cb.mx ∧ cb.fmt = 1 then 1 else 0)
    let groups := (List.range ((depth + g - 1) / g)).map (fun i =>
      let ts := terms.filter (fun x => x.1 / g == i)
      match ts with
      | [] => (0 : W32)
      | x :: _ => groupSum (ts.map (fun y => y.2.1.1.mul y.2.2.1)) x.2.1.2 x.2.2.2 mxInts)
    (sumFree o (f32v acc :: groups.map f32v), false)

/-- One matrix step (R141 to R146): A's row against `cols` columns of B, each column's elements consecutive. -/
def State.opMatStep (s : State) (id t row : Nat) (a b : Opnd) (sparse : Option Nat) (depth cols : Nat) : Run :=
  let ca := convOf a.conv
  let cb := convOf b.conv
  let sp := sparse.isSome
  if 512 ≤ row ∨ 128 < cols ∨ (stepDepth ca.fmt cb.fmt sp).all (fun x => decide (x < depth)) = true ∨ (sp = true ∧ depth % 4 ≠ 0) ∨
      stepClass ca cb = false then s.stop
  else
    let p := padLen cb depth
    let xb := elemBytes cb.fmt ((if sp then p / 2 else p) * cols)
    let nm := if sp then (cols * ((p + 3) / 4) + 1) / 2 else 0
    s.withSp id t [(a.off, elemBytes ca.fmt depth), (a.scale, runScales ca depth), (b.off, xb), (b.scale, cols * runScales cb depth),
        (sparse.getD 0, nm)] (fun l =>
      (s.onDev (fun d =>
        (d.forEach cols (fun n e =>
          let o := e.takeOrder
          let r := stepColumn ca cb (l.getD 0 []) (l.getD 1 []) (l.getD 2 []) (l.getD 3 []) (l.getD 4 []) sp depth n o.1 (e.accOf t (row * 128 + n))
          (o.2.setAcc t (row * 128 + n) r.1).addClamps id (cond r.2 1 0))).add64 (Off.TILE_CNT_MX t) 1)).go)

/-- A half of accumulator memory is cleared (R146). -/
def State.opMatClear (s : State) (t half : Nat) : Run :=
  (s.onDev (fun d => d.onTile t (fun x => { x with acc := x.acc.filter (fun p => p.1 / 32768 != half % 2) }))).go

/-! ### Attention mode (R147 to R149, R280 to R284) -/

/-- Where output `c` of a query row lies: 128 to a row; a head wider than 128 takes the next row too. DESIGN CHOICE (log 21). -/
def attCell (row c : Nat) : Nat := (row + c / 128) * 128 + c % 128

/-- −infinity, as FP32. -/
def f32NegInf : W32 := 0xFF800000

/-- A layer that attention mode can run: heads, head dimension and formats (R148, R280), and the limits of LOCAL and of RETRIEVAL (R281, R308). -/
def layerRuns (l : AttLayer) : Bool :=
  let cq := convOf l.qConv
  let ck := convOf l.kConv
  let cv := convOf l.vConv
  let f8 := [1, 8, 9, 10, 11]
  decide (1 ≤ l.hkv ∧ 1 ≤ l.hq ∧ l.hq % l.hkv = 0 ∧ l.dh % 16 = 0 ∧ 32 ≤ l.dh ∧ l.dh ≤ 256) &&
    f8.contains cq.fmt && f8.contains ck.fmt && [8, 9, 10, 11].contains cv.fmt && !cq.mx && !ck.mx && !cv.mx && cq.isInt == ck.isInt &&
    (match l.mask with | .window w => decide (1 ≤ w ∧ w ≤ 65536) | _ => true) &&
    (match l.retrieval with
      | none => true
      | some (s, w, p) => decide (s ≤ 64 ∧ 1 ≤ w ∧ w ≤ 64 ∧ 1 ≤ p ∧ p ≤ 256))

/-- The key-value head that a query head reads (R280). -/
def kvHead (l : AttLayer) (h : Nat) : Nat := h * l.hkv / max 1 l.hq

/-- The rows of a sequence that are present for a command: first rows and live ring rows of the committed tokens (R292, R304, R308). -/
def Dev.presentRows (d : Dev) (u : KvUse) : List Nat :=
  if isReserved u.handle then
    let v := d.rsvSeq (rsvNum u.handle)
    let n := rowsOf u.base (2 ^ u.log2tp)
    let live := if rsvWindow v then rsvRows v - rsvFirst v - rsvSpare v else n
    (List.range n).filter (fun r => decide (r < rsvFirst v ∨ n ≤ r + live))
  else (d.kvRec (handleRec u.handle)).rows u.base

/-- The rows that the command's own appends open. -/
def KvUse.ownRows (u : KvUse) : List Nat :=
  let tail := rowsOf u.base (2 ^ u.log2tp)
  (List.range (rowsOf (u.base + u.appended) (2 ^ u.log2tp) - tail)).map (fun i => tail + i)

/-- The positions of the keys that a key-value head of a layer attends over, in the order of R282: of the selected rows, or of every present row
and those that the command appends, every token; of the plan's own tensors, the key's number. None where a selection is still to be made. -/
def Dev.keyList (d : Dev) (c : Cmd) (t ly g : Nat) (l : AttLayer) : Option (List Nat) :=
  match l.keys with
  | .own n => some (List.range n)
  | .seq _ _ =>
    match d.layerUse c ly with
    | none => none
    | some (_, u, _) =>
      let rows := if l.retrieval.isSome then KMap.find c.picks (c.keyOf t (ly * 65536 + g)) else some (d.presentRows u ++ u.ownRows)
      let tp := 2 ^ u.log2tp
      rows.map (fun rs => (rs.flatMap (fun r => (List.range tp).map (fun i => r * tp + i))).filter (fun k => decide (k < u.base + u.appended)))

/-- The position of query row `i` (R281): that of the token it appends; in the plan's own tensors its number; a row that appends no token has
none, so it is free. -/
def Dev.queryPos (d : Dev) (c : Cmd) (ly i : Nat) : Nat × Dev :=
  match d.layerUse c ly with
  | none => (i, d)
  | some (_, u, _) => if i < u.appended then (u.base + i, d) else d.freeNat

/-- Query row `i` of head `h` of a layer starts: m = −infinity, l = 0, acc = 0 (R282). -/
def State.opAttStart (s : State) (t row ly h i : Nat) (c : Cmd) : Run :=
  match (s.dev.cmdCode c).att[ly]? with
  | none => s.stop
  | some l =>
    if 512 ≤ row ∨ l.hq ≤ h ∨ layerRuns l = false then s.stop
    else (s.onDev (fun d0 =>
      let q := d0.queryPos c ly i
      (q.2.forEach l.dh (fun k e => e.setAcc t (attCell row k) 0)).onTile t (fun x =>
        { x with att := KMap.put x.att row { m := f32NegInf, l := 0, layer := ly, head := h, i := i, pos := q.1, met := 0 } }))).go

/-- The mask admits the key at position `kp` to the row at position `qp`; `bits` are the row's (R281). -/
def maskAdmits (m : AttMask) (qp kp : Nat) (bits : List Byte) : Bool :=
  match m with
  | .none => true
  | .causal => decide (kp ≤ qp)
  | .window w => decide (kp ≤ qp ∧ qp - kp < w)
  | .bits _ => nbit (leAt bits (kp / 8) 1) (kp % 8)

/-- The value half's rounding of a probability (R147, R282). -/
def roundP (fp8 : Bool) (e : W32) : Num :=
  if fp8 then fp8e4.value (fp8e4.encode (f32v e) none false).1 else bf16.value (bf16.encode (f32v e) none true).1

/-- A dot product of a step: exact for integers, else in an open order (R202, R203). -/
def dotOf (isInt : Bool) (o : Nat) (xs : List Num) : W32 := if isInt then f32 (xs.foldl Num.add (.val false 0 1)) else sumFree o xs

/-- One step of attention mode on the values read (R282). -/
def Dev.attStep (d : Dev) (t row dh : Nat) (r : AttRow) (q : List Num) (ks vs : List (List Num)) (isInt : Bool) (sigma : W32) (fp8 : Bool)
    (adm : List Bool) : Dev :=
  let ml := (r.m, r.l)
  let sc := (ks.zip adm).foldl (fun (x : List (Option W32) × Dev) y =>
    if y.2 then
      let o := x.2.takeOrder
      (x.1 ++ [some (f32Mul sigma (dotOf isInt o.1 (List.zipWith Num.mul q y.1)))], o.2)
    else (x.1 ++ [none], x.2)) ([], d)
  if sc.1.all (fun x => x.isNone) then sc.2.onTile t (fun x => { x with att := KMap.put x.att row { r with met := r.met + ks.length } })
  else
    let mn := sc.1.foldl (fun m x => match x with | none => m | some v => f32Max m v) ml.1
    let fc := sc.2.freeNat
    let cf := if ml.1 = f32NegInf then (0, sc.2) else (f32Exp (f32Sub ml.1 mn) fc.1, fc.2)
    let es := sc.1.foldl (fun (x : List W32 × Dev) y =>
      match y with
      | none => (x.1 ++ [0], x.2)
      | some v => let f := x.2.freeNat; (x.1 ++ [f32Exp (f32Sub v mn) f.1], f.2)) ([], cf.2)
    let o := es.2.takeOrder
    let l := sumFree o.1 (f32v (f32Mul ml.2 cf.1) :: es.1.map f32v)
    let ps := es.1.map (roundP fp8)
    let e := o.2.forEach dh (fun c x =>
      let w := x.takeOrder
      w.2.setAcc t (attCell row c) (sumFree w.1 (f32v (f32Mul (x.accOf t (attCell row c)) cf.1) ::
        (List.zipWith Num.mul ps (vs.map (fun v => v.getD c (.val false 0 1)))))))
    e.onTile t (fun x => { x with att := KMap.put x.att row { r with m := mn, l := l, met := r.met + ks.length } })

/-- One query row against its layer's next block of 48 keys, or the keys that are left (R148, R282); its query, its keys, its values and its
mask bits lie at offsets of scratchpad, the mask's from bit 0 of the row on. -/
def State.opAttBlock (s : State) (id t row q k v mask : Nat) (c : Cmd) : Run :=
  match KMap.find (s.dev.tile t).att row with
  | none => s.stop
  | some r =>
    match (s.dev.cmdCode c).att[r.layer]? with
    | none => s.stop
    | some l =>
      match s.dev.keyList c t r.layer (kvHead l r.head) l with
      | none => s.stop
      | some all =>
        let keys := (all.drop r.met).take 48
        let cq := convOf l.qConv
        let ck := convOf l.kConv
        let cv := convOf l.vConv
        let n := keys.length
        let mb := match l.mask with | .bits _ => (mask, (keys.foldl max 0 + 8) / 8) | _ => (0, 0)
        if keys = [] then s.stop
        else s.withSp id t [(q, elemBytes cq.fmt l.dh), (k, elemBytes ck.fmt (n * l.dh)), (v, elemBytes cv.fmt (n * l.dh)), mb] (fun x =>
          let row_ := fun (f : Nat) (bs : List Byte) (j : Nat) => (List.range l.dh).map (fun i => fmtValue f (elemAt f bs (j * l.dh + i)))
          (s.onDev (fun d => (d.attStep t row l.dh r (row_ cq.fmt (x.getD 0 []) 0) ((List.range n).map (row_ ck.fmt (x.getD 1 [])))
            ((List.range n).map (row_ cv.fmt (x.getD 2 []))) cq.isInt l.sigma l.fp8
            (keys.map (fun kp => maskAdmits l.mask r.pos kp (x.getD 3 [])))).add64 (Off.TILE_CNT_MX t) 1)).go)

/-- The void-row port's bit of a row is set (R283). -/
def State.markVoid (s : State) (id t : Nat) (c : Cmd) (void : Option (Nat × Nat)) : Run :=
  match void with
  | none => s.go
  | some (p, b) =>
    match s.dev.writeSpot c t 1 (.port p (b / 8)) with
    | .mem _ a => s.placeWrite id t c (.port p (b / 8)) [s.byte a ||| BitVec.ofNat 8 (2 ^ (b % 8))]
    | _ => s.placeWrite id t c (.port p (b / 8)) [BitVec.ofNat 8 (2 ^ (b % 8))]

/-- The final division of a query row that has met every key, or a void row (R283). -/
def State.opAttEnd (s : State) (id t row bit : Nat) (c : Cmd) : Run :=
  match KMap.find (s.dev.tile t).att row with
  | none => s.stop
  | some r =>
    match (s.dev.cmdCode c).att[r.layer]? with
    | none => s.stop
    | some l =>
      if (s.dev.keyList c t r.layer (kvHead l r.head) l).any (fun ks => ks.length != r.met) then s.stop
      else if (f32v r.l).isZero then
        ((s.onDev (fun d => (d.forEach l.dh (fun x e => e.setAcc t (attCell row x) 0)).onCmd id (fun y => { y with voidRows := true })))).markVoid id t c
          (l.void.map (fun p => (p, bit)))
      else (s.onDev (fun d => d.forEach l.dh (fun x e => e.setAcc t (attCell row x) (f32Div (e.accOf t (attCell row x)) r.l)))).go

/-! ### The scout pass (R308) -/

/-- `n` of the scored rows with the largest scores; ties in an open order. -/
def topRows (o : List Nat) : Nat → Nat → List (Nat × W32) → List Nat
  | 0, _, _ => []
  | n + 1, k, xs =>
    match xs with
    | [] => []
    | x :: _ =>
      let best := xs.foldl (fun m y => if f32Lt m y.2 then y.2 else m) x.2
      let ties := xs.filter (fun y => (f32v y.2).eqv (f32v best) || y.2 == best)
      let pick := ties.getD (openPick o k ties.length) x
      pick.1 :: topRows o n (k + 1) (xs.erase pick)

/-- The score of a row: the largest over the query rows, in FP32 (R308). -/
def scoreRow (orders : Nat) (sigma : W32) (qs : List (List Num)) (kmax kmin : List Num) : W32 :=
  let one := fun (i : Nat) (q : List Num) =>
    let pos := List.zipWith (fun x m => (x.maximum (.val false 0 1)).mul m) q kmax
    let neg := List.zipWith (fun x m => (x.minimum (.val false 0 1)).mul m) q kmin
    f32Mul sigma (sumFree (orders + i) (pos ++ neg))
  ((List.range qs.length).zip qs).foldl (fun m x => let y := one x.1 x.2; if x.1 = 0 then y else f32Max m y) 0

/-- The scout pass of a RETRIEVAL layer for one key-value head: the selected rows, in row order, are what the exact pass reads (R308);
its FP8 query rows take their steps of the matrix unit for every 128 candidates (R309). -/
def State.opScout (s : State) (id t ly g : Nat) (c : Cmd) (q : Opnd) (rows : Nat) : Run :=
  match s.dev.layerUse c ly with
  | none => (s.accessFault id t 0).stop
  | some (l, u, lane) =>
    match l.retrieval with
    | none => s.stop
    | some (S, W, P) =>
      let dh := l.dh
      let f := (convOf q.conv).fmt
      if layerRuns l = false ∨ l.hkv ≤ g ∨ ¬(f = 8 ∨ f = 9) then s.stop
      else s.withSp id t [(q.off, elemBytes f (rows * dh))] (fun x =>
        let d := s.dev
        let present := d.presentRows u
        let first := present.take S
        let last := present.drop (present.length - W)
        let cand := present.filter (fun r => !first.contains r && !last.contains r && decide ((r + 1) * 2 ^ u.log2tp ≤ u.base))
        let qs := (List.range rows).map (fun i => (List.range dh).map (fun k => fmtValue f (elemAt f (x.getD 0 []) (i * dh + k))))
        let ent := fun (r off : Nat) => match d.kvAddr u r lane with
          | none => []
          | some (_, a) => (s.bytes (a + g * 2 * dh + off) dh).map (fun b => fp8e4.value b.toNat)
        let scored := ((List.range cand.length).zip cand).map (fun y => (y.2, scoreRow (d.fresh + 1 + y.1 * rows) l.sigma qs (ent y.2 0) (ent y.2 dh)))
        let top := if cand.length ≤ P then cand else topRows (Config.order d.fresh) P 0 scored
        let all := (first ++ top ++ last ++ u.ownRows).eraseDups.mergeSort (fun a b => decide (a ≤ b))
        (s.onDev (fun e => (({ e with fresh := e.fresh + 1 + cand.length * rows }).onCmd id (fun y =>
          { y with picks := KMap.put y.picks (y.keyOf t (ly * 65536 + g)) all })).add64 (Off.TILE_CNT_MX t) ((cand.length + 127) / 128 * ((2 * dh + 95) / 96) * rows))).go)

/-! ### The coarse index (R307) -/

/-- One key-value head's part of an index entry: the elementwise maximum, then minimum, of the page's key rows, in FP8 E4M3; and how many
elements the conversion saturated. -/
def indexPart (rows : List (List Num)) (dh : Nat) : List Byte × Nat :=
  let pick := fun (f : Num → Num → Num) (k : Nat) =>
    match rows.map (fun r => r.getD k (.val false 0 1)) with
    | [] => Num.val false 0 1
    | v :: t => t.foldl f v
  let es := ((List.range dh).map (fun k => fp8e4.encode (pick Num.maximum k) none false)) ++
    ((List.range dh).map (fun k => fp8e4.encode (pick Num.minimum k) none false))
  (es.map (fun x => BitVec.ofNat 8 x.1), (es.filter (fun x => x.2)).length)

/-- The store engine writes the index entry of a page of a RETRIEVAL layer in the command that fills the page's last token slot; the bytes beyond
its heads are zero (R307). -/
def State.opIndex (s : State) (id t ly row : Nat) (c : Cmd) : Run :=
  match s.dev.layerUse c ly with
  | none => (s.accessFault id t 0).stop
  | some (l, u, lane) =>
    let tp := 2 ^ u.log2tp
    if l.retrieval.isNone ∨ ¬(u.base < (row + 1) * tp ∧ (row + 1) * tp ≤ u.base + u.appended) then s.stop
    else match s.dev.kvAddr u row lane with
      | none => s.stop
      | some (p, _) =>
        let f := (convOf l.kConv).fmt
        let part := fun (g : Nat) => indexPart ((List.range tp).map (fun j =>
          let bs := s.bytes (p + pageOff l tp g false j) (rowBytes l.kConv l.dh)
          (List.range l.dh).map (fun k => fmtValue f (elemAt f bs k)))) l.dh
        let parts := (List.range l.hkv).map part
        let bs := parts.flatMap (fun x => x.1)
        let r := s.placeWrite id t c (.kvIndex ly row 0) ((bs ++ List.replicate (4096 - bs.length) 0).take 4096)
        if r.2 then (r.1.onDev (fun d => d.addClamps id ((parts.map (fun x => x.2)).sum))).go else r

end Sys2Proof.Machine
end

