-- ==== Sys2Proof/Machine/Vector.lean ====
section
/-! DEFINITION. Machine/Vector.lean: the vector unit, its launches and groups, and the store engine (R150 to R157, R167, R168, R205, R215). -/

namespace Sys2Proof.Machine

/-- Where register `r` of a thread lies in the register file's map. -/
def vreg (sq r th : Nat) : Nat := (sq * 256 + r) * 32 + th

/-- A thread's register; one that nothing has defined since its squad's group became resident holds a free value (R153). -/
def Dev.vregOf (d : Dev) (t sq r th : Nat) : W32 :=
  match KMap.find (d.tile t).vregs (vreg sq r th) with
  | some v => v
  | none => (KMap.find (d.tile t).stale sq).elim 0 (fun n => Config.freeWord (n + r * 32 + th))

/-- A thread's register written. -/
def Dev.setVreg (d : Dev) (t sq r th : Nat) (v : W32) : Dev := d.onTile t (fun x => { x with vregs := KMap.put x.vregs (vreg sq r th) v })

/-- The active threads of a squad (R154). -/
def Dev.threads (d : Dev) (t sq : Nat) : List Nat := (List.range 32).filter (fun th => !(d.tile t).inactive.contains (sq * 32 + th))

/-- The resident group that a squad of the tile belongs to (R153). -/
def Dev.groupOf (d : Dev) (t sq : Nat) : Option Group := (d.tile t).groups.find? (fun g => g.squads.contains sq)

/-- The squad is resident and does not wait at its group's barrier, and its threads have the registers named (R150, R151, R153). -/
def Dev.squadOk (d : Dev) (t sq : Nat) (rs : List Nat) : Bool :=
  (d.groupOf t sq).any (fun g => !g.waiting.contains sq && rs.all (fun r => decide (r < g.regs)))

/-- One squad instruction issues (R178). -/
def State.issued (s : State) (t : Nat) : Run := (s.onDev (fun d => d.add64 (Off.TILE_CNT_VU t) 1)).go

/-! ### Launches and groups (R151 to R153) -/

/-- Groups of a launch's grid. -/
def VLaunch.groups (l : VLaunch) : Nat := l.grid.prod

/-- Squads of a group. -/
def VLaunch.squads (l : VLaunch) : Nat := l.threads / 32

/-- Groups of a launch that its scratchpad allocation holds at once (R151); a group that shares none is not bound by it. -/
def VLaunch.inShare (l : VLaunch) (n : Nat) : Bool := l.share == 0 || decide ((n + 1) * l.share ≤ l.alloc)

/-- Squads free on the tile. -/
def Dev.freeSquads (d : Dev) (t : Nat) : List Nat := (List.range 64).filter (fun sq => (d.groupOf t sq).isNone)

/-- Registers of the register file that resident groups hold (R151). -/
def Dev.regsHeld (d : Dev) (t : Nat) : Nat := ((d.tile t).groups.map (fun g => g.squads.length * 32 * g.regs)).sum

/-- A group of the launch may become resident on the tile (R151): its squads, its registers, and its part of the launch's allocation. -/
def Dev.fits (d : Dev) (t k : Nat) (l : VLaunch) : Bool :=
  decide (16 ≤ l.regs ∧ l.regs ≤ 256 ∧ l.regs % 8 = 0 ∧ 1 ≤ VLaunch.squads l ∧ VLaunch.squads l ≤ (d.freeSquads t).length ∧
    d.regsHeld t + VLaunch.squads l * 32 * l.regs ≤ 131072) && VLaunch.inShare l ((d.tile t).groups.filter (fun g => g.launch == k)).length

/-- The first part of a launch's allocation that no resident group of it holds. -/
def Dev.freeShare (d : Dev) (t k : Nat) (l : VLaunch) : Nat :=
  let used := ((d.tile t).groups.filter (fun g => g.launch == k)).map (fun g => g.share)
  ((List.range 65).map (fun i => l.base + i * l.share)).find? (fun a => !used.contains a) |>.getD l.base

/-- A launch begins on the tile set of a copy: its groups wait in grid order (R152, R153). -/
def State.opLaunch (s : State) (id : Nat) (b : Bool) (k : Nat) (c : Cmd) : Run :=
  if (s.dev.cmdCode c).launches.length ≤ k ∨ (KMap.find c.launched (k * 2 + cond b 1 0)).isSome then s.stop
  else (s.onDev (fun d => d.onCmd id (fun x => { x with launched := KMap.put x.launched (k * 2 + cond b 1 0) 0 }))).go

/-- A tile whose residency admits it takes the next group of a launch in grid order (R151, R153): every thread is active, the squads' registers
hold what nothing has defined once the register file has held an earlier group, and what R175 left in it before. -/
def State.opGroup (s : State) (id t k : Nat) (c : Cmd) : Run :=
  let d := s.dev
  let key := c.keyOf t k
  match (d.cmdCode c).launches[k]?, KMap.find c.launched key with
  | some l, some n =>
    if VLaunch.groups l ≤ n ∨ d.fits t k l = false then s.stop
    else
      let sqs := (d.freeSquads t).take (VLaunch.squads l)
      let old := !(d.tile t).groups.isEmpty || !(d.tile t).vregs.isEmpty || !(d.tile t).stale.isEmpty
      (s.onDev (fun e => { ((e.onTile t (fun x => { x with
        groups := x.groups ++ [{ launch := k, num := n, squads := sqs, regs := l.regs, share := d.freeShare t k l, waiting := [] }]
        inactive := x.inactive.filter (fun y => !sqs.contains (y / 32))
        vregs := x.vregs.filter (fun y => !sqs.contains (y.1 / 8192))
        stale := if old then ((List.range sqs.length).zip sqs).foldl (fun m y => KMap.put m y.2 (e.fresh + y.1 * 8192)) x.stale else x.stale })).onCmd id
          (fun x => { x with launched := KMap.put x.launched key (n + 1) })) with fresh := e.fresh + (if old then sqs.length * 8192 else 0) })).go
  | _, _ => s.stop

/-- The threads of a group have ended: its residency is free (R153). -/
def State.opGroupEnd (s : State) (t k g : Nat) : Run :=
  if (s.dev.tile t).groups.any (fun x => x.launch == k && x.num == g && x.waiting.isEmpty) then
    (s.onDev (fun d => d.onTile t (fun x => { x with groups := x.groups.filter (fun y => !(y.launch == k && y.num == g)) }))).go
  else s.stop

/-- A squad reaches its group's barrier: it waits until every squad of the group has (R153). -/
def State.opBarrier (s : State) (t sq : Nat) : Run :=
  if s.dev.squadOk t sq [] then
    (s.onDev (fun d => d.onTile t (fun x => { x with groups := x.groups.map (fun g =>
      if g.squads.contains sq then
        { g with waiting := if g.squads.all (fun y => y == sq || g.waiting.contains y) then [] else sq :: g.waiting }
      else g) }))).go
  else s.stop

/-- Every launch of a copy has run: its groups have been taken, and none is resident on the copy's tiles. -/
def Dev.launchesDone (d : Dev) (c : Cmd) (b : Bool) : Bool :=
  let ls := (d.cmdCode c).launches
  (List.range ls.length).all (fun k => (KMap.find c.launched (k * 2 + cond b 1 0)).all (fun n => n == (ls[k]?.elim 0 VLaunch.groups))) &&
    (if b then c.tilesB else c.tiles).all (fun t => (d.tile t).groups.isEmpty)

/-- The active bits of a squad (R154). -/
def State.opActive (s : State) (t sq : Nat) (on : List Nat) : Run :=
  if s.dev.squadOk t sq [] then
    (s.onDev (fun d => d.onTile t (fun x => { x with
      inactive := x.inactive.filter (fun y => y / 32 != sq) ++ ((List.range 32).filter (fun th => !on.contains th)).map (fun th => sq * 32 + th) }))).go
  else s.stop

/-- An operation on the registers of a squad's active threads (R157, R205). -/
def State.opVec (s : State) (t sq : Nat) (op : VecOp) (dst a b c : Nat) : Run :=
  if s.dev.squadOk t sq [dst, a, b, c] then
    (s.onDev (fun d => d.forAll (d.threads t sq) (fun th e =>
      let f := e.freeNat
      f.2.setVreg t sq dst th (vecResult op (e.vregOf t sq a th) (e.vregOf t sq b th) (e.vregOf t sq c th) f.1)))).issued t
  else s.stop

/-- A constant into a register. -/
def State.opVecImm (s : State) (t sq dst : Nat) (v : W32) : Run :=
  if s.dev.squadOk t sq [dst] then (s.onDev (fun d => d.forAll (d.threads t sq) (fun th e => e.setVreg t sq dst th v))).issued t else s.stop

/-- The parallel scan over the squad's active threads in thread order; the carry-in is the last of those threads' copy of the register named, so
that a chain carries the last element of one instruction into the next; the running products of `a` go to a register of their own when the
instruction names one (R156, R277, R278). -/
def State.opScan (s : State) (t sq dst a b carry : Nat) (prod : Option Nat) : Run :=
  if s.dev.squadOk t sq ([dst, a, b, carry] ++ prod.toList) then
    (s.onDev (fun d =>
      let ths := d.threads t sq
      let r := scanAll (ths.map (fun th => (d.vregOf t sq a th, d.vregOf t sq b th))) (d.vregOf t sq carry (ths.getLastD 31))
      d.forAll (ths.zip r) (fun x e => (prod.toList).foldl (fun f p => f.setVreg t sq p x.1 x.2.2) (e.setVreg t sq dst x.1 x.2.1)))).issued t
  else s.stop

/-- The widths a vector load or store moves. -/
def vecSize (n : Nat) : Bool := n == 1 || n == 2 || n == 4

/-- A loaded value: INT16 widened to INT32 (R205), or the bytes with zeros above them. -/
def loadWord (bs : List Byte) (wide : Bool) : W32 := if wide then BitVec.ofInt 32 (signedOf 16 (leNat bs)) else BitVec.ofNat 32 (leNat bs)

/-- A vector load: active threads only; another tile's scratchpad is read through the routers (R154, R155, R171, R205). -/
def State.opVload (s : State) (id t sq dst a : Nat) (m : VecMem) (size : Nat) (wide : Bool) : Run :=
  let d := s.dev
  if !s.dev.squadOk t sq [dst, a] || !vecSize size || (wide && size != 2) then s.stop
  else
    let ths := d.threads t sq
    match m with
    | .acc => (s.onDev (fun e => e.forAll ths (fun th x => x.setVreg t sq dst th (d.accOf t ((d.vregOf t sq a th).toNat % 65536))))).issued t
    | .scratch u =>
      let at_ := fun th => (d.vregOf t sq a th).toNat
      match ths.find? (fun th => !d.mayTileRead t u (at_ th) size) with
      | some th => (s.accessFault id t (scratchBase u + at_ th)).stop
      | none => (s.onDev (fun e => e.forAll ths (fun th x =>
          (x.setVreg t sq dst th (loadWord (s.sp u (at_ th) size) wide)).routeRead t u size))).issued t

/-- A vector store (R154, R155, R171). -/
def State.opVstore (s : State) (id t sq src a : Nat) (m : VecMem) (size : Nat) : Run :=
  let d := s.dev
  if !s.dev.squadOk t sq [src, a] || !vecSize size then s.stop
  else
    let ths := d.threads t sq
    match m with
    | .acc => (s.onDev (fun e => e.forAll ths (fun th x => x.setAcc t ((d.vregOf t sq a th).toNat % 65536) (d.vregOf t sq src th)))).issued t
    | .scratch u =>
      let at_ := fun th => (d.vregOf t sq a th).toNat
      match ths.find? (fun th => !d.mayTileWrite t u (at_ th) size) with
      | some th => (s.accessFault id t (scratchBase u + at_ th)).stop
      | none => ((s.forAll ths (fun th x => x.put (scratchBase u + at_ th) (leBytes size (d.vregOf t sq src th).toNat))).onDev (fun e =>
          if t = u then e else e.forAll ths (fun _ x => x.countRoute t u size))).issued t

/-- The demand reads of a gather, thread by thread; what ECC finds is met at the first (R155, R165). -/
def State.gatherAll (s : State) (id t sq dst lo hi size : Nat) (c : Cmd) (ecc : Ecc) : List Nat → Run
  | [] => s.issued t
  | th :: rest =>
    let a := (s.dev.vregOf t sq lo th).toNat + (s.dev.vregOf t sq hi th).toNat * 2 ^ 32
    match s.placeRead id t size c (.addr a) with
    | (none, u) => u.stop
    | (some bs, u) =>
      let e := u.eccFound id t a ecc
      if e.2 then
        (e.1.onDev (fun d => (d.setVreg t sq dst th (BitVec.ofNat 32 (leNat bs))).add64 (Off.TILE_CNT_AE_BYTES t) size)).gatherAll id t sq dst lo hi size c .clean rest
      else e

/-- A gather from HBM (R155). -/
def State.opGather (s : State) (id t sq dst lo hi size : Nat) (c : Cmd) (ecc : Ecc) : Run :=
  if s.dev.squadOk t sq [dst, lo, hi] && vecSize size then s.gatherAll id t sq dst lo hi size c ecc (s.dev.threads t sq) else s.stop

/-! ### Conversions (R167, R168, R207 to R215) -/

/-- Values converted with the tile's random source; draws and saturated elements are counted (R168, R177, R208, R209). -/
def Dev.convTile (d : Dev) (id t : Nat) (conv : Nat) (vs : List Num) : Converted × Dev :=
  let x := d.tile t
  let r := convert (convOf conv) x.seed x.draws vs
  (r, (d.onTile t (fun y => { y with draws := y.draws + r.draws })).addClamps id r.counted)

/-- The scales of `n` elements in a conversion's form. -/
def scaleCount (conv n : Nat) : Nat := let b := (convOf conv).block; if b = 0 then 0 else (n + b - 1) / b

/-- The conversion instruction, scratchpad to scratchpad (R215). -/
def State.opConvert (s : State) (id t : Nat) (src dst : Opnd) (n : Nat) : Run :=
  if !convPairOk src.conv dst.conv then s.stop
  else
    let cs := convOf src.conv
    s.withSp id t [(src.off, elemBytes cs.fmt n), (src.scale, scaleCount src.conv n)] (fun l =>
      let r := s.dev.convTile id t dst.conv ((List.range n).map (fun i => cs.value (l.getD 0 []) (l.getD 1 []) i))
      let u := (s.onDev (fun _ => r.2)).spWrite id t dst.off (packElems (convOf dst.conv).fmt r.1.raws)
      let v := if u.2 then u.1.spWrite id t dst.scale (r.1.scales.map (BitVec.ofNat 8)) else u
      if v.2 then v.1.issued t else v)

/-- The values a store moves (R167). -/
def State.storeValues (s : State) (t n : Nat) (src : StoreSrc) (l : List (List Byte)) : List Num :=
  match src with
  | .scratch o => (List.range n).map (fun i => (convOf o.conv).value (l.getD 0 []) (l.getD 1 []) i)
  | .accF x => (List.range n).map (fun i => f32v (s.dev.accOf t (x + i)))
  | .accI x => (List.range n).map (fun i => Num.ofInt (s.dev.accOf t (x + i)).toInt)

/-- The source of a store is one the engine can read, and the plan may hold the conversion (R192); an accumulator is FP32 or INT32. -/
def storeForm (src : StoreSrc) (n conv : Nat) : Bool :=
  match src with
  | .scratch o => convPairOk o.conv conv
  | .accF x => decide (x + n ≤ 65536) && convPairOk 13 conv
  | .accI x => decide (x + n ≤ 65536) && convPairOk 4 conv

/-- A place the store engine writes elements to: an index entry is written whole, by an instruction of its own (R307). -/
def storeTo : Place → Bool
  | .kvIndex _ _ _ => false
  | _ => true

/-- The store engine: elements and scales in the target's form, to a declared region (R167, R168). -/
def State.opStore (s : State) (id t : Nat) (src : StoreSrc) (n conv : Nat) (dst : Place) (scale : Option Place) (c : Cmd) : Run :=
  if !storeForm src n conv || !storeTo dst || !scale.all storeTo || (scaleCount conv n != 0 && scale.isNone) then s.stop
  else
    let rs := match src with
      | .scratch o => [(o.off, elemBytes (convOf o.conv).fmt n), (o.scale, scaleCount o.conv n)]
      | _ => []
    s.withSp id t rs (fun l =>
      let r := s.dev.convTile id t conv (s.storeValues t n src l)
      let u := (s.onDev (fun _ => r.2)).placeWrite id t c dst (packElems (convOf conv).fmt r.1.raws)
      match scale with
      | none => u
      | some p => if u.2 && !r.1.scales.isEmpty then u.1.placeWrite id t c p (r.1.scales.map (BitVec.ofNat 8)) else u)

/-- Tokens are appended to the sequence of a port, within its append limit (R298, R300, R301). -/
def State.opAppend (s : State) (id n tokens : Nat) (c : Cmd) : Run :=
  match c.useOf n with
  | none => (s.ownFault id 0x22 true).stop
  | some u =>
    if u.limit < u.appended + tokens then s.stop
    else
      let r := if u.appended = 0 ∧ 0 < tokens then s.kvCopyTail u else (s, u)
      (r.1.onDev (fun d => d.onCmd id (fun y => { y with kv := y.kv.map (fun v => if v.arg = u.arg then r.2.grow tokens else v) }))).go

end Sys2Proof.Machine
end

