-- ==== Sys2Proof/Machine/Layers.lean ====
section
/-! DEFINITION. Machine/Layers.lean: pooling, depthwise taps, normalisation, activations and expert routing on the vector unit (R263 to R276). -/

namespace Sys2Proof.Machine

/-- FP32 0, 1, 2, 3, 6, 1/2, 1/6. -/
def f32One : W32 := 0x3F800000

/-- A division as Yilrum builds it, from a reciprocal within 2 units in the last place (R205). -/
def divBy (a b : W32) (free : Nat) : W32 := f32Mul a (f32Rcp b free)

/-- FP32 words of a tile's scratchpad. -/
def wordsOf (bs : List Byte) : List W32 := (List.range (bs.length / 4)).map (fun i => BitVec.ofNat 32 (leAt bs (4 * i) 4))

/-- A word as four bytes. -/
def wordBytes (w : W32) : List Byte := leBytes 4 w.toNat

/-- A sum of words in an open order (R217, R218). -/
def Dev.sumWords (d : Dev) (xs : List W32) : W32 × Dev := let o := d.takeOrder; (sumFree o.1 (xs.map f32v), o.2)

/-! ### Pooling and depthwise taps -/

/-- The largest element of a window; the canonical NaN when any is one (R265, R266). -/
def poolMax (vs : List Num) : Num := match vs with | [] => .inf true | v :: t => t.foldl Num.maximum v

/-- The reads that give element `x.2.1` of the array at `x.1` in a conversion's form, whose scales lie at `x.2.2`. -/
def elemReads (c : Conv) (x : Nat × Nat × Nat) : List (Nat × Nat) := [(x.1, elemBytes c.fmt (x.2.1 + 1)), (x.2.2, runScales c (x.2.1 + 1))]

/-- One pooling window (R265, R266): integers as INT32 for MAX, everything else in FP32. -/
def State.opPool (s : State) (id t : Nat) (mode : PoolMode) (conv : Nat) (elems : List (Nat × Nat × Nat)) (count dst : Nat) : Run :=
  let c := convOf conv
  if srcConvBad conv then s.stop
  else s.withSp id t (elems.flatMap (elemReads c)) (fun l =>
    let vs := ((List.range elems.length).zip elems).map (fun x => c.value (l.getD (2 * x.1) []) (l.getD (2 * x.1 + 1) []) x.2.2.1)
    if mode = .max then
      let v := poolMax vs
      s.spWrite id t dst (wordBytes (if c.fmt < 5 ∧ c.mx = false then BitVec.ofNat 32 (fmtEncode 4 v none false).1 else f32 v))
    else
      let n := if mode = .avgExclude then elems.length else count
      let x := s.dev.sumWords (vs.map f32)
      (s.onDev (fun _ => x.2)).spWrite id t dst (wordBytes (f32Mul x.1 (f32 ((Num.ofInt 1).div (.ofInt n))))))

/-- Depthwise taps of one output element: one fused multiply-add each, then the bias (R263, R264). -/
def State.opTaps (s : State) (id t : Nat) (xs : List (Nat × Nat)) (bias dst : Nat) : Run :=
  s.withSp id t ((bias, 4) :: xs.flatMap (fun x => [(x.1, 4), (x.2, 4)])) (fun l =>
    let w := fun i => f32At (l.getD i []) 0
    let sum := (List.range xs.length).foldl (fun a i => f32Fma (w (1 + 2 * i)) (w (2 + 2 * i)) a) (0 : W32)
    s.spWrite id t dst (wordBytes (f32Add sum (w 0))))

/-! ### Normalisation (R268, R269) -/

/-- `a × b + c`, in one rounding or two. -/
def mulAdd (a b c : W32) (free : Nat) : W32 := if free % 2 = 0 then f32Fma a b c else f32Add (f32Mul a b) c

/-- Layer or RMS normalisation of a resident row (R268). -/
def State.opNorm (s : State) (id t : Nat) (rms : Bool) (x gamma beta n : Nat) (eps : W32) (dst : Nat) : Run :=
  s.withSp id t [(x, 4 * n), (gamma, 4 * n), (beta, if rms then 0 else 4 * n)] (fun l =>
    let xs := wordsOf (l.getD 0 [])
    let gs := wordsOf (l.getD 1 [])
    let bs := wordsOf (l.getD 2 [])
    let nf := f32OfInt n
    let a := s.dev.sumWords xs
    let f1 := a.2.freeNat
    let mean : W32 := if rms then 0 else divBy a.1 nf f1.1
    let dev := xs.map (fun v => if rms then v else f32Sub v mean)
    let q := f1.2.sumWords (dev.map (fun v => f32Mul v v))
    let f2 := q.2.freeNat
    let f3 := f2.2.freeNat
    let rs := f32Rsqrt (f32Add (divBy q.1 nf f2.1) eps) f3.1
    let ys := (List.range n).foldl (fun (r : List W32 × Dev) i =>
      let f := r.2.freeNat
      let y := f32Mul (dev.getD i 0) rs
      (r.1 ++ [if rms then f32Mul y (gs.getD i 0) else mulAdd y (gs.getD i 0) (bs.getD i 0) f.1], f.2)) ([], f3.2)
    (s.onDev (fun _ => ys.2)).spWrite id t dst (ys.1.flatMap wordBytes))

/-- Two parts' statistics merge (R269). -/
def State.opMerge (s : State) (id t a b dst : Nat) : Run :=
  s.withSp id t [(a, 12), (b, 12)] (fun l =>
    let x := wordsOf (l.getD 0 [])
    let y := wordsOf (l.getD 1 [])
    let n := f32Add (x.getD 0 0) (y.getD 0 0)
    let dl := f32Sub (y.getD 1 0) (x.getD 1 0)
    let f1 := s.dev.freeNat
    let f2 := f1.2.freeNat
    let mu := f32Add (x.getD 1 0) (divBy (f32Mul dl (y.getD 0 0)) n f1.1)
    let m := f32Add (f32Add (x.getD 2 0) (y.getD 2 0)) (divBy (f32Mul (f32Mul (f32Mul dl dl) (x.getD 0 0)) (y.getD 0 0)) n f2.1)
    (s.onDev (fun _ => f2.2)).spWrite id t dst (wordBytes n ++ wordBytes mu ++ wordBytes m))

/-! ### Activations (R270) -/

/-- The sign cleared, and changed. -/
def f32AbsW (x : W32) : W32 := x &&& 0x7FFFFFFF
/-- The sign changed. -/
def f32NegW (x : W32) : W32 := x ^^^ 0x80000000

/-- 1 / (1 + exp(−x)). -/
def sigmoidW (x : W32) (a b : Nat) : W32 := f32Rcp (f32Add f32One (f32Exp (f32NegW x) a)) b

/-- tanh from exp(−2|x|). -/
def tanhW (x : W32) (a b : Nat) : W32 :=
  let e := f32Exp (f32NegW (f32Mul 0x40000000 (f32AbsW x))) a
  f32Mul (f32Sub f32One e) (f32Rcp (f32Add f32One e) b) ^^^ (x &&& 0x80000000)

/-- An activation function in FP32; `a` and `b` choose within the bounds of its primitives (R205, R270). -/
def actW (f : Act) (x : W32) (a b : Nat) : W32 :=
  match f with
  | .relu => f32Max x 0
  | .relu6 => f32Min (f32Max x 0) 0x40C00000
  | .leakyRelu k => if f32IsNan x then f32 .nan else if f32Lt x 0 then f32Mul k x else x
  | .hardSwish => f32Mul x (f32Mul (f32Min (f32Max (f32Add x 0x40400000) 0) 0x40C00000) 0x3E2AAAAB)
  | .sigmoid => sigmoidW x a b
  | .tanh => tanhW x a b
  | .silu => f32Mul x (sigmoidW x a b)
  | .softplus => f32Add (f32Max x 0) (f32Log (f32Add f32One (f32Exp (f32NegW (f32AbsW x)) a)) b)
  | .gelu => f32Mul (f32Mul 0x3F000000 x) (f32Add f32One (tanhW (f32Mul 0x3F4C422A (f32Fma (f32Mul (f32Mul x x) x) 0x3D372713 x)) a b))

/-- An activation over `n` elements. -/
def State.opActivation (s : State) (id t : Nat) (f : Act) (x n dst : Nat) : Run :=
  s.withSp id t [(x, 4 * n)] (fun l =>
    let r := (wordsOf (l.getD 0 [])).foldl (fun (r : List W32 × Dev) v =>
      let a := r.2.freeNat
      let b := a.2.freeNat
      (r.1 ++ [actW f v a.1 b.1], b.2)) ([], s.dev)
    (s.onDev (fun _ => r.2)).spWrite id t dst (r.1.flatMap wordBytes))

/-! ### Expert routing (R271 to R276) -/

/-- Experts from the largest logit down, lower numbers first among equals (R271). -/
def expertOrder : Nat → List (Nat × W32) → List Nat
  | 0, _ => []
  | n + 1, xs =>
    match xs with
    | [] => []
    | x :: t =>
      let best := t.foldl (fun (b : Nat × W32) y => if f32Lt b.2 y.2 then y else b) x
      best.1 :: expertOrder n (xs.filter (fun y => y.1 != best.1))

/-- Soft maximum weights of the chosen experts over a set of logits (R271). -/
def gateWeights (d : Dev) (ovr : List W32) (chosen : List W32) : List W32 × Dev :=
  let m := ovr.foldl f32Max f32NegInf
  let es := ovr.foldl (fun (r : List W32 × Dev) v => let f := r.2.freeNat; (r.1 ++ [f32Exp (f32Sub v m) f.1], f.2)) ([], d)
  let sum := es.2.sumWords es.1
  let f := sum.2.freeNat
  let inv := f32Rcp sum.1 f.1
  chosen.foldl (fun (r : List W32 × Dev) v => let g := r.2.freeNat; (r.1 ++ [f32Mul (f32Exp (f32Sub v m) g.1) inv], g.2)) ([], f.2)

/-- The choices of one token, by rank, and its best expert that is not among them. -/
def tokenChoices (d : Dev) (l : MoeLayer) (home token : Nat) (logits : List W32) : (List Choice × Nat) × Dev :=
  let order := expertOrder (l.k + 1) ((List.range logits.length).zip logits)
  let sel := order.take l.k
  let at_ := fun e => logits.getD e 0
  let w := gateWeights d (if l.allSoftmax then logits else sel.map at_) (sel.map at_)
  (((List.range sel.length).map (fun r => { rank := r, home := home, token := token, expert := sel.getD r 0, weight := w.1.getD r 0, slot := none, rerouted := false }),
    order.getD l.k 0), w.2)

/-- The choices of every home tile's tokens, in the order of R273, each with its token's reroute target. -/
def allChoices (d : Dev) (l : MoeLayer) (logits : List (List (List W32))) : List (Choice × Nat) × Dev :=
  let r := ((List.range logits.length).flatMap (fun h => (List.range (logits.getD h []).length).map (fun k => (h, k)))).foldl
    (fun (r : List (Choice × Nat) × Dev) x =>
      let c := tokenChoices r.2 l x.1 x.2 ((logits.getD x.1 []).getD x.2 [])
      (r.1 ++ c.1.1.map (fun y => (y, c.1.2)), c.2)) ([], d)
  ((List.range l.k).flatMap (fun k => r.1.filter (fun x => x.1.rank == k)), r.2)

/-- Slots taken so far by expert. -/
abbrev Slots := KMap Nat

/-- The first round: slots in order; a slot of Ce or higher overflows (R273). -/
def firstRound (ce : Nat) (cs : List (Choice × Nat)) : List (Choice × Nat) × Slots :=
  cs.foldl (fun r x =>
    let n := KMap.getD r.2 x.1.expert 0
    (r.1 ++ [({ x.1 with slot := if n < ce then some n else none }, x.2)], KMap.put r.2 x.1.expert (n + 1))) ([], [])

/-- The reroute round (R274). -/
def rerouteRound (ce : Nat) (cs : List (Choice × Nat)) (taken : Slots) : List (Choice × Nat) × Slots :=
  cs.foldl (fun r x =>
    let n := KMap.getD r.2 x.2 0
    if x.1.slot.isNone ∧ n < ce then (r.1 ++ [({ x.1 with expert := x.2, slot := some n, rerouted := true }, x.2)], KMap.put r.2 x.2 (n + 1))
    else (r.1 ++ [x], r.2)) ([], taken.map (fun p => (p.1, min ce p.2)))

/-- RENORM: a token's weights divided by the sum of its placed choices' weights (R274). -/
def renormed (d : Dev) (cs : List Choice) : List Choice × Dev :=
  cs.foldl (fun (r : List Choice × Dev) c =>
    let placed := cs.filter (fun x => x.home == c.home && x.token == c.token && x.slot.isSome)
    if placed.isEmpty then (r.1 ++ [c], r.2)
    else
      let f := r.2.freeNat
      let sum := placed.foldl (fun a x => f32Add a x.weight) (0 : W32)
      (r.1 ++ [{ c with weight := divBy c.weight sum f.1 }], f.2)) ([], d)

/-- The statistics record of a layer (R276). -/
def moeRecord (l : MoeLayer) (tokens : Nat) (cs : List Choice) (demand taken : Slots) : List Byte :=
  let first := (cs.filter (fun c => c.slot.isSome && !c.rerouted)).length
  let second := (cs.filter (fun c => c.rerouted)).length
  leBytes 2 l.layer ++ leBytes 2 l.experts ++ leBytes 1 l.k ++
    leBytes 1 ((if l.reroute then 1 else 0) + (if l.renorm then 2 else 0) + (if l.allSoftmax then 4 else 0)) ++
    leBytes 2 (taken.filter (fun p => decide (l.capacity ≤ p.2))).length ++ leBytes 4 tokens ++ leBytes 4 l.capacity ++ leBytes 4 first ++
    leBytes 4 second ++ leBytes 4 (cs.length - first - second) ++ leBytes 4 (demand.foldl (fun m p => max m p.2) 0)

/-- A choice's entry: expert, slot (0xFFFF when not placed), gate weight. -/
def Choice.entry (c : Choice) : List Byte := leBytes 2 c.expert ++ leBytes 2 (c.slot.getD 0xFFFF) ++ wordBytes c.weight

/-- The placements of the choices are written to their home tiles, one after another. -/
def State.writeChoices (s : State) (id : Nat) (l : MoeLayer) (homes : List (Nat × Nat × Nat × Nat)) : List Choice → Run
  | [] => s.go
  | c :: rest =>
    match homes[c.home]? with
    | none => s.writeChoices id l homes rest
    | some (t, _, _, dst) =>
      let r := s.spWrite id t (dst + (c.token * l.k + c.rank) * 8) c.entry
      if r.2 then r.1.writeChoices id l homes rest else r

/-- The logits of each home tile's tokens, unless a tile cannot read them. -/
def State.logits (s : State) (l : MoeLayer) : List (Nat × Nat × Nat × Nat) → Option (List (List (List W32)))
  | [] => some []
  | (t, n, off, _) :: rest =>
    match s.spRead t off (4 * n * l.experts), s.logits l rest with
    | some bs, some ls => some (((List.range n).map (fun i => wordsOf (slice bs (4 * i * l.experts) (4 * l.experts)))) :: ls)
    | _, _ => none

/-- The tiles of a copy of the command, in tile-set order. -/
def Cmd.setOf (c : Cmd) (t : Nat) : List Nat := if c.copyB t then c.tilesB else c.tiles

/-- The home tiles are of one tile set, and stand in its order (R273). -/
def homesOk (c : Cmd) (hs : List Nat) : Bool := ((c.setOf (hs.headD 0)).filter (fun t => hs.contains t)) == hs

/-- The ranges of an expert layer (R271, R272). -/
def moeRuns (l : MoeLayer) : Bool :=
  decide (2 ≤ l.experts ∧ l.experts ≤ 1024 ∧ 1 ≤ l.k ∧ l.k ≤ 8 ∧ l.k ≤ l.experts ∧ 1 ≤ l.capacity ∧ l.capacity ≤ 65535)

/-- Each home tile sends its counts to every other home tile through the routers; the spec gives no length of them (R273). -/
def Dev.sendCounts (d : Dev) (hs : List Nat) : Dev :=
  d.forAll (hs.flatMap (fun a => (hs.filter (fun b => b != a)).map (fun b => (a, b)))) (fun x e =>
    let f := e.freeNat
    f.2.countRoute x.1 x.2 f.1)

/-- The routing step of a layer (R271 to R274, R276). -/
def State.opRoute (s : State) (id ly : Nat) (homes : List (Nat × Nat × Nat × Nat)) (stats : Place) (c : Cmd) : Run :=
  let hs := homes.map (fun h => h.1)
  match (s.dev.cmdCode c).moe[ly]? with
  | none => s.stop
  | some l =>
    if moeRuns l = false ∨ homes = [] ∨ homesOk c hs = false then s.stop
    else match homes.find? (fun h => !(s.dev.onIt id h.1 && s.dev.scratchOk h.1 h.2.2.1 (4 * h.2.1 * l.experts))), s.logits l homes with
      | none, some ls =>
        let a := allChoices s.dev l ls
        let f := firstRound l.capacity a.1
        let g := if l.reroute then rerouteRound l.capacity f.1 f.2 else (f.1, f.2.map (fun p => (p.1, min l.capacity p.2)))
        let cs := g.1.map (fun x => x.1)
        let e := if l.renorm then renormed a.2 cs else (cs, a.2)
        let r := (s.onDev (fun _ => (e.2.sendCounts hs).onCmd id (fun x =>
          { x with moe := KMap.put x.moe (x.keyOf (hs.headD 0) ly) { homes := hs, choices := e.1 } }))).writeChoices id l homes e.1
        if r.2 then r.1.placeWrite id (hs.headD 0) c stats (moeRecord l ((homes.map (fun h => h.2.1)).sum) e.1 f.2 g.2) else r
      | some h, _ => (s.accessFault id h.1 (scratchBase h.1 + h.2.2.1)).stop
      | _, none => s.stop

/-! ### Expert rows and outputs (R272, R275) -/

/-- The choices placed with an expert: each with its slot. -/
def MoeRun.placed (m : MoeRun) (e : Nat) : List (Choice × Nat) :=
  (m.choices.filter (fun x => x.expert == e)).filterMap (fun x => x.slot.map (fun sl => (x, sl)))

/-- The Ce rows of an expert: each placed choice's token row in its slot, zeros in every other (R272). -/
def State.expertBytes (s : State) (m : MoeRun) (e ce n : Nat) (srcs : List Nat) : List Byte :=
  (List.range ce).flatMap (fun k =>
    match (MoeRun.placed m e).find? (fun x => x.2 == k) with
    | none => List.replicate n 0
    | some x => s.sp (m.homes.getD x.1.home 0) (srcs.getD x.1.home 0 + x.1.token * n) n)

/-- The rows of an expert arrive at a tile of its tile set by tile-to-tile writes: exactly Ce of them, whatever number of choices there is (R171,
R172, R272). -/
def State.opExpertRows (s : State) (id ly e u : Nat) (srcs : List Nat) (n dst : Nat) (c : Cmd) : Run :=
  match (s.dev.cmdCode c).moe[ly]?, KMap.find c.moe (c.keyOf u ly) with
  | some l, some m =>
    let ps := MoeRun.placed m e
    let src := fun (x : Choice × Nat) => (m.homes.getD x.1.home 0, srcs.getD x.1.home 0 + x.1.token * n)
    if l.experts ≤ e ∨ n = 0 then s.stop
    else match ps.find? (fun x => !s.dev.scratchOk (src x).1 (src x).2 n) with
      | some x => (s.accessFault id (src x).1 (scratchBase (src x).1 + (src x).2)).stop
      | none =>
        match ps.find? (fun x => !s.dev.mayTileWrite (src x).1 u dst (l.capacity * n)) with
        | some x => (s.accessFault id (src x).1 (scratchBase u + dst)).stop
        | none =>
          let r := s.spWrite id u dst (s.expertBytes m e l.capacity n srcs)
          if r.2 then (r.1.onDev (fun d => d.forAll (ps.filter (fun x => (src x).1 != u)) (fun x f => f.countRoute (src x).1 u n))).go else r
  | _, _ => s.stop

/-- The output rows of an expert return to the home tiles by tile-to-tile writes, each to its token and rank (R275). -/
def State.opExpertOut (s : State) (id ly e u src n : Nat) (dsts : List Nat) (c : Cmd) : Run :=
  match (s.dev.cmdCode c).moe[ly]?, KMap.find c.moe (c.keyOf u ly) with
  | some l, some m =>
    let ps := MoeRun.placed m e
    let dst := fun (x : Choice × Nat) => (m.homes.getD x.1.home 0, dsts.getD x.1.home 0 + (x.1.token * l.k + x.1.rank) * n)
    if l.experts ≤ e ∨ n = 0 then s.stop
    else if !s.dev.scratchOk u src (l.capacity * n) then (s.accessFault id u (scratchBase u + src)).stop
    else match ps.find? (fun x => !s.dev.mayTileWrite u (dst x).1 (dst x).2 n) with
      | some x => (s.accessFault id u (scratchBase (dst x).1 + (dst x).2)).stop
      | none => ((s.forAll ps (fun x w => w.put (scratchBase (dst x).1 + (dst x).2) (s.sp u (src + x.2 * n) n))).onDev (fun d =>
          d.forAll (ps.filter (fun x => (dst x).1 != u)) (fun x f => f.countRoute u (dst x).1 n))).go
  | _, _ => s.stop

/-- One token's residual with the outputs of its placed choices added in rank order, in FP32 (R275): whether a weighted output is added in one
rounding or two the spec leaves open. -/
def combineToken (d : Dev) (res : List W32) (outs : List (W32 × List W32)) : List W32 × Dev :=
  outs.foldl (fun (r : List W32 × Dev) o =>
    let f := r.2.freeNat
    (((List.range r.1.length).zip r.1).map (fun x => mulAdd o.1 (o.2.getD x.1 0) x.2 f.1), f.2)) (res, d)

/-- A home tile adds its tokens' expert outputs to their residuals in rank order (R275); a token with no placed choice keeps its residual (R274). -/
def State.opCombine (s : State) (id t ly n outs residual dst : Nat) (c : Cmd) : Run :=
  match (s.dev.cmdCode c).moe[ly]?, KMap.find c.moe (c.keyOf t ly) with
  | some l, some m =>
    let home := m.homes.idxOf t
    let mine := m.choices.filter (fun x => x.home == home)
    let tokens := mine.foldl (fun k x => max k (x.token + 1)) 0
    if m.homes.length ≤ home then s.stop
    else s.withSp id t [(residual, 4 * n * tokens), (outs, 4 * n * tokens * l.k)] (fun b =>
      let row := fun (bs : List Byte) (i : Nat) => wordsOf (slice bs (4 * n * i) (4 * n))
      let r := (List.range tokens).foldl (fun (r : List W32 × Dev) k =>
        let os := (List.range l.k).filterMap (fun rank =>
          (mine.find? (fun x => x.token == k && x.rank == rank && x.slot.isSome)).map (fun x => (x.weight, row (b.getD 1 []) (k * l.k + rank))))
        let x := combineToken r.2 (row (b.getD 0 []) k) os
        (r.1 ++ x.1, x.2)) ([], s.dev)
      (s.onDev (fun _ => r.2)).spWrite id t dst (r.1.flatMap wordBytes))
  | _, _ => s.stop

end Sys2Proof.Machine
end

