-- ==== Sys2Proof/Machine/RunPlan.lean ====
section
/-! DEFINITION. Machine/RunPlan.lean: RUN_PLAN: the operations its tiles perform while it runs (R116, R134 to R178). -/

namespace Sys2Proof.Machine

/-- A tile works on. -/
def State.onTileCmd (s : State) (id t : Nat) (f : Run) : Run := if s.dev.onIt id t then f else s.stop

/-- An error in a tile's register file or accumulator memory (R176). -/
def State.opEccTile (s : State) (id t : Nat) (fatal : Bool) : Run :=
  let u := s.onDev (fun d => d.tileEcc t fatal)
  if fatal then
    let v := u.onDev (fun d => d.when (d.safetyNow == some (d.tilePart t)) (fun e => e.doubt 5 t))
    (v.ownFault id 0x32 false).stop
  else u.go

/-- An error that an engine of the tile finds in a scratchpad bank (R241). -/
def State.opEccScratch (s : State) (id t off : Nat) (e : Ecc) : Run :=
  if 0x400000 ≤ off then s.stop else s.eccFound id t (scratchBase t + off) e

/-- Errors on a router's links that retransmission corrected are counted (R178). -/
def State.opRetransmit (s : State) (t n : Nat) : Run :=
  (s.onDev (fun d => d.wn (Off.TILE_ROUTER_ERR t) (min (d.n (Off.TILE_ROUTER_ERR t) + n) (2 ^ 32 - 1)))).go

/-- Cycles of a tile: running, and waiting for an access block (R178). -/
def State.opCycles (s : State) (t busy wait : Nat) : Run :=
  (s.onDev (fun d => (d.add64 (Off.TILE_CNT_BUSY t) busy).add64 (Off.TILE_CNT_AE_WAIT t) wait)).go

/-- The tiles of copy A, or of copy B, of a command. -/
def Cmd.copyTiles (c : Cmd) (b : Bool) : List Nat := if b then c.tilesB else c.tiles

/-- Execution ends, of the command or of one copy of a safety command (R339, R434): its launches have run, and no read is in flight (R166). -/
def State.opDone (s : State) (id : Nat) (c : Cmd) (b : Bool) : Run :=
  if !s.dev.launchesDone c b || (c.copyTiles b).any (fun t => s.dev.onIt id t && !(s.dev.tile t).flight.isEmpty) then s.stop
  else if s.dev.instSafe c.inst then
    (s.onDev (fun d => d.onCmd id (fun x => if b then { x with endedB := true } else { x with endedA := true }))).go
  else (s.onDev (fun d => d.onCmd id (fun x => { x with endedA := true, phase := Phase.ended }))).go

/-- A token counter is incremented, through the routers when it is another tile's; the spec gives no length of the message (R136, R185). -/
def Dev.tokenMessage (d : Dev) (t u k : Nat) : Dev :=
  let e := d.tokenInc u k
  if t = u then e else let f := e.freeNat; f.2.countRoute t u f.1

/-- One operation of a running plan; what it cannot do stops the list, and a fault of it ends the command. -/
def State.planOp (s : State) (id : Nat) (c : Cmd) (o : PlanOp) : Run :=
  match o with
  | .block t src run dims dst tok demand => s.onTileCmd id t (s.opBlock id t c src run dims dst tok demand)
  | .reads t i n => s.onTileCmd id t (s.opReads t i n)
  | .arrive t i ecc => s.onTileCmd id t (s.opArrive id t i ecc)
  | .release t => s.onTileCmd id t (s.opRelease id t)
  | .wait t k v => if s.dev.onIt id t && decide (v ≤ s.dev.tokenOf t k) then s.go else s.stop
  | .token t u k => if s.dev.onIt id t && decide (u < 64) && s.dev.tilePart u == s.dev.tilePart t then (s.onDev (fun d => d.tokenMessage t u k)).go else s.stop
  | .matClear t h => s.onTileCmd id t (s.opMatClear t h)
  | .matStep t row a b sp depth cols => s.onTileCmd id t (s.opMatStep id t row a b sp depth cols)
  | .attStart t row ly h i => s.onTileCmd id t (s.opAttStart t row ly h i c)
  | .attBlock t row q k v mask => s.onTileCmd id t (s.opAttBlock id t row q k v mask c)
  | .attEnd t row bit => s.onTileCmd id t (s.opAttEnd id t row bit c)
  | .launch b k => s.opLaunch id b k c
  | .group t k => s.onTileCmd id t (s.opGroup id t k c)
  | .groupEnd t k g => s.onTileCmd id t (s.opGroupEnd t k g)
  | .barrier t sq => s.onTileCmd id t (s.opBarrier t sq)
  | .active t sq on => s.onTileCmd id t (s.opActive t sq on)
  | .vec t sq op d a b k => s.onTileCmd id t (s.opVec t sq op d a b k)
  | .vecImm t sq d v => s.onTileCmd id t (s.opVecImm t sq d v)
  | .scan t sq d a b k p => s.onTileCmd id t (s.opScan t sq d a b k p)
  | .vload t sq d a m n w => s.onTileCmd id t (s.opVload id t sq d a m n w)
  | .vstore t sq d a m n => s.onTileCmd id t (s.opVstore id t sq d a m n)
  | .gather t sq d lo hi n ecc => s.onTileCmd id t (s.opGather id t sq d lo hi n c ecc)
  | .convert t src dst n => s.onTileCmd id t (s.opConvert id t src dst n)
  | .store t src n conv dst scale => s.onTileCmd id t (s.opStore id t src n conv dst scale c)
  | .append n k => s.opAppend id n k c
  | .index t ly row => s.onTileCmd id t (s.opIndex id t ly row c)
  | .tileWrite t off n us dst => s.onTileCmd id t (s.opTileWrite id t off n us dst)
  | .scout t ly g q rows => s.onTileCmd id t (s.opScout id t ly g c q rows)
  | .pool t mode conv elems n dst => s.onTileCmd id t (s.opPool id t mode conv elems n dst)
  | .taps t xs bias dst => s.onTileCmd id t (s.opTaps id t xs bias dst)
  | .norm t rms x g b n eps dst => s.onTileCmd id t (s.opNorm id t rms x g b n eps dst)
  | .merge t a b dst => s.onTileCmd id t (s.opMerge id t a b dst)
  | .activation t f x n dst => s.onTileCmd id t (s.opActivation id t f x n dst)
  | .route ly homes stats => s.opRoute id ly homes stats c
  | .expertRows ly e u srcs n dst => s.onTileCmd id u (s.opExpertRows id ly e u srcs n dst c)
  | .expertOut ly e u src n dsts => s.onTileCmd id u (s.opExpertOut id ly e u src n dsts c)
  | .combine t ly n outs res dst => s.onTileCmd id t (s.opCombine id t ly n outs res dst c)
  | .cycles t busy wait => s.onTileCmd id t (s.opCycles t busy wait)
  | .eccTile t fatal => s.onTileCmd id t (s.opEccTile id t fatal)
  | .eccScratch t off e => s.onTileCmd id t (s.opEccScratch id t off e)
  | .retransmit t n => s.onTileCmd id t (s.opRetransmit t n)
  | .done b => s.opDone id c b

/-- The operations in order, each on the command as the one before it left it. -/
def State.planOps (s : State) (id : Nat) : List PlanOp → State
  | [] => s
  | o :: rest =>
    match s.dev.cmd id with
    | none => s
    | some c =>
      let r := s.planOp id c o
      if r.2 then r.1.planOps id rest else r.1

/-- RUN_PLAN (R116): the running command's tiles perform the next operations of its plan. -/
def execRunPlan (id : Nat) (ops : List PlanOp) (s : State) : Host.Outcome State Fault Refusal :=
  .next (match s.dev.cmd id with
    | none => s
    | some c => if c.isRun ∧ c.phase = .running then s.planOps id ops else s)

end Sys2Proof.Machine
end

