-- ==== Sys2Proof/Machine/Draw.lean ====
section
/-! DEFINITION. Machine/Draw.lean: DRAW_LIST: its records, the start checks, binning, shading jobs and the final store (R454 to R472). -/

namespace Sys2Proof.Machine

/-! ### Records (R456) -/

/-- Record `i` of a list. -/
def recAt (l : List Byte) (i : Nat) : List Byte := slice l (32 * i) 32

/-- TYPE of record `i`; 0 END, 1 TARGET, 2 STATE, 3 VIEWPORT, 4 SCISSOR, 5 DRAW, 6 PRESENT. -/
def recType (l : List Byte) (i : Nat) : Nat := leAt l (32 * i) 1

/-- Records up to END and with it; none when the list has no END. -/
def recCount (l : List Byte) : Option Nat := ((List.range (l.length / 32)).find? (fun i => recType l i == 0)).map (fun i => i + 1)

/-- A field of record `i`. -/
def recF (l : List Byte) (i off n : Nat) : Nat := leAt l (32 * i + off) n

/-- A field of the TARGET record. -/
def tgt (l : List Byte) (off n : Nat) : Nat := recF l 0 off n

/-- Colour targets, samples, depth format, width and height of the list. -/
def tgtCount (l : List Byte) : Nat := tgt l 1 1
def tgtSamples (l : List Byte) : Nat := tgt l 2 1
def tgtDepth (l : List Byte) : Nat := tgt l 3 1
def tgtWidth (l : List Byte) : Nat := tgt l 6 2
def tgtHeight (l : List Byte) : Nat := tgt l 8 2

/-- FMT of target `t`. -/
def tgtFmt (l : List Byte) (t : Nat) : Nat := tgt l (0x0A + t) 1

/-- The bytes of a record that its table row does not name are zero. -/
def recZero (r : List Byte) (named : List Nat) : Bool := (List.range 32).all (fun k => k == 0 || named.contains k || r.getD k 0 == 0)

/-- The bytes from `a` to `b`. -/
def upTo (a b : Nat) : List Nat := (List.range (b + 1 - a)).map (fun i => a + i)

/-- A record other than END is within the ranges of R456. -/
def recOk (l : List Byte) (i : Nat) : Bool :=
  let r := recAt l i
  let f := fun off n => recF l i off n
  match recType l i with
  | 1 => i == 0 && recZero r (upTo 1 4 ++ upTo 6 0x1B) && decide (f 1 1 ≤ 4) && (f 2 1 == 1 || f 2 1 == 4) && decide (f 3 1 ≤ 2) &&
      decide (f 4 1 ≤ 1) && decide (1 ≤ f 6 2 ∧ f 6 2 ≤ 8192) && decide (1 ≤ f 8 2 ∧ f 8 2 ≤ 8192) &&
      (List.range 4).all (fun t => decide (f (0x0A + t) 1 ≤ 3)) && decide (f 0x0E 1 < 2 ^ f 1 1)
  | 2 => recZero r (upTo 4 0x1B) && decide (f 0x0C 1 < 8) && decide (f 0x0D 1 < 64) && nfld (f 0x0D 1) 4 3 != 3 && decide (f 0x0E 1 < 8) &&
      decide (f 0x10 2 < 512) && decide (f 0x14 4 < 2 ^ 27) &&
      [1, 5, 12, 16].all (fun b => decide (nfld (f 0x14 4) (b + 3) b ≤ 11)) && [9, 20].all (fun b => decide (nfld (f 0x14 4) (b + 2) b ≤ 4))
  | 3 => recZero r (upTo 4 0x1B)
  | 4 => recZero r (upTo 4 0x0B)
  | 5 => recZero r (upTo 1 0x13) && decide (f 1 1 ≤ 5) && decide (f 2 1 ≤ 2) && decide (1 ≤ f 0x0C 4)
  | 6 => recZero r [1, 2] && decide (f 1 1 < tgtCount l) && decide (f 2 1 ≤ 5)
  | _ => false

/-- The last record of type `ty` before record `i`. -/
def recLast (l : List Byte) (ty i : Nat) : Option Nat := ((List.range i).reverse).find? (fun k => recType l k == ty)

/-- A record follows the order of R456: TARGET first, and a STATE, VIEWPORT and SCISSOR before the first DRAW. -/
def recOrder (l : List Byte) (i : Nat) : Bool :=
  (i != 0 || recType l i == 1) && (recType l i != 5 || [2, 3, 4].all (fun ty => (recLast l ty i).isSome))

/-! ### Surfaces (R457) -/

/-- Row pitch of a surface. -/
def rowPitch (width fmt : Nat) : Nat := (width * texelBytes fmt + 63) / 64 * 64

/-- The pixels of colour target `t`. -/
def Cmd.target (c : Cmd) (l : List Byte) (t : Nat) : Option Surface :=
  (c.portArg t).map (fun a =>
    { addr := if a.hdr then a.addr + 32 else a.addr, width := tgtWidth l, height := tgtHeight l, fmt := tgtFmt l t
      pitch := rowPitch (tgtWidth l) (tgtFmt l t) })

/-- Bytes of target `t`. -/
def tgtBytes (l : List Byte) (t : Nat) : Nat := rowPitch (tgtWidth l) (tgtFmt l t) * tgtHeight l

/-- Bytes of a surface. -/
def Surface.bytes (x : Surface) : Nat := x.pitch * x.height

/-- The argument entries are those of R457, each port once. -/
def Cmd.drawPortsOk (c : Cmd) (l : List Byte) : Bool :=
  let n := tgtCount l
  let inits := (List.range n).filter (fun t => nbit (tgt l 0x0E 1) t)
  c.args.all (fun a =>
    ((c.args.filter (fun b => b.port == a.port)).length == 1) &&
    (if a.port < 4 then decide (a.port < n) && a.kind == 1 && decide (tgtBytes l a.port ≤ a.data)
     else if 0x10 ≤ a.port ∧ a.port < 0x14 then inits.contains (a.port - 0x10) && a.kind == 0 && decide (tgtBytes l (a.port - 0x10) ≤ a.len)
     else decide (0x20 ≤ a.port ∧ a.port ≤ 0x7F) && a.kind == 0)) &&
  (List.range n).all (fun t => (c.portArg t).isSome) && inits.all (fun t => (c.portArg (0x10 + t)).isSome)

/-- Every input port of a shader plan is bound, with at least its length. -/
def Cmd.shaderBound (c : Cmd) (m : List Byte) : Bool :=
  (imgPorts m).all (fun p => p.kind != 0 || (c.portArg (0x20 + p.port)).any (fun a => decide (p.length ≤ a.len)))

/-- The plans a STATE record names are registered. -/
def Dev.statePlans (d : Dev) (c : Cmd) (l : List Byte) (i : Nat) : Option (Plan × Plan) :=
  match d.plan c.inst (recF l i 4 4), d.plan c.inst (recF l i 8 4) with
  | some v, some p => some (v, p)
  | _, _ => none

/-! ### Tile set and screen tiles (R454, R460, R465) -/

/-- GRAPHICS banks of context `x` on a tile, of the tile's world (R229, R231). -/
def Dev.gfxBanks (d : Dev) (x t : Nat) : List Nat :=
  (List.range 32).filter (fun b => d.bankKind t b == 3 && d.bankId t b == x && d.bankWorld t b == (d.tile t).world)

/-- The tile set of a context of instance `i` (R454). -/
def Dev.ctxTiles (d : Dev) (i x : Nat) : List Nat :=
  let p := d.instPart i
  if bitOf (d.pctrl p) 11 && d.safetyNow != some p then (d.partTiles p).filter (fun t => !(d.gfxBanks x t).isEmpty) else []

/-- Screen tiles across a target, and in all (R460). -/
def tilesAcross (l : List Byte) : Nat := (tgtWidth l + 63) / 64
def screenTiles (l : List Byte) : Nat := tilesAcross l * ((tgtHeight l + 63) / 64)

/-- The footprint of a screen tile (R465). -/
def footprint (l : List Byte) : Nat :=
  4096 * tgtSamples l * ((match tgtDepth l with | 0 => 0 | 1 => 2 | _ => 4) + tgt l 4 1 + ((List.range (tgtCount l)).map (fun t => texelBytes (tgtFmt l t))).sum)

/-- Screen tiles that a compute tile can hold, given the scratchpad its pixel shaders take (R465); without a footprint it holds any number. -/
def Dev.tileHolds (d : Dev) (l : List Byte) (x scratch t : Nat) : Nat :=
  if footprint l = 0 then screenTiles l else ((d.gfxBanks x t).length * 0x20000 - scratch) / footprint l

/-- A tile's access to the banks that hold its screen tiles: admitted, or the fault of it when none is a bank of the context in the tile's world
(R229, R231, R232). -/
def State.withGfx (s : State) (id x t : Nat) (w : DrawSt) (f : Run) : Run :=
  if footprint w.list = 0 ∨ (s.dev.gfxBanks x t) ≠ [] then f
  else (s.accessFault id t (bankAddr t (((List.range 32).find? (fun b => s.dev.bankKind t b == 3 && s.dev.bankId t b == x)).getD 0))).stop

/-- Screen tiles are dealt round-robin, skipping tiles that are full (R465): `n` screen tiles over tiles with what each still holds. -/
def deal : Nat → List (Nat × Nat) → Option (List Nat)
  | 0, _ => some []
  | n + 1, ts =>
    match ts.findIdx? (fun x => decide (0 < x.2)) with
    | none => none
    | some k =>
      let x := ts.getD k (0, 0)
      (deal n (ts.drop (k + 1) ++ ts.take k ++ [(x.1, x.2 - 1)])).map (fun r => x.1 :: r)

/-! ### The start checks (R458) -/

/-- A surface that a pipe holds shares a byte with `n` bytes from `a`, whichever window names it (R45). -/
def Dev.pipeHolds (d : Dev) (a n : Nat) : Bool :=
  d.media.pipes.any (fun p => (p.2.pending.toList ++ p.2.scanned.toList).any (fun s =>
    decide (d.localAddr s.addr < d.localAddr a + n ∧ d.localAddr a < d.localAddr s.addr + s.bytes)))

/-- GFX_CTX_ERR_OFF when no single record failed. -/
def noRecord : Nat := 0xFFFFFFFF

/-- Check 1 of R458: the offset of the record that fails. -/
def Dev.drawCheck1 (d : Dev) (c : Cmd) (l : List Byte) : Option Nat :=
  match recCount l with
  | none => some (match (List.range (l.length / 32)).find? (fun i => !(recOk l i && recOrder l i)) with | some i => 32 * i | none => noRecord)
  | some n =>
    match (List.range n).find? (fun i => !((if recType l i = 0 then recZero (recAt l i) [] else recOk l i) && recOrder l i)) with
    | some i => some (32 * i)
    | none =>
      match (List.range n).find? (fun i => recType l i == 2 && (d.statePlans c l i).isNone) with
      | some i => some (32 * i)
      | none =>
        if !c.drawPortsOk l then some noRecord
        else
          match (List.range n).find? (fun i => recType l i == 2 &&
              !(d.statePlans c l i).any (fun x => c.shaderBound x.1.image && c.shaderBound x.2.image)) with
          | some i => some (32 * i)
          | none => ((List.range n).find? (fun i => recType l i == 5 && recF l i 2 1 != 0 && (c.portArg (recF l i 3 1)).isNone)).map (fun i => 32 * i)

/-- The pixel shaders' scratchpad allocation: the largest of the list's. -/
def Dev.shaderScratch (d : Dev) (c : Cmd) (l : List Byte) : Nat :=
  (((List.range (l.length / 32)).filter (fun i => recType l i == 2)).filterMap (fun i =>
    (d.statePlans c l i).map (fun x => Config.shaderScratch x.2.image))).foldl max 0

/-- The checks of R458: a status with GFX_CTX_ERR_OFF, or the owning tile of each screen tile. -/
def Dev.drawChecks (d : Dev) (c : Cmd) (l : List Byte) : Except (Nat × Nat) (List Nat) :=
  let x := c.at 0x1C 1
  match d.drawCheck1 c l with
  | some o => .error (0x20, o)
  | none =>
    if (d.ctxTiles c.inst x).isEmpty then .error (0x20, noRecord)
    else
      match (List.range ((recCount l).getD 0)).find? (fun i => recType l i == 6 &&
          !(d.effB (Off.GFX_CTX_CTRL x) (16 + recF l i 2 1) && d.b (Off.DISP_CTRL (recF l i 2 1)) 0)) with
      | some i => .error (0x22, 32 * i)
      | none =>
        match deal (screenTiles l) ((d.ctxTiles c.inst x).map (fun t => (t, d.tileHolds l x (d.shaderScratch c l) t))) with
        | none => .error (0x20, noRecord)
        | some ow =>
          if (List.range (tgtCount l)).any (fun t => (c.target l t).any (fun s => d.pipeHolds s.addr s.bytes)) then .error (0x21, noRecord)
          else .ok ow

/-! ### Starting (R455, R458, R468) -/

/-- An earlier DRAW_LIST of the context is in flight (R455). -/
def Dev.ctxBusy (d : Dev) (id x : Nat) : Bool := d.cmds.any (fun y => decide (y.1 < id) && y.2.isDraw && y.2.at 0x1C 1 == x)

/-- KiB of the pools that the running list of a context has in use (R462). -/
def Dev.poolNow (d : Dev) (x : Nat) : Nat :=
  ((d.cmds.filter (fun y => y.2.isDraw && y.2.phase == .running && y.2.at 0x1C 1 == x)).map (fun y =>
    (y.2.draw.binUsed + y.2.draw.extUsed + 1023) / 1024)).sum

/-- `d` with the drawing state of a command changed. -/
def Dev.onDraw (d : Dev) (id : Nat) (g : DrawSt → DrawSt) : Dev := d.onCmd id (fun c => { c with draw := g c.draw })

/-- STATE of a context: 0 IDLE, 1 BINNING, 2 SHADING, 3 PARTIAL, 4 STORING. -/
def Dev.ctxState (d : Dev) (x k : Nat) : Dev := d.setF (Off.GFX_CTX_STATUS x) 2 0 k

/-- The first record of type DRAW or END from `i` on. -/
def nextDraw (l : List Byte) (i : Nat) : Nat :=
  ((List.range (l.length / 32)).find? (fun k => decide (i ≤ k) && (recType l k == 5 || recType l k == 0))).getD (l.length / 32)

/-- The clear value of depth as its format holds it. -/
def depthClearOf (l : List Byte) (free : Nat) : Nat :=
  if tgtDepth l = 1 then unormFree 16 (fp32.value (tgt l 0x10 4)) free else tgt l 0x10 4

/-- The clear value of target `t` as its format holds it. -/
def colourClearOf (l : List Byte) (t free : Nat) : Nat :=
  texelOf (tgtFmt l t) ((List.range 4).map (fun k => chanEncode (tgtFmt l t) k (fp16.value (tgt l (0x14 + 2 * k) 2)) (free / 2 ^ k)))

/-- The initial contents of the targets, read with the owner's world; none when a read is refused. -/
def State.readInits (s : State) (c : Cmd) (l : List Byte) : Nat → Option (List (List Byte)) × State
  | 0 => (some [], s)
  | t + 1 =>
    match s.readInits c l t with
    | (none, u) => (none, u)
    | (some r, u) =>
      if nbit (tgt l 0x0E 1) t then
        match u.readAs (.qe c.inst) ((c.portArg (0x10 + t)).elim 0 (fun a => a.addr)) (tgtBytes l t) with
        | (none, v) => (none, v)
        | (some bs, v) => (some (r ++ [bs]), v)
      else (some (r ++ [[]]), u)

/-- The GRAPHICS banks of a context are scrubbed when a list of it ended without commit (R468). -/
def State.scrubCtx (s : State) (i x : Nat) : State :=
  if x ∈ s.dev.media.dirty then
    (s.forAll (s.dev.ctxTiles i x) (fun t u => u.forAll (u.dev.gfxBanks x t) (fun b v => v.scrub t b))).onDev
      (fun d => d.onMedia (fun m => { m with dirty := m.dirty.filter (fun y => y != x) }))
  else s

/-- The front end begins a list that has passed its checks. -/
def State.beginDraw (s : State) (id : Nat) (c : Cmd) (l : List Byte) (ow : List Nat) : State :=
  let x := c.at 0x1C 1
  match (s.scrubCtx c.inst x).readInits c l (tgtCount l) with
  | (none, t) => (t.finish id 0x22 0).admitAll
  | (some ini, t) =>
    t.onDev (fun d =>
      let f := d.freeNat
      let clears := (List.range (tgtCount l)).map (fun k => colourClearOf l k (f.1 / 2 ^ (1 + 4 * k)))
      let e := f.2.onCmd id (fun y => { y with
        phase := .running, startNs := d.nsField, startOver := d.over % 2 ^ 32, startAt := d.now
        draw := { DrawSt.start with list := l, next := nextDraw l 0, owner := ow, depthClear := depthClearOf l f.1, clear := clears, init := ini } })
      ((e.setB Off.GFX_STATUS x true).ctxState x 1).setF (Off.GFX_CTX_STATUS x) 31 16 (screenTiles l))

/-- A DRAW_LIST starts when no earlier one of its context is in flight (R455, R458). -/
def State.startDraw (s : State) (id : Nat) (c : Cmd) : State :=
  let x := c.at 0x1C 1
  if s.dev.ctxBusy id x || !s.dev.domOn 29 then s
  else match s.readAs (.qe c.inst) (c.at 0x10 8) (c.at 0x18 4) with
    | (none, t) => (t.finish id 0x22 0).admitAll
    | (some l, t) =>
      match t.dev.drawChecks c l with
      | .error (st, off) =>
        ((t.onDev (fun d => (d.wn (Off.GFX_CTX_ERR_OFF x) off).setB Off.GFX_EVENTS 2 true)).finish id st 0).admitAll
      | .ok ow => t.beginDraw id c l ow

/-! ### Binning (R459 to R463) -/

/-- Bytes of a context's bin pool and extension pool. -/
def Dev.binBytes (d : Dev) (x : Nat) : Nat := d.effF (Off.GFX_BIN_MIB x) 11 0 * 2 ^ 20
def Dev.extBytes (d : Dev) (x : Nat) : Nat := d.effF (Off.GFX_EXT_MIB x) 11 0 * 2 ^ 20

/-- Space in the bin pool, else in the extension pool (R463); and whether it came from the latter. -/
def Dev.poolTake (d : Dev) (x n : Nat) (w : DrawSt) : Option (DrawSt × Bool) :=
  if w.binUsed + n ≤ d.binBytes x then some ({ w with binUsed := w.binUsed + n }, false)
  else if w.extUsed + n ≤ d.extBytes x then some ({ w with extUsed := w.extUsed + n, usedExt := true }, true)
  else none

/-- Several chunks of 256 bytes. -/
def Dev.poolChunks (d : Dev) (x : Nat) : Nat → DrawSt → Option DrawSt
  | 0, w => some w
  | n + 1, w => (d.poolTake x 256 w).bind (fun y => d.poolChunks x n y.1)

/-- The drawing state after an allocation: peak use, and the first use of the extension pool by the command (R462, R463). -/
def Dev.poolDone (d : Dev) (id x : Nat) (old new : DrawSt) : Dev :=
  let kib := min ((new.binUsed + new.extUsed + 1023) / 1024) (2 ^ 32 - 1)
  let e := (d.onDraw id (fun _ => new)).wn (Off.GFX_POOL_PEAK x) (max kib (d.n (Off.GFX_POOL_PEAK x)))
  e.when (new.usedExt && !old.usedExt) (fun f => (f.incSat (Off.GFX_CNT_EXT x)).setB Off.GFX_EVENTS 0 true)

/-- Both pools are exhausted: a partial render begins (R463). -/
def Dev.poolFull (d : Dev) (id x : Nat) : Dev := (d.onDraw id (fun w => { w with full := true })).ctxState x 3

/-- The front end is binning a DRAW record. -/
def DrawSt.bins (w : DrawSt) : Bool := !w.full && recType w.list w.next == 5

/-- A vertex batch of the DRAW record is shaded into the pool (R459). -/
def State.drawBatch (s : State) (id x vertices varyings : Nat) (w : DrawSt) : Run :=
  if w.bins && decide (1 ≤ vertices ∧ vertices ≤ 1024 ∧ varyings ≤ 32) then
    let n := vertices * ((16 + 4 * varyings + 15) / 16 * 16)
    match s.dev.poolTake x n w with
    | none => (s.onDev (fun d => d.poolFull id x)).stop
    | some (v, ext) => (s.onDev (fun d => d.poolDone id x w { v with batch := (n, ext) })).go
  else s.stop

/-- The pixel lies in the scissor rectangle in force at record `i` and in the target. -/
def inScissor (l : List Byte) (i x y : Nat) : Bool :=
  decide (x < tgtWidth l ∧ y < tgtHeight l) &&
    (recLast l 4 i).all (fun k => decide (recF l k 4 2 ≤ x ∧ x < recF l k 4 2 + recF l k 8 2 ∧ recF l k 6 2 ≤ y ∧ y < recF l k 6 2 + recF l k 0x0A 2))

/-- A triangle covers sample `k` of a pixel; points and lines are as their report says. -/
def primCovers (l : List Byte) (pts : List (Int × Int)) (x y k : Nat) : Bool :=
  match pts with
  | [a, b, c] => covers a b c (samplePos (tgtSamples l) x y k)
  | _ => true

/-- The primitive covers a sample of the pixel. -/
def pixelCovered (l : List Byte) (i : Nat) (pts : List (Int × Int)) (x y : Nat) : Bool :=
  inScissor l i x y && (List.range (tgtSamples l)).any (fun k => primCovers l pts x y k)

/-- The triangle is culled by the STATE in force (R456, R459): in a target, whose rows run downwards, a triangle of positive area is clockwise. -/
def culled (l : List Byte) (i : Nat) (pts : List (Int × Int)) : Bool :=
  match pts with
  | [a, b, c] =>
    let f := (recLast l 2 i).elim 0 (fun k => recF l k 0x0D 1)
    let front := decide (0 < edgeArea a b c) == nbit f 5
    (nfld f 4 3 == 1 && front) || (nfld f 4 3 == 2 && !front)
  | _ => false

/-- The screen tiles in which a triangle covers a sample (R460). -/
def trianglesTiles (l : List Byte) (i : Nat) (pts : List (Int × Int)) : List Nat :=
  (List.range (screenTiles l)).filter (fun st =>
    (List.range 64).any (fun dy => (List.range 64).any (fun dx =>
      pixelCovered l i pts (st % tilesAcross l * 64 + dx) (st / tilesAcross l * 64 + dy))))

/-- A primitive is binned: entered in the list of each screen tile it covers, or discarded; its entries all go when a chunk does not fit (R460, R463). -/
def State.drawPrim (s : State) (id x : Nat) (pts : List (Int × Int)) (cov : List Nat) (w : DrawSt) : Run :=
  if w.bins && decide (1 ≤ pts.length ∧ pts.length ≤ 3) then
    let ts := if culled w.list w.next pts then [] else if pts.length = 3 then trianglesTiles w.list w.next pts
      else (List.range (screenTiles w.list)).filter (fun t => cov.contains t)
    if ts = [] then s.go
    else
      let fresh := (ts.filter (fun t => KMap.getD w.entries t 0 % 31 == 0)).length
      match s.dev.poolChunks x fresh w with
      | none => (s.onDev (fun d => d.poolFull id x)).stop
      | some v =>
        (s.onDev (fun d => d.poolDone id x w { v with
          seq := v.seq + 1, prims := v.prims ++ [{ seq := v.seq, record := v.next, pts := pts, tiles := ts }]
          entries := ts.foldl (fun m t => KMap.upd m t 0 (fun n => n + 1)) v.entries })).go
  else s.stop

/-- The DRAW record is done: the front end goes to the next; after the last it shades. -/
def State.drawNext (s : State) (id x : Nat) (w : DrawSt) : Run :=
  if w.bins then
    let k := nextDraw w.list (w.next + 1)
    (s.onDev (fun d => (d.onDraw id (fun y => { y with next := k })).when (recType w.list k == 0) (fun e => e.ctxState x 2))).go
  else s.stop

/-! ### Jobs (R466 to R472) -/

/-- The primitives that a screen tile's list still holds, in sequence order. -/
def DrawSt.todo (w : DrawSt) (st : Nat) : List Prim := (w.prims.filter (fun p => p.tiles.contains st)).drop (KMap.getD w.passed st 0)

/-- The list is in a shading phase: a partial render, or after its last DRAW record. -/
def DrawSt.shading (w : DrawSt) : Bool := w.full || recType w.list w.next == 0

/-- The first screen tile, in raster order, for which a compute tile has a job to take. -/
def DrawSt.wants (w : DrawSt) (t : Nat) : Option Nat :=
  if w.shading && (KMap.find w.jobs t).isNone then
    (List.range w.owner.length).find? (fun st => w.owner.getD st 64 == t && !(w.todo st).isEmpty)
  else none

/-- The rank of a context's jobs: COMPOSITOR first, then PRIO from 3, then its number; lower comes first (R470). -/
def Dev.ctxRank (d : Dev) (x : Nat) : Nat :=
  (if d.effB (Off.GFX_CTX_CTRL x) 3 then 0 else 1024 * (4 - d.effF (Off.GFX_CTX_CTRL x) 2 1)) + x

/-- An admitted command of the tile's stream could start now (R470). -/
def Dev.commandDue (d : Dev) (t : Nat) : Bool :=
  let p := d.tilePart t
  d.mayBegin p && d.cmds.any (fun y => y.2.isRun && y.2.phase == .admitted && y.2.load.isNone && d.instPart y.2.inst == p &&
    (y.2.tiles ++ y.2.tilesB).contains t && d.headOf p y.2.stream y.1)

/-- An admitted command of the tile's stream, at the head of it, is due within `n` ns: its window is open by then, and its load ends (R472). -/
def Dev.dueWithin (d : Dev) (t n : Nat) : Bool :=
  let p := d.tilePart t
  d.partRuns p && !(d.part p).resetting && decide (d.nextOpen p ≤ d.now + n) &&
    d.cmds.any (fun y => y.2.isRun && y.2.phase == .admitted && y.2.load.all (fun l => decide (d.loadLeft p l ≤ n)) && d.instPart y.2.inst == p &&
      (y.2.tiles ++ y.2.tilesB).contains t && d.headOf p y.2.stream y.1)

/-- GFX_CTX_JOB[x].JOB_US in ns. -/
def Dev.jobNs (d : Dev) (x : Nat) : Nat := d.effF (Off.GFX_CTX_JOB x) 9 0 * 1000

/-- A context of higher rank has a job for the tile. -/
def Dev.jobOutranked (d : Dev) (id x t : Nat) : Bool :=
  d.cmds.any (fun y => y.1 != id && y.2.isDraw && y.2.phase == .running && decide (d.ctxRank (y.2.at 0x1C 1) < d.ctxRank x) && (y.2.draw.wants t).isSome)

/-- A job starts: its tile is free, no command is due on it within JOB_US, and no job of higher rank waits for it (R470, R472). -/
def State.drawJob (s : State) (id x st : Nat) (w : DrawSt) : Run :=
  let t := w.owner.getD st 64
  let d := s.dev
  if w.wants t = some st ∧ (d.tile t).cmd = none ∧ d.tileState t = 1 ∧ d.commandDue t = false ∧ d.dueWithin t (d.jobNs x) = false ∧ d.jobOutranked id x t = false then
    (s.onDev (fun e => ((((e.onTile t (fun y => { y with cmd := some id })).setF (Off.TILE_STATUS t) 2 0 2).setF (Off.TILE_STATUS t) 15 8 x).setB
      (Off.TILE_STATUS t) 16 true).onDraw id (fun v => { v with jobs := KMap.put v.jobs t st, since := KMap.put v.since t d.now }))).go
  else s.stop

/-- A sample that nothing has drawn on. -/
def DrawSt.initial (w : DrawSt) (x y : Nat) : Sample :=
  { depth := w.depthClear, stencil := tgt w.list 0x0F 1
    colours := (List.range (tgtCount w.list)).map (fun t =>
      let f := tgtFmt w.list t
      if nbit (tgt w.list 0x0E 1) t then leAt (w.init.getD t []) (y * rowPitch (tgtWidth w.list) f + x * texelBytes f) (texelBytes f)
      else w.clear.getD t 0) }

/-- The key of a sample. -/
def sampleKey (x y k : Nat) : Nat := (y * 8192 + x) * 4 + k

/-- A sample as it stands. -/
def DrawSt.sample (w : DrawSt) (x y k : Nat) : Sample := (KMap.find w.px (sampleKey x y k)).getD (w.initial x y)

/-- A fragment applied to one sample: stencil, depth, then blending (R158, R159, R456). -/
def fragSample (l : List Byte) (st : Nat) (f : Frag) (k : Nat) (p : Sample) (free : Nat) : Sample :=
  let flags := recF l st 0x0D 1
  let ref := recF l st 0x0F 1
  let rm := recF l st 0x12 1
  let wm := recF l st 0x13 1
  let ops := recF l st 0x10 2
  let z := f.depths.getD k 0
  let stOn := nbit flags 2 && tgt l 4 1 == 1
  let stOk := !stOn || compareFn (recF l st 0x0E 1) (decide (Nat.land ref rm < Nat.land p.stencil rm)) (Nat.land ref rm == Nat.land p.stencil rm)
  let zOk := !nbit flags 0 || tgtDepth l == 0 || depthPasses (recF l st 0x0C 1) (tgtDepth l) z p.depth
  let op := if !stOk then nfld ops 2 0 else if !zOk then nfld ops 5 3 else nfld ops 8 6
  let q := if stOn then { p with stencil := maskInto wm p.stencil (stencilOp op ref p.stencil) } else p
  if stOk && zOk then
    { q with
      depth := if nbit flags 1 then z else q.depth
      colours := (List.range (tgtCount l)).map (fun t =>
        blendTexel (tgtFmt l t) (recF l st 0x14 4) (recF l st 0x18 4) (q.colours.getD t 0) (f.colours.getD t []) (free / 2 ^ (8 * t))) }
  else q

/-- A fragment applied to the samples its primitive covers. -/
def DrawSt.applyFrag (w : DrawSt) (p : Prim) (st : Nat) (f : Frag) (free : Nat → Nat) : DrawSt :=
  if f.discard || !(inScissor w.list p.record f.x f.y && f.x / 64 + f.y / 64 * tilesAcross w.list == st) then w
  else
    let state := (recLast w.list 2 p.record).getD 0
    { w with px := (List.range (tgtSamples w.list)).foldl (fun m k =>
        if primCovers w.list p.pts f.x f.y k then
          KMap.put m (sampleKey f.x f.y k) (fragSample w.list state f k ({ w with px := m }.sample f.x f.y k) (free k)) else m) w.px }

/-- The job stands at a boundary between primitives of different DRAW records, or at its end (R469). -/
def DrawSt.boundary (w : DrawSt) (st : Nat) : Bool :=
  match w.todo st with
  | [] => true
  | p :: _ =>
    match ((w.prims.filter (fun y => y.tiles.contains st)).take (KMap.getD w.passed st 0)).getLast? with
    | none => true
    | some q => q.record != p.record

/-- A running job must yield: it stands at a boundary, and a command is due on its tile or a job of higher rank waits for it (R470). -/
def Dev.mustYield (d : Dev) (id x st : Nat) (w : DrawSt) : Bool :=
  let t := w.owner.getD st 64
  w.boundary st && (d.commandDue t || d.jobOutranked id x t)

/-- The next primitive of a job's screen tile is applied, in sequence order, unless the job must yield (R464, R467, R470). -/
def State.drawShade (s : State) (id x st : Nat) (frags : List Frag) (w : DrawSt) : Run :=
  if w.jobs.any (fun j => j.2 == st) && !s.dev.mustYield id x st w then
    match w.todo st with
    | [] => s.stop
    | p :: _ =>
      let base := s.dev.fresh
      let v := ((List.range frags.length).zip frags).foldl (fun u f =>
        u.applyFrag p st f.2 (fun k => (Config.freeWord64 (base + 4 * f.1 + k)).toNat)) w
      (s.onDev (fun d => { (d.onDraw id (fun _ => { v with passed := KMap.upd v.passed st 0 (fun n => n + 1) })) with
        fresh := base + 4 * frags.length })).go
  else s.stop

/-- A job yields or ends at a boundary: its tile is free, and its state stays in the banks; one that has run past a boundary after JOB_US is
late (R469, R472). -/
def State.drawYield (s : State) (id x st : Nat) (late : Bool) (w : DrawSt) : Run :=
  match w.jobs.find? (fun j => j.2 == st) with
  | none => s.stop
  | some j =>
    if w.boundary st then
      (s.onDev (fun d =>
        let e := ((d.tileClear j.1).tileFree j.1).onDraw id (fun v => { v with jobs := KMap.del v.jobs j.1, since := KMap.del v.since j.1 })
        e.when (late && decide (KMap.getD w.since j.1 0 + d.jobNs x ≤ d.now)) (fun f => (f.incSat (Off.GFX_CNT_LATE_YIELD x)).setB Off.GFX_EVENTS 3 true))).go
    else s.stop

/-- Every listed primitive has been applied and no job runs. -/
def DrawSt.allShaded (w : DrawSt) : Bool :=
  w.jobs.isEmpty && (List.range w.owner.length).all (fun st => (w.todo st).isEmpty)

/-- A partial render ends: lists and batches but the current one are freed, and binning resumes (R463). -/
def State.drawPartial (s : State) (id x : Nat) (w : DrawSt) : Run :=
  if w.full && w.allShaded then
    (s.onDev (fun d => (((d.onDraw id (fun v => { v with
      prims := [], passed := [], entries := [], full := false, binUsed := if v.batch.2 then 0 else v.batch.1
      extUsed := if v.batch.2 then v.batch.1 else 0 })).incSat (Off.GFX_CNT_PARTIAL x)).setB Off.GFX_EVENTS 1 true).ctxState x 1)).go
  else s.stop

/-! ### The final store (R466) -/

/-- The texel stored for a pixel of target `t`. -/
def DrawSt.texel (w : DrawSt) (t x y free : Nat) : Nat :=
  let of := fun k => (w.sample x y k).colours.getD t 0
  if tgtSamples w.list = 1 then of 0
  else resolveTexel (tgtFmt w.list t) free (Config.freeWord64 free).toNat ((List.range 4).map of)

/-- The bytes of one row of a screen tile in target `t`. -/
def DrawSt.rowBytes (w : DrawSt) (t st dy free : Nat) : List Byte :=
  let x0 := st % tilesAcross w.list * 64
  (List.range (min 64 (tgtWidth w.list - x0))).flatMap (fun dx =>
    leBytes (texelBytes (tgtFmt w.list t)) (w.texel t (x0 + dx) (st / tilesAcross w.list * 64 + dy) (free + 4 * dx)))

/-- Rows of one screen tile in one target are written by its owning tile; false when a write is refused, which faults. -/
def State.storeRows (s : State) (id t st : Nat) (surf : Surface) (w : DrawSt) : List Nat → Run
  | [] => s.go
  | dy :: rest =>
    let y := st / tilesAcross w.list * 64 + dy
    let a := surf.addr + y * surf.pitch + st % tilesAcross w.list * 64 * texelBytes surf.fmt
    match s.storeAs (.tile (w.owner.getD st 64)) a (w.rowBytes t st dy s.dev.fresh) with
    | (false, u) => (u.accessFault id (w.owner.getD st 64) a).stop
    | (true, u) => (u.onDev (fun d => { d with fresh := d.fresh + 256 })).storeRows id t st surf w rest

/-- A screen tile is written to every target. -/
def State.storeTargets (s : State) (id st : Nat) (c : Cmd) (w : DrawSt) : Nat → Run
  | 0 => s.go
  | t + 1 =>
    let r := s.storeTargets id st c w t
    match r.2, c.target w.list t with
    | true, some surf => r.1.storeRows id t st surf w (List.range (min 64 (tgtHeight w.list - st / tilesAcross w.list * 64)))
    | _, _ => r

/-- The store engine writes a screen tile; with the last one, execution has ended (R466). -/
def State.drawStore (s : State) (id x st : Nat) (c : Cmd) (w : DrawSt) : Run :=
  if recType w.list w.next == 0 && w.allShaded && decide (st < w.owner.length) && !w.stored.contains st then
    let r := s.storeTargets id st c w (tgtCount w.list)
    if r.2 then
      (r.1.onDev (fun d => ((d.onDraw id (fun v => { v with stored := st :: v.stored })).ctxState x 4).when
        (decide (w.owner.length ≤ w.stored.length + 1)) (fun e => e.setPhase id .ended))).go
    else r
  else s.stop

/-! ### The row -/

/-- One operation of a running DRAW_LIST. -/
def State.drawOp (s : State) (id : Nat) (c : Cmd) (o : DrawOp) : Run :=
  let x := c.at 0x1C 1
  let w := c.draw
  match o with
  | .batch n v => s.drawBatch id x n v w
  | .prim pts cov => s.drawPrim id x pts cov w
  | .drawDone => s.drawNext id x w
  | .job st => s.drawJob id x st w
  | .shade st frags => s.withGfx id x (w.owner.getD st 64) w (s.drawShade id x st frags w)
  | .yield st late => s.drawYield id x st late w
  | .partialDone => s.drawPartial id x w
  | .store st => s.withGfx id x (w.owner.getD st 64) w (s.drawStore id x st c w)
  | .eccInput a e =>
    let t := s.onDev (fun d => d.memEcc a e)
    if e = .uncorrectable then (t.inputEnd id 0x32).stop else t.go
  | .eccScratch t off e => s.opEccScratch id t off e
  | .eccTile t fatal => s.onTileCmd id t (s.opEccTile id t fatal)
  | .cycles t busy wait => s.onTileCmd id t (s.opCycles t busy wait)
  | .retransmit t n => s.onTileCmd id t (s.opRetransmit t n)

/-- The operations in order. -/
def State.drawOps (s : State) (id : Nat) : List DrawOp → State
  | [] => s
  | o :: rest =>
    match s.dev.cmd id with
    | none => s
    | some c =>
      if c.phase = .running then
        let r := s.drawOp id c o
        if r.2 then r.1.drawOps id rest else r.1
      else s

/-- DRAW_LIST (R458 to R472): the front end and the tiles of the running list do what comes next. -/
def execDrawList (id : Nat) (ops : List DrawOp) (s : State) : Host.Outcome State Fault Refusal :=
  .next (match s.dev.cmd id with
    | none => s
    | some c => if c.isDraw ∧ c.phase = .running then s.drawOps id ops else s)

end Sys2Proof.Machine
end

