-- ==== Sys2Proof/Machine/Flows.lean ====
section
/-! DEFINITION. Machine/Flows.lean: the gateway's tables and their loads, flows, meters, check values, egress queues and receive rings (R495 to R512, R517, R518, R530, R531). -/

namespace Sys2Proof.Machine

/-- `d` with the gateway changed. -/
def Dev.onGw (d : Dev) (g : Gateway → Gateway) : Dev := { d with gw := g d.gw }

/-- Flow `f`, when it is live. -/
def Dev.flow (d : Dev) (f : Nat) : Option Flow := KMap.find d.gw.flows f

/-- `d` with a live flow changed. -/
def Dev.onFlow (d : Dev) (f : Nat) (g : Flow → Flow) : Dev :=
  match d.flow f with
  | none => d
  | some x => d.onGw (fun w => { w with flows := KMap.put w.flows f (g x) })

/-! ### Fields of a flow context (R502) -/

/-- A number in the entry. -/
def Flow.at (x : Flow) (off n : Nat) : Nat := leAt x.raw off n
/-- KIND. -/
def Flow.kind (x : Flow) : Nat := x.at 0 1
/-- A bit of FFLAGS. -/
def Flow.flag (x : Flow) (b : Nat) : Bool := nbit (x.at 1 1) b
/-- The traffic class. -/
def Flow.tc (x : Flow) : Nat := x.at 3 1 % 8
/-- The receive ring for ports 14 to 16. -/
def Flow.ring (x : Flow) : Nat := x.at 3 1 / 16
/-- EGRESS. -/
def Flow.egress (x : Flow) : List Nat := (List.range 18).filter (fun p => nbit (x.at 0x0C 4) p)
/-- VID. -/
def Flow.vid (x : Flow) : Nat := x.at 0x0A 2 % 4096

/-- The key of a FORWARD flow. -/
def flowKey (raw : List Byte) : Bool × Nat × List Byte × Nat := (nbit (leAt raw 1 1) 0, leAt raw 2 1, slice raw 4 6, leAt raw 0x0A 2)

/-- A port that the variant has (R495). -/
def Dev.portThere (d : Dev) (p : Nat) : Bool := decide (p < 18) && (d.ioDies == 2 || !(decide (6 ≤ p ∧ p ≤ 11)))

/-- Every byte is zero. -/
def zeroAt (b : List Byte) (off n : Nat) : Bool := (slice b off n).all (fun x => x == 0)

/-- A flow context passes its checks (R501, R502). -/
def Dev.flowOk (d : Dev) (n : Nat) (b : List Byte) : Bool :=
  let k := leAt b 0 1
  let ing := leAt b 2 1
  let within := fun (o w lo hi : Nat) => decide (lo ≤ leAt b o w ∧ leAt b o w ≤ hi)
  k == 0 ||
    (decide (k ≤ 2) && decide (leAt b 1 1 < 128) && (if k = 1 then decide (ing ≤ 13) || ing == 0xFF else ing == 0) &&
      within 0x0A 2 1 4094 && decide (leAt b 0x0C 4 < 2 ^ 18) && (leAt b 0x10 2 == 0 || within 0x10 2 64 9280) &&
      (decide (leAt b 0x12 1 ≤ 63) || leAt b 0x12 1 == 0xFF) && decide (leAt b 0x13 1 % 8 ≤ 4) && !nbit (leAt b 0x13 1) 7 &&
      within 0x24 2 12 64 && within 0x26 1 1 32 && within 0x27 1 1 255 && (decide (leAt b 0x30 2 ≤ 255) || leAt b 0x30 2 == 0xFFFF) && zeroAt b 0x32 14 &&
      (k != 1 || ((List.range 18).all (fun p => !nbit (leAt b 0x0C 4) p || d.portThere p) &&
        !d.gw.flows.any (fun y => y.1 != n && y.2.kind == 1 && flowKey y.2.raw == flowKey b))))

/-- A flow just loaded: its buckets are full, recovery takes any number. -/
def newFlow (d : Dev) (b : List Byte) : Flow :=
  { raw := b, seq := leAt b 0x2C 4, cBucket := leAt b 0x18 4 * 8000000, eBucket := leAt b 0x20 4 * 8000000, filledAt := d.now, genSeq := 0
    recSeq := 0, recHist := 0, takeAny := true, lastAt := d.now, counts := [0, 0, 0, 0], changed := false }

/-- One flow context is loaded; its counters go on (R501, R507). -/
def Dev.loadFlow (d : Dev) (n : Nat) (b : List Byte) : Dev :=
  d.onGw (fun w => { w with flows := if leAt b 0 1 = 0 then KMap.del w.flows n else KMap.put w.flows n { newFlow d b with counts := ((d.flow n).map (fun x => x.counts)).getD [0, 0, 0, 0] } })

/-! ### Gate control lists (R509) -/

/-- A list that nothing was loaded into. -/
def GclSt.empty : GclSt := { raw := [], cur := none, entry := 1, startAt := 0 }

/-- List `l`. -/
def Dev.gcl (d : Dev) (l : Nat) : GclSt := KMap.getD d.gw.lists l GclSt.empty

/-- `d` with list `l` changed. -/
def Dev.onGcl (d : Dev) (l : Nat) (g : GclSt → GclSt) : Dev := d.onGw (fun w => { w with lists := KMap.put w.lists l (g (d.gcl l)) })

/-- An entry of a list is as R509 gives it: the header, or an entry that the header's COUNT takes in. -/
def gclEntryOk (i : Nat) (b : List Byte) : Bool :=
  if i = 0 then decide (1 ≤ leAt b 0 1 ∧ leAt b 1 1 ≤ 4) && zeroAt b 2 6 else zeroAt b 1 3 && decide (64 ≤ leAt b 4 4)

/-- Entries that the list's header takes in; none without a header. -/
def GclSt.count (x : GclSt) : Nat := ((KMap.find x.raw 0).map (fun h => leAt h 0 1)).getD 0

/-- Entry `n` of the lists passes its checks: entries beyond the list's COUNT are not used and have none. -/
def Dev.gclOk (d : Dev) (n : Nat) (b : List Byte) : Bool := decide ((d.gcl (n / 256)).count < n % 256) || gclEntryOk (n % 256) b

/-- The list that the loaded entries give; none when it is absent. -/
def GclSt.parsed (x : GclSt) : Option GList :=
  match KMap.find x.raw 0 with
  | none => none
  | some h =>
    let es := (List.range x.count).filterMap (fun i =>
      (KMap.find x.raw (i + 1)).bind (fun b => if gclEntryOk (i + 1) b then some (leAt b 0 1, leAt b 4 4) else none))
    if es.length = x.count then some { cycle := leAt h 1 1, entries := es } else none

/-- One entry is loaded; one that fails makes its list absent until it is loaded well. -/
def Dev.loadGcl (d : Dev) (n : Nat) (b : List Byte) (ok : Bool) : Dev :=
  d.onGcl (n / 256) (fun x => { x with raw := if ok then KMap.put x.raw (n % 256) b else KMap.del x.raw (n % 256) })

/-! ### PDUs and routes (R517, R518) -/

/-- A live PDU. -/
def Dev.pdu (d : Dev) (n : Nat) : Option Pdu := KMap.find d.gw.pdus n

/-- `d` with a live PDU changed. -/
def Dev.onPdu (d : Dev) (n : Nat) (g : Pdu → Pdu) : Dev :=
  match d.pdu n with
  | none => d
  | some x => d.onGw (fun w => { w with pdus := KMap.put w.pdus n (g x) })

/-- A number in the entry. -/
def Pdu.at (x : Pdu) (off n : Nat) : Nat := leAt x.raw off n
/-- MEDIUM: 1 CAN, 2 LIN, 3 ETH. -/
def Pdu.medium (x : Pdu) : Nat := x.at 0 1
/-- A bit of PFLAGS. -/
def Pdu.flag (x : Pdu) (b : Nat) : Bool := nbit (x.at 1 1) b
/-- A TX PDU. -/
def Pdu.isTx (x : Pdu) : Bool := x.flag 0
/-- LENGTH. -/
def Pdu.length (x : Pdu) : Nat := x.at 2 1
/-- CHANNEL. -/
def Pdu.channel (x : Pdu) : Nat := x.at 4 2
/-- ID. -/
def Pdu.id (x : Pdu) : Nat := x.at 8 4
/-- PERIOD_US. -/
def Pdu.period (x : Pdu) : Nat := x.at 0x0C 4

/-- FD payload sizes. -/
def fdSize (n : Nat) : Bool := decide (n ≤ 8) || [12, 16, 20, 24, 32, 48, 64].contains n

/-- LENGTH and ID fit the medium. -/
def pduForm (b : List Byte) : Bool :=
  let fl := leAt b 1 1
  let len := leAt b 2 1
  let id := leAt b 8 4
  match leAt b 0 1 with
  | 1 => decide (leAt b 4 2 < 12) && (if nbit fl 5 then decide (1 ≤ len ∧ len ≤ 8 ∧ id < 2048) else
      (if nbit fl 3 then fdSize len else decide (len ≤ 8)) && decide (id / 2 ^ 29 % 4 = 0) && (nbit id 31 || decide (id < 2048)))
  | 2 => decide (leAt b 4 2 < 8 ∧ 1 ≤ len ∧ len ≤ 8 ∧ id ≤ 61)
  | 3 => decide (1 ≤ len ∧ len ≤ 64)
  | _ => false

/-- A PDU entry passes its checks (R517). -/
def Dev.pduOk (d : Dev) (n : Nat) (b : List Byte) : Bool :=
  let tx := nbit (leAt b 1 1) 0
  let period := leAt b 0x0C 4
  let flow := d.flow (leAt b 4 2)
  leAt b 0 1 == 0 ||
    (decide (leAt b 1 1 < 64) && leAt b 3 1 == 0 && zeroAt b 0x16 10 && pduForm b && (!nbit (leAt b 1 1) 1 || decide (2 ≤ leAt b 2 1)) &&
      (if tx then (period != 0 || nbit (leAt b 1 1) 2) && (period == 0 || decide (leAt b 0x10 4 < period)) else
        decide (leAt b 6 2 + leAt b 0x14 2 ≤ 16384) &&
        !d.gw.pdus.any (fun y => y.1 != n && !y.2.isTx && slice y.2.raw 0 1 == slice b 0 1 && slice y.2.raw 4 2 == slice b 4 2 && slice y.2.raw 8 4 == slice b 8 4)) &&
      (leAt b 0 1 != 3 || (if tx then flow.any (fun f => f.kind == 2) else flow.any (fun f => f.kind == 1 && f.egress.contains 17))))

/-- Microseconds of hardware time. -/
def Dev.hwUs (d : Dev) : Int := d.hwNs / 1000

/-- The number of the last period instant of a PDU up to now: those of a TX PDU come at OFFSET_US in its period, those at which a LIN RX PDU is
asked for at no offset (R515, R520; DESIGN CHOICE, log 66). -/
def Dev.pduInstant (d : Dev) (raw : List Byte) : Int :=
  let p := leAt raw 0x0C 4
  if p = 0 then 0 else (d.hwUs - (if nbit (leAt raw 1 1) 0 then leAt raw 0x10 4 else 0 : Nat)) / (p : Int)

/-- One PDU is loaded: its buffer starts as zero bytes (R519). -/
def Dev.loadPdu (d : Dev) (n : Nat) (b : List Byte) : Dev :=
  d.onGw (fun w => { w with pdus := if leAt b 0 1 = 0 then KMap.del w.pdus n else KMap.put w.pdus n { raw := b, buf := zeros (leAt b 2 1), queued := false, lastCtr := none, lastAt := d.now, timedOut := false, alive := 0, dueAt := d.pduInstant b } })

/-- Bits of a PDU that its fields may use: with E2E, not the last two bytes (R518). -/
def Pdu.bits (x : Pdu) : Nat := 8 * (if x.flag 1 then x.length - 2 else x.length)

/-- A route entry passes its checks (R518): its fields lie within its TX PDU and within every live RX PDU that takes the route. -/
def Dev.routeOk (d : Dev) (n : Nat) (b : List Byte) : Bool :=
  let bits := leAt b 6 1
  decide (leAt b 0 2 < 4096 ∧ 1 ≤ bits ∧ bits ≤ 32 ∧ leAt b 7 1 < 2) && zeroAt b 0x0C 4 &&
    (d.pdu (leAt b 0 2)).any (fun x => x.isTx && decide (leAt b 4 2 + bits ≤ x.bits)) &&
    d.gw.pdus.all (fun y => y.2.isTx || decide (n < y.2.at 6 2 ∨ y.2.at 6 2 + y.2.at 0x14 2 ≤ n ∨ leAt b 2 2 + bits ≤ y.2.bits))

/-! ### MACsec SAs (R511, R512) -/

/-- A number in the entry. -/
def Sa.at (x : Sa) (off n : Nat) : Nat := leAt x.raw off n
/-- A bit of SFLAGS. -/
def Sa.flag (x : Sa) (b : Nat) : Bool := nbit (x.at 1 1) b
/-- The packet number is exhausted. -/
def Sa.spent (x : Sa) : Bool := decide ((if x.flag 2 then 2 ^ 64 else 2 ^ 32) ≤ x.pn)

/-- An SA entry passes its checks: a receive SA's channel is one of at most 32 of its port. -/
def Dev.saOk (d : Dev) (n : Nat) (b : List Byte) : Bool :=
  let scis := ((d.gw.sas.filter (fun y => y.1 != n && !y.2.flag 1 && y.2.at 0 1 == leAt b 0 1)).map (fun y => y.2.at 8 8)).eraseDups
  !nbit (leAt b 1 1) 0 ||
    (decide (leAt b 0 1 ≤ 11 ∧ leAt b 1 1 < 32 ∧ leAt b 2 1 ≤ 3) && [0, 30, 50].contains (leAt b 3 1) && zeroAt b 0x1C 4 && zeroAt b 0x4C 52 &&
      (nbit (leAt b 1 1) 1 || scis.contains (leAt b 8 8) || decide (scis.length < 32)))

/-- One SA is loaded: a live one with the same port, channel, number and key keeps the larger packet number (R512). -/
def Dev.loadSa (d : Dev) (n : Nat) (b : List Byte) : Dev :=
  if !nbit (leAt b 1 1) 0 then d.onGw (fun w => { w with sas := KMap.del w.sas n })
  else
    let same := d.gw.sas.filter (fun y => y.2.at 0 1 == leAt b 0 1 && y.2.at 8 8 == leAt b 8 8 && y.2.at 2 1 == leAt b 2 1 && slice y.2.raw 0x20 32 == slice b 0x20 32)
    let pn := same.foldl (fun m y => max m y.2.pn) (leAt b 0x10 8)
    let e := d.onGw (fun w => { w with sas := KMap.put w.sas n { raw := b, pn := pn, order := w.loads }, loads := w.loads + 1 })
    e.when (nbit (leAt b 1 1) 1) (fun x => x.setB (Off.GW_PORT_STATUS (leAt b 0 1)) 17 false)

/-! ### Loads (R501) -/

/-- Entries of a table, their size, and where the table lies in the area (R500). -/
def tableShape (t : Nat) : Nat × Nat × Nat :=
  match t with
  | 0 => (65536, 64, 0) | 1 => (16384, 8, 0x400000) | 2 => (4096, 32, 0x420000) | 3 => (16384, 16, 0x440000) | _ => (256, 128, 0x480000)

/-- The table area's address. -/
def Dev.gwTable (d : Dev) : Nat := d.addr Off.GW_TAB_BASE_LO Off.GW_TAB_BASE_HI

/-- An entry passes its checks. -/
def Dev.entryOk (d : Dev) (t n : Nat) (b : List Byte) : Bool :=
  match t with
  | 0 => d.flowOk n b | 1 => d.gclOk n b | 2 => d.pduOk n b | 3 => d.routeOk n b | _ => d.saOk n b

/-- An entry replaces its live copy; one that fails is loaded as unused. -/
def Dev.loadEntry (d : Dev) (t n : Nat) (b : List Byte) (ok : Bool) : Dev :=
  let z := if ok then b else zeros b.length
  match t with
  | 0 => d.loadFlow n z
  | 1 => d.loadGcl n b ok
  | 2 => d.loadPdu n z
  | 3 => d.onGw (fun w => { w with routes := if ok then KMap.put w.routes n b else KMap.del w.routes n })
  | _ => d.loadSa n z

/-- One entry is read, checked and loaded; a failure is reported. An entry that cannot be read is loaded as unused. -/
def State.loadOne (s : State) (t n : Nat) : State :=
  let sh := tableShape t
  let r := s.readAs .gwTables (s.dev.gwTable + sh.2.2 + n * sh.2.1) sh.2.1
  let b := r.1.getD (zeros sh.2.1)
  let ok := r.1.isSome && r.2.dev.entryOk t n b
  let u := r.2.onDev (fun d => d.loadEntry t n b ok)
  if ok then u
  else
    (u.onDev (fun d => (d.incSat Off.GW_CNT_LOAD_REJECT).setB Off.GW_EVENTS 1 true)).clampPush 0
      { off := 0x00A00020, lsb := 0, width := 32, rejected := true, reserved := false, written := t * 65536 + n, applied := 0 }

/-- LOAD_DONE (R501): the load that runs, from stage S4 on, has loaded every entry. -/
def execLoadDone (s : State) : Host.Outcome State Fault Refusal :=
  .next (match s.dev.gw.load with
    | [] => s
    | (t, first, count) :: rest =>
      if s.dev.stage < 4 then s
      else
        let u := s.forAll ((List.range count).map (fun i => first + i)) (fun n x => x.loadOne t n)
        u.onDev (fun d => (((d.onGw (fun w => { w with load := rest })).setB Off.GW_STATUS 1 (!rest.isEmpty)).setB Off.GW_EVENTS 0 true)))

/-- An apply of the global page with a non-zero GW_LOAD_COUNT starts a load, once S4 has begun (R501). -/
def Dev.startLoading (d : Dev) : Dev :=
  let t := d.f Off.GW_LOAD_SEL 2 0
  let n := d.f Off.GW_LOAD_COUNT 16 0
  if n = 0 then d else (d.onGw (fun w => { w with load := w.load ++ [(t, d.f Off.GW_LOAD_SEL 31 16, n)] })).setB Off.GW_STATUS 1 (decide (4 ≤ d.stage))

/-! ### Flow counters (R507) -/

/-- One of a flow's four counts goes up. -/
def Dev.countFlow (d : Dev) (f i : Nat) : Dev :=
  d.onFlow f (fun x => { x with counts := x.counts.set i ((x.counts.getD i 0 + 1) % 2 ^ 32), changed := true })

/-- FLOW_COUNTER_WRITE (R507): a changed entry is written in one write of 16 bytes. -/
def execFlowCounterWrite (f : Nat) (s : State) : Host.Outcome State Fault Refusal :=
  .next (match s.dev.flow f with
    | none => s
    | some x =>
      if x.changed then
        ((s.storeAs .gwTables (s.dev.gwTable + 0x500000 + f * 16) ((List.range 4).flatMap (fun k => leBytes 4 (x.counts.getD k 0)))).2).onDev (fun d => d.onFlow f (fun y => { y with changed := false }))
      else s)

/-- No frame of the flow has arrived for REC_RESET_MS (R506). -/
def Flow.quiet (x : Flow) (now : Nat) : Bool := decide (x.lastAt + x.at 0x27 1 * 1000000 ≤ now)

/-- Vector recovery takes any number again (R506). -/
def Flow.recReset (x : Flow) : Flow := { x with takeAny := true, recHist := 0 }

/-- RECOVERY_RESET (R506): vector recovery resets once no frame of the flow has arrived for REC_RESET_MS. -/
def execRecoveryReset (f : Nat) (s : State) : Host.Outcome State Fault Refusal :=
  .next (s.onDev (fun d => d.onFlow f (fun x => if x.flag 5 && x.quiet d.now then x.recReset else x)))

/-! ### Transmit timestamps (R524) -/

/-- An entry joins a port's queue; one that finds it full is dropped. -/
def Dev.pushTs (d : Dev) (p tag ns : Nat) (dropped : Bool) : Dev :=
  let q := KMap.getD d.gw.txts p []
  if 16 ≤ q.length then (d.incSat (Off.GW_PORT_TXTS_DROP p)).setB (Off.GW_PORT_EVENTS p) 0 true
  else
    let w := ns + tag % 65536 * 2 ^ 32 + (if dropped then 2 ^ 48 else 0) + 2 ^ 63
    let q' := q ++ [w]
    (d.onGw (fun g => { g with txts := KMap.put g.txts p q' })).wn (Off.GW_PORT_TXTS_HEAD p) (q'.headD 0)

/-- TXTS_POP (R524): the oldest entry is removed. -/
def execTxtsPop (m : Master) (p value : Nat) (s : State) : Host.Outcome State Fault Refusal :=
  .next (s.onDev (fun d =>
    if 18 ≤ p then d.answer .error
    else match d.setupRefused m (Off.GW_PORT_TXTS_POP p) 4 with
    | some e => e
    | none =>
      let q := KMap.getD d.gw.txts p []
      (d.when (nbit value 0) (fun e => (e.onGw (fun g => { g with txts := KMap.put g.txts p q.tail })).wn (Off.GW_PORT_TXTS_HEAD p) (q.tail.headD 0))).answer .ok))

/-! ### Egress (R499) -/

/-- The domains of a switch port are ON: the switch core's, and its PHYs' or segment controllers' (R559). -/
def Dev.portPowered (d : Dev) (p : Nat) : Bool :=
  d.domOn 37 && (if p < 6 then d.domOn 38 else if p < 12 then d.domOn 39 else if p < 14 then d.domOn 40 else true)

/-- A port runs: powered and enabled, and its link is up; a 10BASE-T1S port also needs its segment enabled (R534, R535). -/
def Dev.portUp (d : Dev) (p : Nat) : Bool :=
  d.portPowered p && d.b (Off.GW_PORT_CTRL p) 0 && d.b (Off.GW_PORT_STATUS p) 0 && !(decide (p = 12 ∨ p = 13) && !d.b (Off.T1S_CTRL (p - 12)) 0)

/-- A frame is dropped at an egress port. -/
def Dev.egressDrop (d : Dev) (p : Nat) (q : QFrame) : Dev :=
  let e := (d.incSat (Off.GW_PORT_Q_DROP p)).setB (Off.GW_PORT_EVENTS p) 2 true
  match q.ts with
  | none => e
  | some tag => e.pushTs p tag 0 true

/-- Bytes in one egress queue. -/
def qBytes (q : List QFrame) : Nat := (q.map (fun x => x.bytes.length)).sum

/-- The egress queues' shared buffer, 8 MiB (R499). -/
def sharedBytes : Nat := 8 * 2 ^ 20

/-- A frame is queued, or dropped when its queue or the shared buffer has no room or the link is down (R499). -/
def Dev.enqueue (d : Dev) (p tc : Nat) (q : QFrame) : Dev :=
  let k := p * 8 + tc
  let now := KMap.getD d.gw.queues k []
  let all := (d.gw.queues.map (fun x => qBytes x.2)).sum
  if !d.portUp p || decide (d.f (Off.GW_PORT_QLIMIT p) 10 0 * 1024 < qBytes now + q.bytes.length ∨ sharedBytes < all + q.bytes.length) then d.egressDrop p q
  else d.onGw (fun g => { g with queues := KMap.put g.queues k (now ++ [q]) })

/-! ### Receive rings (R531) -/

/-- BUF of a ring in bytes. -/
def Dev.rxBuf (d : Dev) (n : Nat) : Nat := 2048 * 2 ^ d.f (Off.GW_RX_CTRL n) 17 16

/-- A frame is delivered into receive ring `n`: flow, ingress port, timestamp, accepted sequence, and whether MACsec verified it. -/
def State.rxDeliver (s : State) (n : Nat) (bytes : List Byte) (status flow port ns ovr seq : Nat) (macsec : Bool) : State :=
  let d := s.dev
  let size := 2 ^ d.f (Off.GW_RX_CTRL n) 12 8
  let prod := d.n (Off.GW_RX_PROD n)
  let used := (prod + 2 ^ 32 - d.n (Off.GW_RX_CONS n) % 2 ^ 32) % 2 ^ 32
  if !d.portUp (14 + n / 16) then s.onDev (fun e => (e.incSat (Off.GW_PORT_Q_DROP (14 + n / 16))).setB (Off.GW_PORT_EVENTS (14 + n / 16)) 2 true)
  else if !d.b (Off.GW_RX_CTRL n) 0 then s
  else if size ≤ used then s.onDev (fun e => e.incSat (Off.GW_RX_DROP n))
  else
    let base := d.addr (Off.GW_RX_BASE_LO n) (Off.GW_RX_BASE_HI n)
    let i := prod % size
    let kept := bytes.take (d.rxBuf n)
    let flags := (if d.rxBuf n < bytes.length then 1 else 0) + (if macsec then 2 else 0) + (if prod / size % 2 = 0 then 128 else 0)
    let rec_ := leBytes 2 kept.length ++ leBytes 2 status ++ leBytes 2 flow ++ leBytes 1 port ++ leBytes 1 flags ++ leBytes 4 ns ++ leBytes 4 ovr ++
      leBytes 4 seq ++ zeros 12
    let u := (s.storeAs (.gwRing n) (base + max 4096 (size * 32) + i * d.rxBuf n) kept).2
    ((u.storeAs (.gwRing n) (base + i * 32) rec_).2).onDev (fun e => (e.incWrap (Off.GW_RX_PROD n)).incSat (Off.GW_PORT_TX_FRAMES (14 + n / 16)))

/-! ### Check values and R-TAGs on transmit (R506, R530) -/

/-- Where the R-TAG stands: after the source address and a VLAN tag. -/
def rtagAt (f : List Byte) : Nat := if beAt f 12 2 = 0x8100 then 16 else 12

/-- A check value with polynomial POLY + 1 = `poly1` is appended, with the flow's sequence, which moves on. -/
def Dev.appendCv (d : Dev) (f poly1 : Nat) (x : Flow) (bytes : List Byte) : List Byte × Dev :=
  if poly1 = 0 then (bytes, d)
  else
    (bytes ++ leBytes (crcWidth (poly1 - 1) / 8) (checkValue (poly1 - 1) true x.seq (x.at 0x28 4) (bytes.drop (x.at 0x24 2))),
      d.onFlow f (fun y => { y with seq := (y.seq + 1) % 2 ^ 32 }))

/-- SEQ_GEN: one number is assigned and one R-TAG inserted (R506). -/
def Dev.addRtag (d : Dev) (f : Nat) (x : Flow) (bytes : List Byte) : List Byte × Dev :=
  if x.flag 4 then
    let o := rtagAt bytes
    (bytes.take o ++ beBytes 2 0xF1C1 ++ zeros 2 ++ beBytes 2 x.genSeq ++ bytes.drop o, d.onFlow f (fun y => { y with genSeq := (y.genSeq + 1) % 65536 }))
  else (bytes, d)

/-- A frame of a flow, dressed: check value, then R-TAG. -/
def Dev.dress (d : Dev) (f poly1 : Nat) (bytes : List Byte) : List Byte × Dev :=
  match d.flow f with
  | none => (bytes, d)
  | some x =>
    let a := d.appendCv f poly1 x bytes
    a.2.addRtag f x a.1

/-! ### The signal gateway's frames (R514, R517, R519; layouts of IEEE 1722-2016) -/

/-- The header of a gateway-built frame of a flow: addresses, VLAN tag, EtherType 0x22F0 (R514). -/
def Dev.builtHeader (d : Dev) (x : Flow) : List Byte :=
  slice x.raw 4 6 ++ leBytes 4 (d.n Off.GW_MAC_LO) ++ leBytes 2 (d.n Off.GW_MAC_HI) ++ beBytes 2 0x8100 ++ beBytes 2 (x.vid + x.tc * 2 ^ 13) ++ beBytes 2 0x22F0

/-- An NTSCF frame of ACF messages for stream number `n`; its sequence number moves on. -/
def Dev.ntscf (d : Dev) (x : Flow) (n : Nat) (acf : List Byte) : List Byte × Dev :=
  let q := KMap.getD d.gw.ntscf n 0
  (d.builtHeader x ++ leBytes 1 0x82 ++ beBytes 2 (2 ^ 15 + acf.length % 2048) ++ leBytes 1 q ++ leBytes 4 (d.n Off.GW_MAC_LO) ++ leBytes 2 (d.n Off.GW_MAC_HI) ++
      beBytes 2 n ++ acf,
    d.onGw (fun w => { w with ntscf := KMap.put w.ntscf n ((q + 1) % 256) }))

/-- Bytes padded with zeros to whole words. -/
def padWords (b : List Byte) : List Byte := b ++ zeros ((4 - b.length % 4) % 4)

/-- An ACF GPC message (R517). -/
def acfGpc (id : Nat) (payload : List Byte) : List Byte :=
  let p := padWords payload
  beBytes 2 (0x05 * 512 + (8 + p.length) / 4) ++ beBytes 6 id ++ p

/-- An ACF CAN message of a frame with the marks `marks` (R514): its flags are the padding, EFF and the frame's RTR, BRS, FDF and ESI. -/
def acfCan (ch id : Nat) (ext : Bool) (marks : Nat) (payload : List Byte) : List Byte :=
  let p := padWords payload
  let pad := p.length - payload.length
  beBytes 2 (0x01 * 512 + (16 + p.length) / 4) ++ leBytes 1 (pad * 64 + (if ext then 8 else 0) + marks &&& 0xDF) ++ leBytes 1 ch ++ zeros 8 ++
    beBytes 4 id ++ p

/-- The bytes of a PDU as sent now: with E2E, its alive counter and CRC, which move on (R519, R520). -/
def Dev.pduBytes (d : Dev) (n : Nat) (x : Pdu) : List Byte × Dev :=
  if x.flag 1 then
    let a := putBits x.buf ((x.length - 2) * 8) 4 x.alive
    (splice a (x.length - 1) (leBytes 1 (crcOf 3 (leBytes 4 x.id ++ a.take (x.length - 1)))), d.onPdu n (fun y => { y with alive := (y.alive + 1) % 16 }))
  else (x.buf, d)

/-- The frame that an egress queue sends: a PDU's is built now (R520). -/
def Dev.frameNow (d : Dev) (q : QFrame) : List Byte × Dev :=
  match q.pdu with
  | none => (q.bytes, d)
  | some n =>
    match d.pdu n, d.flow q.flow with
    | some x, some f =>
      let b := d.pduBytes n x
      let g := b.2.ntscf f n (acfGpc x.id b.1)
      g.2.dress q.flow (f.at 0x13 1 % 8) g.1
    | _, _ => (q.bytes, d)

/-! ### MACsec on transmit (R512) -/

/-- The most recently loaded valid transmit SA of a port. -/
def Dev.txSa (d : Dev) (p : Nat) : Option (Nat × Sa) :=
  (d.gw.sas.filter (fun y => y.2.flag 1 && y.2.at 0 1 == p)).foldl (fun b y => match b with
    | none => some y
    | some z => if z.2.order < y.2.order then some y else some z) none

/-- A frame leaves a port at the timestamp `ns`: timestamped and counted. -/
def Dev.sendOn (d : Dev) (p : Nat) (bytes : List Byte) (ts : Option Nat) (ns : Nat) : Dev :=
  let e := (d.emit (.ethFrame p bytes)).incSat (Off.GW_PORT_TX_FRAMES p)
  match ts with
  | none => e
  | some tag => e.pushTs p tag ns false

/-- A frame passes MACsec and leaves; one without a usable SA is dropped and counted. -/
def Dev.secureSend (d : Dev) (p : Nat) (bytes secured : List Byte) (ts : Option Nat) (ns : Nat) : Dev :=
  if !d.b (Off.GW_PORT_CTRL p) 2 || decide (12 ≤ p) then d.sendOn p bytes ts ns
  else
    let lost := fun (e : Dev) => let f := e.incSat (Off.GW_PORT_MACSEC_DROP p); match ts with | none => f | some tag => f.pushTs p tag 0 true
    match d.txSa p with
    | none => lost d
    | some (n, a) =>
      if a.spent then lost ((d.setB (Off.GW_PORT_EVENTS p) 3 true).setB (Off.GW_PORT_STATUS p) 17 true)
      else (d.onGw (fun w => { w with sas := KMap.put w.sas n { a with pn := a.pn + 1 } })).sendOn p secured ts ns

/-! ### Gates (R499, R510) -/

/-- The gates of a list's current entry; an absent list leaves every gate open. -/
def Dev.gates (d : Dev) (l : Nat) : Nat :=
  match (d.gcl l).cur with
  | none => 255
  | some g => (g.entries.getD ((d.gcl l).entry - 1) (255, 0)).1

/-- The gate of a class of a port is open. -/
def Dev.gateOpen (d : Dev) (p tc : Nat) : Bool := !d.b (Off.GW_PORT_GCL p) 0 || nbit (d.gates (d.f (Off.GW_PORT_GCL p) 13 8)) tc

/-- The current entry of a list shows in the ports that use it. -/
def Dev.showGcl (d : Dev) (l : Nat) : Dev :=
  d.forEach 18 (fun p e => e.when (e.b (Off.GW_PORT_GCL p) 0 && e.f (Off.GW_PORT_GCL p) 13 8 == l) (fun x =>
    (x.setF (Off.GW_PORT_STATUS p) 15 8 (if (x.gcl l).cur.isSome then (x.gcl l).entry else 0)).setB (Off.GW_PORT_STATUS p) 16 (x.gcl l).cur.isSome))

/-- The instant at which the current entry of a list ends: entry 1 began at `startAt` (R510). -/
def GclSt.entryEnd (x : GclSt) (g : GList) : Nat := x.startAt + ((g.entries.take x.entry).map (fun e => e.2)).sum

/-- GCL_ENTRY (R510): the current entry's interval has elapsed and the next entry's gates apply; the last used entry holds, and in a dead Over
every list holds (R25). -/
def execGclEntry (l : Nat) (s : State) : Host.Outcome State Fault Refusal :=
  .next (s.onDev (fun d =>
    match (d.gcl l).cur with
    | none => d
    | some g =>
      if d.deadOver || decide (g.entries.length ≤ (d.gcl l).entry ∨ d.now < (d.gcl l).entryEnd g) then d
      else (d.onGcl l (fun x => { x with entry := x.entry + 1 })).showGcl l))

/-- A cycle of 2^`c` Overs starts at the edge that began the running Over. -/
def Dev.cycleStarts (d : Dev) (g : GList) : Bool := d.over % 2 ^ g.cycle == 0

/-- A list at an Over edge: a list loaded takes effect where its cycle starts, and the list that runs starts again where its own does; after a
dead Over it restarts from entry 1 (R25, R510). -/
def Dev.gclEdge (d : Dev) (wasDead : Bool) (x : GclSt) : GclSt :=
  let again := { x with entry := 1, startAt := d.now }
  if x.parsed.all d.cycleStarts then { again with cur := x.parsed }
  else if wasDead || x.cur.any d.cycleStarts then again else x

/-- At an Over edge: every list takes its turn; in the dead Over that begins none starts (R25, R510). -/
def Dev.gateEdge (d : Dev) (wasDead isDead : Bool) : Dev :=
  if isDead then d else d.forAll d.gw.lists (fun x e => (e.onGcl x.1 (e.gclEdge wasDead)).showGcl x.1)

/-! ### How long a gate stays open (R498, R499) -/

/-- The gates that entries hold over `left` ns, each with its time: the last used entry holds to the end (R510). -/
def gclSpans : List (Nat × Nat) → Nat → List (Nat × Nat)
  | [], _ => []
  | [e], left => [(e.1, left)]
  | e :: rest, left => if left ≤ e.2 then [(e.1, left)] else e :: gclSpans rest (left - e.2)

/-- Nanoseconds left of the running Over. -/
def Dev.overLeft (d : Dev) : Nat := ((d.time.overLen - d.time.run) / subPerNs).toNat

/-- Nanoseconds to the next start of a cycle of 2^`c` Overs. -/
def Dev.cycleLeft (d : Dev) (c : Nat) : Nat := d.overLeft + (2 ^ c - 1 - d.over % 2 ^ c) * d.overNs

/-- What a list holds from now to the end of its running cycle. -/
def Dev.cycleSpans (d : Dev) (x : GclSt) (g : GList) : List (Nat × Nat) :=
  if d.deadOver then ((g.entries.getD (x.entry - 1) (255, 0)).1, d.overLeft) :: gclSpans g.entries (d.cycleLeft g.cycle - d.overLeft)
  else match g.entries.drop (x.entry - 1) with
    | [] => []
    | e :: rest => gclSpans ((e.1, x.entryEnd g - d.now) :: rest) (d.cycleLeft g.cycle)

/-- What a list holds in its next cycle, by the list as loaded. -/
def Dev.nextSpans (d : Dev) (x : GclSt) : List (Nat × Nat) :=
  match x.parsed with
  | none => []
  | some g => gclSpans g.entries (2 ^ g.cycle * d.overNs)

/-- Nanoseconds for which the open gate of a class of a port stays open; none when its list never closes it. -/
def Dev.gateLeft (d : Dev) (p tc : Nat) : Option Nat :=
  let x := d.gcl (d.f (Off.GW_PORT_GCL p) 13 8)
  match (if d.b (Off.GW_PORT_GCL p) 0 then x.cur else none) with
  | none => none
  | some g =>
    let spans := d.cycleSpans x g ++ d.nextSpans x
    let open_ := spans.takeWhile (fun e => nbit e.1 tc)
    if open_.length = spans.length then none else some ((open_.map (fun e => e.2)).sum)

/-- The rate of a wire port in Mb/s (R495). -/
def portRate (p : Nat) : Nat := if p = 0 ∨ p = 1 ∨ p = 6 ∨ p = 7 then 10000 else if p < 12 then 1000 else 10

/-- Nanoseconds that a port takes for `n` bytes, rounded up. -/
def wireNs (p n : Nat) : Nat := (n * 8000 + portRate p - 1) / portRate p

/-- The gate of a class of a port is open, and stays so for `ns` nanoseconds. -/
def Dev.gateFits (d : Dev) (p tc ns : Nat) : Bool := d.gateOpen p tc && (d.gateLeft p tc).all (fun x => decide (ns ≤ x))

end Sys2Proof.Machine
end

