-- ==== Sys2Proof/Machine/TimeUnit.lean ====
section
/-! DEFINITION. Machine/TimeUnit.lean: source states, phase errors, slewing, dead Overs and the Over edge's time (R16 to R43, R521, R522). -/

namespace Sys2Proof.Machine

/-- `d` with the time unit changed. -/
def Dev.onTime (d : Dev) (g : TimeUnit → TimeUnit) : Dev := { d with time := g d.time }

/-- OVER_PHASE_ERR takes a phase error, saturating at ±(2^31 − 1) (R38). -/
def Dev.recordErr (d : Dev) (e : Int) : Dev := d.wn Off.OVER_PHASE_ERR (unsignedOf 32 (clampInt (-2147483647) 2147483647 e))

/-- Hardware time at which the running Over began, steps made since then counted in, in the unit of `sub`. -/
def Dev.edgeSub (d : Dev) : Int := d.time.sub - d.time.run

/-- The Over length L in the unit of hardware time. -/
def Dev.overSub (d : Dev) : Int := (d.overNs : Int) * subPerNs

/-- The remainder of a phase error `e` in ns (reference minus hardware time): how far the running edges stand behind the
edges of R19 for the corrected time, from −L/2 (taken as early) up to less than L/2 (R24), in the unit of hardware time. -/
def Dev.phaseRemainder (d : Dev) (e : Int) : Int :=
  let l := d.overSub
  ((d.edgeSub + (e - d.time.geom.phase) * subPerNs) + l / 2) % l - l / 2

/-- Hardware time steps by `x` of its units at once. -/
def Dev.stepTime (d : Dev) (x : Int) : Dev := d.onTime (fun t => { t with sub := t.sub + x })

/-- A phase error is taken (R24): the whole Overs are stepped, the remainder is slewed, or stepped at the next edge with a dead Over.
An error taken while slewing replaces the part not yet slewed. -/
def Dev.takePhaseError (d : Dev) (e : Int) : Dev :=
  let r := d.phaseRemainder e
  let s := (d.recordErr e).stepTime (e * subPerNs - r)
  if r = 0 then (s.onTime (fun t => { t with slew := 0, stepAtEdge := none })).setB Off.OVER_STATUS 4 false
  else if r.natAbs ≤ d.f Off.OVER_SLEW_LIMIT 15 0 * 1000 * 1024000000000 then
    (s.onTime (fun t => { t with slew := r, stepAtEdge := none })).setB Off.OVER_STATUS 4 true
  else (s.onTime (fun t => { t with slew := 0, stepAtEdge := some r })).setB Off.OVER_STATUS 4 false

/-- The reference is acquired or re-acquired: LOCKED, and RELOCK is set (R20, R24). -/
def Dev.relock (d : Dev) : Dev :=
  if d.srcState = 1 then d
  else ((d.setSrc 1).setB Off.OVER_EVENTS 3 true).onTime (fun t => { t with refSeen := true })

/-- The module is a follower: another module is the time source (R27, R43). -/
def Dev.follower (d : Dev) : Bool := decide (0 < d.f Off.GLB_MODULE 3 2) && !d.b Off.GLB_MODULE 4

/-- A measurement of the reference, acted on while SOURCE_SEL is AUTO (R21, R24); its instant is kept (R522). -/
def Dev.measure (d : Dev) (e : Int) : Dev :=
  let m := d.onTime (fun t => { t with refAt := d.now })
  if d.f Off.OVER_CTRL 26 25 ≠ 0 then m.recordErr e else (m.relock).takePhaseError e

/-- The length in hardware time of the Over that begins now (R16, R24, R34): `L`, or for a dead Over in LOCKED or HOLDOVER the time to
the first edge of R19 at least half an `L` away. -/
def Dev.newOverLen (d : Dev) (dead : Bool) : Int :=
  let l := d.overSub
  if dead ∧ (d.srcState = 1 ∨ d.srcState = 2) then
    l / 2 + ((d.time.geom.phase : Int) * subPerNs - (d.edgeSub + l / 2)) % l
  else l

/-- Whether a pending geometry change takes effect at an edge now (R34). -/
def Dev.geomTakes (d : Dev) : Bool := match d.time.geomDue with | none => false | some t => decide (t ≤ d.now)

/-- What one nanosecond takes of the remainder that is slewed: 500 ppm of it at most (R24). -/
def Dev.slewStep (d : Dev) : Int := clampInt (-512000000) 512000000 d.time.slew

/-- By how much hardware time advances in one nanosecond, in its own units (R24, R522). -/
def Dev.tickSub (d : Dev) : Int := subPerNs + d.time.rate + d.slewStep

/-- Hardware time that the next Over has already taken when an edge is signalled: the part of a nanosecond by which the edge lay before this
instant. An edge signalled later than that is late, and the Over that follows is counted from it (R30). -/
def Dev.lateness (d : Dev) : Int :=
  let x := d.time.run - d.time.overLen
  if 0 ≤ x ∧ x < d.tickSub then x else 0

/-- The nanoseconds field of an instant of hardware time. -/
def edgeNs (x : Int) : Nat := (x / subPerNs % 1000000000).toNat

/-- The low 32 bits of its seconds field. -/
def edgeSec (x : Int) : Nat := (x / subPerNs / 1000000000 % 4294967296).toNat

/-- The Ball whose edge comes next in the running Over: none after the last, and none that would fall at or after the end of a dead Over (R17, R25). -/
def Dev.nextBall (d : Dev) : Option Nat :=
  let k := d.f Off.OVER_BALL 5 0 + 1
  if k < d.balls ∧ ((d.ballStart k : Nat) : Int) * subPerNs < d.time.overLen then some k else none

/-- The instant of the running Over at which Ball `k` begins has come (R17, R599). -/
def Dev.ballDue (d : Dev) (k : Nat) : Bool := decide (((d.ballStart k : Nat) : Int) * subPerNs ≤ d.time.run)

/-- The Over edge may be signalled: the running Over has had its length (R16, R19, R24, R34, R599), and every Ball of it has begun. An edge that
comes later is late (R30). -/
def Dev.edgeDue (d : Dev) : Bool := decide (d.time.overLen ≤ d.time.run) && d.nextBall.isNone

/-- What the Over edge does to time (R24, R26, R31, R34, R36): the count, a pending step, a pending geometry, a dead Over,
the latched edge time. The second answer: the Over that begins is a dead Over. -/
def Dev.edgeTime (d : Dev) : Dev × Bool :=
  let c := d.over
  let d1 := (d.wn Off.OVER_COUNT ((c + 1) % 2 ^ 32)).when (c + 1 == 2 ^ 32) (fun e => e.setB Off.OVER_EVENTS 4 true)
  let g := d.geomTakes
  let dead := g || d.time.stepAtEdge.isSome
  let d2 := match d.time.stepAtEdge with
    | some r => (d1.stepTime r).onTime (fun t => { t with stepAtEdge := none })
    | none => d1
  let d3 := if g then
      ((d2.onTime (fun t => { t with
          sub := t.sub + t.slew, slew := 0, geomDue := none
          geom := { steps := d2.f Off.OVER_CTRL 8 0, balls := d2.f Off.OVER_CTRL 22 16, phase := d2.n Off.OVER_PHASE } })).setB
        Off.OVER_STATUS 4 false).setB Off.OVER_STATUS 6 false
    else d2
  let d4 := d3.onTime (fun t => { t with edgeAt := d3.now, run := d.lateness })
  let d5 := ((d4.wn Off.OVER_EDGE_NS (edgeNs d4.edgeSub)).wn Off.OVER_EDGE_SEC (edgeSec d4.edgeSub)).wn Off.OVER_BALL 0
  let d6 := (d5.setB Off.OVER_STATUS 3 dead).when dead (fun e => e.setB Off.OVER_EVENTS 2 true)
  (d6.onTime (fun t => { t with overLen := d6.newOverLen dead }), dead)

/-- One nanosecond passes: hardware time advances with its correction and what is left to slew at 500 ppm; SLEWING becomes 0 with the
last of it (R24, R522). -/
def Dev.tick (d : Dev) : Dev :=
  let t := d.time
  let x := d.tickSub
  let e := { d with now := d.now + 1, time := { t with sub := t.sub + x, run := t.run + x, slew := t.slew - d.slewStep } }
  e.when (t.slew != 0 && t.slew == d.slewStep) (fun f => f.setB Off.OVER_STATUS 4 false)

/-! ### The time unit's events -/

/-- By how much an edge may come after the previous one before the island's monitor calls it missed, in ns (R29): `L` and the window, or after
the start of a dead Over the longest length that R24 allows and the window. -/
def Dev.missedAfter (d : Dev) : Nat := (if d.deadOver then d.overNs * 3 / 2 else d.overNs) + d.overNs / 1000 + 2000

/-- EDGE_MISSED (R29): the armed island monitor has waited past its window, and raises code 6; ARG is the error in µs, by which the edge is late.
The monitor's own oscillator is taken to agree with the module's (log 55). -/
def execEdgeMissed (s : State) : Host.Outcome State Fault Refusal :=
  .next (s.onDev (fun d =>
    if d.start.monitor && decide (d.time.edgeAt + d.missedAfter < d.now) then
      (d.setB Off.OVER_EVENTS 0 true).doubt 6 (min 0xFFFF ((d.now - (d.time.edgeAt + d.overNs)) / 1000))
    else d))

/-- OVER_HOLDOVER as applied, in ns. -/
def Dev.holdoverNs (d : Dev) : Nat := d.f Off.OVER_HOLDOVER 15 0 * 1000000

/-- HOLDOVER_EXPIRED (R23): HOLDOVER has lasted for OVER_HOLDOVER and ends in FREE_RUN; code 7 is raised once. -/
def execHoldoverExpired (s : State) : Host.Outcome State Fault Refusal :=
  .next (s.onDev (fun d =>
    if d.srcState = 2 ∧ d.time.holdSince + d.holdoverNs ≤ d.now then ((d.setSrc 3).setB Off.OVER_EVENTS 1 true).doubt 7 3 else d))

/-- FREE_RUN_WITHOUT_REFERENCE (R21): OVER_HOLDOVER has elapsed since power good, and ACQUIRING ends in FREE_RUN, with no event and no trigger. -/
def execFreeRunWithoutReference (s : State) : Host.Outcome State Fault Refusal :=
  .next (s.onDev (fun d => if d.srcState = 0 ∧ d.holdoverNs ≤ d.now then d.setSrc 3 else d))

/-- REFERENCE_LOST (R20, R522): no measurement has come for 250 ms, and LOCKED ends in HOLDOVER. A follower loses its reference with the
sideband (R28). -/
def execReferenceLost (s : State) : Host.Outcome State Fault Refusal :=
  .next (s.onDev (fun d => if d.srcState = 1 ∧ d.follower = false ∧ d.time.refAt + 250000000 ≤ d.now then d.setSrc 2 else d))

/-- SLEW_DONE (R24): the remainder is removed, and SLEWING is 0. -/
def execSlewDone (s : State) : Host.Outcome State Fault Refusal :=
  .next (s.onDev (fun d => if d.time.slew = 0 then d.setB Off.OVER_STATUS 4 false else d))

/-- A port of the group that leads to the time source is trained: it carries the sideband (R579). -/
def Dev.sidebandUp (d : Dev) : Bool := (d.portsTo (d.f Off.IVM_CTRL 5 4)).any (fun p => d.f (Off.IVM_PORT_STATUS p) 1 0 == 2)

/-- A follower is aligned to the sideband of a trained port (R24, R26, R27, R579): OVER_COUNT is loaded the first time, before S5. -/
def Dev.align (d : Dev) (count : Nat) (err : Int) : Dev :=
  if d.follower && d.sidebandUp then
    (((d.when (!d.time.counted && decide (d.stage < 5)) (fun e => e.wn Off.OVER_COUNT (count % 2 ^ 32))).onTime (fun t => { t with counted := true })).setB
      Off.OVER_STATUS 5 true).measure err
  else d

/-- A follower's geometry is the time source's; a change takes effect at the next edge, the source's own (R34, R580). -/
def Dev.followGeometry (d : Dev) (steps balls phase : Nat) : Dev :=
  if !(d.follower && d.sidebandUp) ∨ steps < 5 ∨ 400 < steps ∨ balls < 4 ∨ 64 < balls then d
  else
    let e := ((d.setF Off.OVER_CTRL 8 0 steps).setF Off.OVER_CTRL 22 16 balls).wn Off.OVER_PHASE (phase % 2 ^ 32)
    if d.time.geom = { steps := steps, balls := balls, phase := phase } then e
    else (e.onTime (fun t => { t with geomDue := some d.now })).setB Off.OVER_STATUS 6 true

/-- ALIGN_LOST (R28, R579): no trained port of the group to the time source remains; the follower loses the sideband and enters HOLDOVER. -/
def execAlignLost (s : State) : Host.Outcome State Fault Refusal :=
  .next (s.onDev (fun d =>
    if d.follower && d.b Off.OVER_STATUS 5 && !d.sidebandUp then
      (((d.setB Off.OVER_STATUS 5 false).setB Off.OVER_EVENTS 5 true).when (d.srcState == 1) (fun e => e.setSrc 2))
    else d))

/-! ### Writes and reads of the time registers (R521, R522, R533) -/

/-- The write of a time register by a master is admitted, or answered with an error response. -/
def State.timeWrite (s : State) (m : Master) (off size : Nat) (f : State → State) : State :=
  match s.dev.setupRefused m off size with
  | some d => { s with dev := d }
  | none => (f s).onDev (fun d => d.answer .ok)

/-- TIME_ADJ_RATE's effect: signed, saturating at ±200 ppm, which is reported (R533). -/
def State.adjRate (s : State) (value : Nat) : State :=
  let v := signedOf 32 value
  let a := clampInt (-204800000) 204800000 v
  (s.onDev (fun d => d.onTime (fun t => { t with rate := a }))).when (a != v) (fun t =>
    t.clampPush 0 { off := Off.TIME_ADJ_RATE, lsb := 0, width := 32, rejected := false, reserved := false,
                    written := value % 2 ^ 32, applied := unsignedOf 32 a })

/-- TIME_ADJ_OFFSET's effect: a measured phase error (R522); on a follower hardware time follows the sideband instead. -/
def State.adjOffset (s : State) (value : Nat) : State :=
  s.onDev (fun d => if d.follower then d else d.measure (signedOf 64 value))

/-- TIME_SET_NS's effect: the target, with the seconds last written, less hardware time (R522, R533). -/
def State.setTime (s : State) (ns : Nat) : State :=
  s.onDev (fun d =>
    if d.follower then d
    else d.measure (((d.time.setSecLo + d.time.setSecHi * 2 ^ 32) * 1000000000 + ns % 2 ^ 32 : Nat) - d.hwNs))

/-- TIME_ADJ_RATE (R522, R533). -/
def execTimeAdjRate (m : Master) (value : Nat) (s : State) : Host.Outcome State Fault Refusal :=
  .next (s.timeWrite m Off.TIME_ADJ_RATE 4 (fun t => t.adjRate value))

/-- TIME_NOW_READ (R521): the nanoseconds field is returned and the seconds of the same instant are latched. -/
def Dev.readTimeNow (d : Dev) : Dev :=
  (((d.wn Off.TIME_LATCH_SEC_LO (d.secField % 2 ^ 32)).wn Off.TIME_LATCH_SEC_HI (d.secField / 2 ^ 32))).answer (.data d.nsField)

/-- TIME_NOW_READ (R521); the range table governs the read (R545). -/
def execTimeNowRead (m : Master) (s : State) : Host.Outcome State Fault Refusal :=
  .next (s.onDev (fun d =>
    if !d.masterRuns m then d
    else if d.rtAdmits (0xF0000000 + Off.TIME_NOW_NS) 4 (d.world m) then d.readTimeNow
    else (d.rtDenied (0xF0000000 + Off.TIME_NOW_NS)).answer .error))

end Sys2Proof.Machine
end

