-- ==== Sys2Proof/Machine/Gateway.lean ====
section
/-! DEFINITION. Machine/Gateway.lean: frames received and sent, the signal gateway, CAN and LIN, links, captures and pulses (R497 to R526). -/

namespace Sys2Proof.Machine

/-! ### Routes and PDUs (R518 to R520) -/

/-- The signal gateway runs. -/
def Dev.sgOn (d : Dev) : Bool := d.domOn 37 && d.b Off.SG_CTRL 0

/-- A CAN channel of the gateway runs (R513, R559). -/
def Dev.canOn (d : Dev) (ch : Nat) : Bool := decide (ch < 12) && d.domOn 40 && d.b (Off.CAN_CTRL ch) 0

/-- A LIN channel runs (R515, R559). -/
def Dev.linOn (d : Dev) (ch : Nat) : Bool := decide (ch < 8) && d.domOn 40 && d.b (Off.LIN_CTRL ch) 0

/-- The egress queues hold an instance of a PDU. -/
def Dev.pduInQueues (d : Dev) (n : Nat) : Bool := d.gw.queues.any (fun q => q.2.any (fun f => f.pdu == some n))

/-- The frame of an ETH PDU as it stands in its queue; it is built when it is sent (R520). -/
def Pdu.placeholder (x : Pdu) : List Byte := zeros (30 + 8 + (x.length + 3) / 4 * 4)

/-- A frame that the gateway builds is queued on the ports of its flow, tagged for a timestamp by a value that the spec does not give. -/
def Dev.queueBuilt (d : Dev) (n : Nat) (f : Flow) (bytes : List Byte) (pdu : Option Nat) : Dev :=
  let t := if f.flag 1 then (some (d.freeNat.1 % 65536), d.freeNat.2) else (none, d)
  t.2.forAll f.egress (fun p e => e.enqueue p f.tc { bytes := bytes, flow := n, ts := if p < 14 then t.1 else none, pdu := pdu })

/-- A due PDU is queued, or its queued instance is updated in place (R520). -/
def Dev.queuePdu (d : Dev) (n : Nat) : Dev :=
  match d.pdu n with
  | none => d
  | some x =>
    if x.medium = 3 then
      if d.pduInQueues n then d.incSat Off.SG_CNT_REPLACED
      else match d.flow x.channel with
        | none => d
        | some f => d.queueBuilt x.channel f x.placeholder (some n)
    else if x.queued then d.incSat Off.SG_CNT_REPLACED
    else d.onPdu n (fun y => { y with queued := true })

/-- Bits of a TX PDU's buffer are written (R518). -/
def Dev.writeField (d : Dev) (n start bits v : Nat) : Dev :=
  match d.pdu n with
  | none => d
  | some x => if !x.isTx || decide (x.bits < start + bits) then d else d.onPdu n (fun y => { y with buf := putBits y.buf start bits v })

/-- A PDU whose buffer differs from before is due when it is ON_CHANGE (R520). -/
def Dev.dueOnChange (d : Dev) (old : Dev) (n : Nat) : Dev :=
  match d.pdu n with
  | none => d
  | some x => if x.flag 2 && (old.pdu n).any (fun y => y.buf != x.buf) then d.queuePdu n else d

/-- Routes write their destination buffers together, and then the ON_CHANGE PDUs among them whose buffers changed are due, each once (R519, R520). -/
def Dev.writeRoutes (d : Dev) (routes : List (List Byte)) (write : List Byte → Dev → Dev) : Dev :=
  let e := d.forAll routes write
  e.forAll (routes.map (fun r => leAt r 0 2)).eraseDups (fun n f => f.dueOnChange d n)

/-- The routes of an RX PDU. -/
def Dev.routesOf (d : Dev) (x : Pdu) : List (List Byte) := (List.range (x.at 0x14 2)).filterMap (fun i => KMap.find d.gw.routes (x.at 6 2 + i))

/-- An accepted instance: its routes write their destination buffers together (R519). -/
def Dev.acceptPdu (d : Dev) (n : Nat) (x : Pdu) (payload : List Byte) : Dev :=
  let e := d.onPdu n (fun y => { y with lastAt := d.now, timedOut := false, lastCtr := if x.flag 1 then some (nfld (leNat payload) ((x.length - 2) * 8 + 3) ((x.length - 2) * 8)) else none })
  e.writeRoutes (d.routesOf x) (fun r f =>
    let bits := leAt r 6 1
    let st := leAt r 2 2
    if x.bits < st + bits then f else f.writeField (leAt r 0 2) (leAt r 4 2) bits (nfld (leNat payload) (st + bits - 1) st))

/-- An instance of an RX PDU arrives: with E2E, a bad CRC or a repeated counter discards it (R519). -/
def Dev.receivePdu (d : Dev) (n : Nat) (x : Pdu) (raw : List Byte) : Dev :=
  if raw.length < x.length then d
  else
    let payload := raw.take x.length
    let ctr := nfld (leNat payload) ((x.length - 2) * 8 + 3) ((x.length - 2) * 8)
    if x.flag 1 && (x.lastCtr == some ctr || leAt payload (x.length - 1) 1 != crcOf 3 (leBytes 4 x.id ++ payload.take (x.length - 1))) then
      (d.incSat Off.SG_CNT_E2E_FAIL).setB Off.SG_EVENTS 1 true
    else d.acceptPdu n x payload

/-- The RX PDU with a match (R517). -/
def Dev.rxPdu (d : Dev) (medium channel id : Nat) : Option (Nat × Pdu) :=
  d.gw.pdus.find? (fun y => !y.2.isTx && y.2.medium == medium && y.2.channel == channel && y.2.id == id)

/-- RX_TIMEOUT (R519): no instance has been accepted for PERIOD_US; SUBST routes write their values once. -/
def execRxTimeout (n : Nat) (s : State) : Host.Outcome State Fault Refusal :=
  .next (s.onDev (fun d =>
    match d.pdu n with
    | none => d
    | some x =>
      if x.isTx || x.period == 0 || x.timedOut || decide (d.now < x.lastAt + x.period * 1000) || !d.sgOn then d
      else
        let e := ((d.onPdu n (fun y => { y with timedOut := true })).incSat Off.SG_CNT_TIMEOUT).setB Off.SG_EVENTS 0 true
        e.writeRoutes (d.routesOf x) (fun r f => if nbit (leAt r 7 1) 0 then f.writeField (leAt r 0 2) (leAt r 4 2) (leAt r 6 1) (leAt r 8 4) else f)))

/-! ### CAN (R513, R514) -/

/-- A CAN channel transmits: enabled, not listen-only, not bus-off. -/
def Dev.canSends (d : Dev) (ch : Nat) : Bool :=
  d.canOn ch && !d.b (Off.CAN_CTRL ch) 4 && decide (d.f (Off.CAN_STATUS ch) 1 0 < 2)

/-- The marks of a CAN PDU's frames: FD, BRS and XL of PFLAGS (R517). -/
def Pdu.marks (x : Pdu) : Nat := (if x.flag 3 then 2 else 0) + (if x.flag 4 then 4 else 0) + (if x.flag 5 then 32 else 0)

/-- A queued CAN instance begins on its bus with its buffer's contents (R520). -/
def Dev.canBegin (d : Dev) (n : Nat) : Dev :=
  match d.pdu n with
  | none => d
  | some x =>
    if x.medium = 1 ∧ x.queued = true ∧ d.canSends x.channel = true then
      let b := d.pduBytes n x
      (((b.2.onPdu n (fun y => { y with queued := false })).emit (.canFrame x.channel (x.id % 2 ^ 29) (nbit x.id 31) x.marks b.1))).incSat (Off.CAN_TX_FRAMES x.channel)
    else d

/-- PDU_DUE (R520): instances that had begun are gone; the periodic PDU, one of whose instants has come since it was due last, is queued or updated in
place. A LIN RX PDU with a period is due to be asked for likewise (R515). -/
def execPduDue (n : Nat) (begun : List Nat) (s : State) : Host.Outcome State Fault Refusal :=
  .next (s.onDev (fun d =>
    let e := d.forAll begun (fun k f => f.canBegin k)
    match e.pdu n with
    | none => e
    | some x =>
      if e.sgOn && x.period != 0 && (x.isTx || x.medium == 2) && x.dueAt != e.pduInstant x.raw then
        (e.onPdu n (fun y => { y with dueAt := e.pduInstant x.raw })).queuePdu n
      else e))

/-- A tunnelled CAN frame leaves as one ACF CAN message on the channel's flow, which must be KIND TX (R514). -/
def Dev.tunnel (d : Dev) (ch id : Nat) (ext : Bool) (marks : Nat) (payload : List Byte) : Dev :=
  let n := d.f (Off.CAN_CTRL ch) 31 16
  match d.flow n with
  | none => d
  | some f =>
    if f.kind ≠ 2 then d
    else
      let g := d.ntscf f ch (acfCan ch id ext marks payload)
      let h := g.2.dress n (f.at 0x13 1 % 8) g.1
      h.2.queueBuilt n f h.1 none

/-- CAN_FRAME_RECEIVE (R513, R514, R517): matched to an RX PDU, or tunnelled, or discarded. -/
def execCanFrameReceive (ch id : Nat) (ext : Bool) (marks : Nat) (payload : List Byte) (s : State) : Host.Outcome State Fault Refusal :=
  .next (s.onDev (fun d =>
    if d.canOn ch = false ∨ 2 ≤ d.f (Off.CAN_STATUS ch) 1 0 then d
    else
      let e := d.incSat (Off.CAN_RX_FRAMES ch)
      let key := id + (if ext then 2 ^ 31 else 0)
      let f := if e.sgOn && decide (payload.length ≤ 64) then (match e.rxPdu 1 ch key with | some (n, x) => e.receivePdu n x payload | none => e) else e
      if f.b (Off.CAN_CTRL ch) 5 && !nbit marks 5 then f.tunnel ch id ext marks payload else f))

/-- BUS_OFF (R513): the channel goes bus-off, through error-passive as ISO 11898-1 has it; the spec does not give its error counters then. -/
def execBusOff (ch : Nat) (s : State) : Host.Outcome State Fault Refusal :=
  .next (s.onDev (fun d =>
    if d.canOn ch = true ∧ d.f (Off.CAN_STATUS ch) 1 0 < 2 then
      let t := d.freeNat
      ((t.2.wn (Off.CAN_STATUS ch) (2 + t.1 % 65536 * 256)).setB (Off.CAN_EVENTS ch) 0 true).setB (Off.CAN_EVENTS ch) 1 true
    else d))

/-- BUS_OFF_RECOVERY (R513): a channel with AUTO_RECOVER rejoins. -/
def execBusOffRecovery (ch : Nat) (s : State) : Host.Outcome State Fault Refusal :=
  .next (s.onDev (fun d =>
    if d.canOn ch = true ∧ d.b (Off.CAN_CTRL ch) 3 = true ∧ d.f (Off.CAN_STATUS ch) 1 0 = 2 then d.w (Off.CAN_STATUS ch) 0 else d))

/-! ### LIN (R515) -/

/-- A LIN response ends the wait for it. -/
def Dev.linDone (d : Dev) (ch : Nat) : Dev := d.onGw (fun w => { w with linWait := KMap.del w.linWait ch })

/-- The protected identifier of a frame ID (ISO 17987): its two parity bits above it. -/
def linPid (id : Nat) : Nat :=
  let x := fun (ks : List Nat) => (ks.filter (fun k => nbit id k)).length
  id % 64 + x [0, 1, 2, 4] % 2 * 64 + (x [1, 3, 4, 5] + 1) % 2 * 128

/-- The checksum of a LIN response: the inverted sum with carries over the data, and for frame IDs 0 to 59 over the protected identifier first (R515). -/
def linChecksum (id : Nat) (data : List Byte) : Nat :=
  255 - data.foldl (fun (a : Nat) b => let t := a + b.toNat; if 256 ≤ t then t - 255 else t) (if id < 60 then linPid id else 0)

/-- The number of the slot of a LIN channel that the present lies in (R515). -/
def Dev.linSlotNow (d : Dev) (ch : Nat) : Int := d.hwUs / (max 1 (d.f (Off.LIN_SLOT ch) 16 0) : Nat)

/-- LIN_SLOT (R515): where a slot begins, the lowest-numbered due PDU of the channel is served. -/
def execLinSlot (ch : Nat) (s : State) : Host.Outcome State Fault Refusal :=
  .next (s.onDev (fun d =>
    if d.linOn ch = false ∨ KMap.find d.gw.linSlots ch = some (d.linSlotNow ch) then d
    else
      let c := (d.linDone ch).onGw (fun w => { w with linSlots := KMap.put w.linSlots ch (d.linSlotNow ch) })
      match c.gw.pdus.find? (fun y => y.2.medium == 2 && y.2.channel == ch && y.2.queued) with
      | none => c
      | some (n, x) =>
        let e := c.onPdu n (fun y => { y with queued := false })
        if x.isTx then
          let b := e.pduBytes n x
          b.2.emit (.linFrame ch x.id (b.1 ++ leBytes 1 (linChecksum x.id b.1)))
        else (e.emit (.linFrame ch x.id [])).onGw (fun w => { w with linWait := KMap.put w.linWait ch n })))

/-- LIN_RESPONSE (R515): accepted, or counted when its checksum fails. -/
def execLinResponse (ch : Nat) (payload : List Byte) (checksum : Nat) (s : State) : Host.Outcome State Fault Refusal :=
  .next (s.onDev (fun d =>
    match KMap.find d.gw.linWait ch with
    | none => d
    | some n =>
      let e := d.linDone ch
      match e.pdu n with
      | none => e
      | some x =>
        if checksum ≠ linChecksum x.id payload then (e.incSat (Off.LIN_CNT_ERR ch)).setB (Off.LIN_EVENTS ch) 1 true
        else if e.sgOn then e.receivePdu n x payload else e))

/-- NO_RESPONSE (R515): the RX PDU stays as it was. -/
def execNoResponse (ch : Nat) (s : State) : Host.Outcome State Fault Refusal :=
  .next (s.onDev (fun d =>
    if (KMap.find d.gw.linWait ch).isNone then d else ((d.linDone ch).incSat (Off.LIN_CNT_ERR ch)).setB (Off.LIN_EVENTS ch) 0 true))

/-! ### ACF messages that reach port 17 (R514, R517) -/

/-- One ACF message. -/
def Dev.acfMessage (d : Dev) (flow : Nat) (m : List Byte) : Dev :=
  let type := leAt m 0 1 / 2
  let fl := leAt m 2 1
  let can := fun (idAt : Nat) =>
    let ch := leAt m 3 1 % 32
    let body := m.drop (idAt + 4)
    let data := body.take (body.length - fl / 64)
    if d.canOn ch = false then (d.incSat Off.SG_CNT_TUNNEL_DENIED).setB Off.SG_EVENTS 2 true
    else if d.canSends ch then (d.emit (.canFrame ch (beAt m idAt 4 % 2 ^ 29) (nbit fl 3) (fl &&& 0x17) data)).incSat (Off.CAN_TX_FRAMES ch)
    else (d.incSat (Off.CAN_DROPS ch)).setB (Off.CAN_EVENTS ch) 3 true
  match type with
  | 0x01 => can 12
  | 0x02 => can 4
  | 0x05 => (match d.rxPdu 3 flow (beAt m 2 6) with
    | some (n, x) => d.receivePdu n x (m.drop 8)
    | none => d)
  | _ => d

/-- The ACF messages of a body, one after another; `fuel` bounds them. -/
def Dev.acfAll (d : Dev) (flow : Nat) : Nat → List Byte → Dev
  | 0, _ => d
  | fuel + 1, b =>
    let n := (beAt b 0 2 % 512) * 4
    if n = 0 ∨ b.length < n then d else (d.acfMessage flow (b.take n)).acfAll flow fuel (b.drop n)

/-- A frame delivered to port 17, whose ACF messages the signal gateway consumes; dropped while the port is down. -/
def Dev.consume (d : Dev) (flow : Nat) (f : List Byte) : Dev :=
  if !d.portUp 17 then (d.incSat (Off.GW_PORT_Q_DROP 17)).setB (Off.GW_PORT_EVENTS 17) 2 true
  else
  let d := d.incSat (Off.GW_PORT_TX_FRAMES 17)
  let o := rtagAt f
  let o := if beAt f o 2 = 0xF1C1 then o + 6 else o
  if d.sgOn && beAt f o 2 == 0x22F0 && leAt f (o + 2) 1 == 0x82 then
    d.acfAll flow (f.length + 1) ((f.drop (o + 14)).take (beAt f (o + 3) 2 % 2048))
  else d

/-! ### Reception (R503 to R506, R512, R530) -/

/-- The VLAN tag's control field, if the frame is tagged. -/
def vlanTci (f : List Byte) : Option Nat := if beAt f 12 2 = 0x8100 then some (beAt f 14 2) else none

/-- The VLAN ID for lookup (R497). -/
def Dev.lookupVid (d : Dev) (p : Nat) (f : List Byte) : Nat :=
  match vlanTci f with
  | some t => if t % 4096 = 0 then d.f (Off.GW_PORT_CTRL p) 27 16 else t % 4096
  | none => d.f (Off.GW_PORT_CTRL p) 27 16

/-- The flow a received frame matches (R503). -/
def Dev.matchFlow (d : Dev) (p : Nat) (f : List Byte) : Option (Nat × Flow) :=
  let vid := d.lookupVid p f
  let find := fun (sa : Bool) (ing : Nat) =>
    d.gw.flows.find? (fun y => y.2.kind == 1 && y.2.flag 0 == sa && y.2.at 2 1 == ing && y.2.vid == vid && slice y.2.raw 4 6 == slice f (if sa then 6 else 0) 6)
  (find false p).orElse (fun _ => (find false 0xFF).orElse (fun _ => (find true p).orElse (fun _ => find true 0xFF)))

/-- Vector recovery of 802.1CB: whether the frame is passed, and the flow after it (R506). A number outside the history is discarded too. -/
def Flow.recover (x : Flow) (seq : Nat) : Bool × Flow :=
  let h := x.at 0x26 1
  let delta := signedOf 16 (seq + 65536 - x.recSeq)
  if x.takeAny then (true, { x with takeAny := false, recSeq := seq, recHist := 1 })
  else if (h : Int) ≤ delta ∨ delta ≤ -(h : Int) then (false, x)
  else if delta ≤ 0 then
    if nbit x.recHist delta.natAbs then (false, x) else (true, { x with recHist := x.recHist + 2 ^ delta.natAbs })
  else (true, { x with recSeq := seq, recHist := (x.recHist * 2 ^ delta.natAbs + 1) % 2 ^ h })

/-- The meter's colour: 0 green, 1 yellow, 2 red (R505). -/
def Flow.meter (x : Flow) (now bytes : Nat) : Nat × Flow :=
  let c := x.at 0x14 4
  let e := x.at 0x1C 4
  if c = 0 ∧ e = 0 then (0, x)
  else
    let dt := now - x.filledAt
    let cb := min (x.at 0x18 4 * 8000000) (x.cBucket + c * dt)
    let eb := min (x.at 0x20 4 * 8000000) (x.eBucket + e * dt)
    let n := bytes * 8000000
    let y := { x with cBucket := cb, eBucket := eb, filledAt := now }
    if n ≤ cb then (0, { y with cBucket := cb - n }) else if n ≤ eb then (1, { y with eBucket := eb - n }) else (2, y)

/-- A yellow frame carries DEI when it is tagged (R505). -/
def setDei (f : List Byte) : List Byte := if (vlanTci f).isSome then splice f 14 [f.getD 14 0 ||| 0x10] else f

/-- The check value of a received frame: the sequence accepted, the frame without its trailer, and the skipped sequences; none when it fails (R530). -/
def Flow.verify (x : Flow) (f : List Byte) : Option (Nat × List Byte × Nat) :=
  let poly := x.at 0x13 1 % 8 - 1
  let n := crcWidth poly / 8
  let body := f.take (f.length - n)
  let covered := body.drop (x.at 0x24 2)
  let trailer := leNat (f.drop (f.length - n))
  (List.range (x.at 0x13 1 / 16 % 8 + 1)).findSome? (fun k =>
    let q := (x.seq + k) % 2 ^ 32
    if checkValue poly true q (x.at 0x28 4) covered == trailer then some (q, body, k) else none)

/-- What the record of a delivered frame says of it. -/
structure RxInfo where
  port : Nat
  /-- Its receive timestamp, and the low bits of OVER_COUNT then. -/
  ns : Nat
  ovr : Nat
  status : Nat
  seq : Nat
  macsec : Bool

/-- A frame goes to one egress port (R504, R531). -/
def State.toPort (s : State) (f : Nat) (x : Flow) (bytes : List Byte) (ts : Option Nat) (i : RxInfo) (p : Nat) : State :=
  if p < 14 then s.onDev (fun d => d.enqueue p x.tc { bytes := bytes, flow := f, ts := ts, pdu := none })
  else if p < 17 then s.rxDeliver ((p - 14) * 16 + x.ring) bytes i.status f i.port i.ns i.ovr i.seq i.macsec
  else s.onDev (fun d => d.consume f bytes)

/-- The timestamp tag of a forwarded frame, which the spec does not give. -/
def State.freeTag (s : State) (x : Flow) : Option Nat × State := if x.flag 1 then let t := s.dev.freeNat; (some (t.1 % 65536), s.onDev (fun _ => t.2)) else (none, s)

/-- Steps 8 and 9 of R504: numbered, and queued on its egress ports. -/
def State.forward (s : State) (f : Nat) (x : Flow) (bytes : List Byte) (ports : List Nat) (i : RxInfo) : State :=
  let a := s.dev.addRtag f x bytes
  let t := (s.onDev (fun _ => a.2.countFlow f 0)).freeTag x
  t.2.forAll ports (fun p u => u.toPort f x a.1 t.1 i p)

/-- The gate of a flow's SGATE list is closed (R504). -/
def Dev.streamClosed (d : Dev) (x : Flow) : Bool := decide (x.at 0x12 1 ≤ 63) && !nbit (d.gates (x.at 0x12 1)) 0

/-- Steps 5 to 9 of R504 for a frame of a flow. -/
def State.inFlow (s : State) (p f : Nat) (y : Flow) (frame : List Byte) (macsec : Bool) (ns : Nat) : State :=
  let info := fun (status seq : Nat) => ({ port := p, ns := ns, ovr := s.dev.over % 2 ^ 32, status := status, seq := seq, macsec := macsec } : RxInfo)
  let x := { (if y.quiet s.dev.now then y.recReset else y) with lastAt := s.dev.now }
  -- sequence recovery
  let o := rtagAt frame
  let tagged := x.flag 5 && beAt frame o 2 == 0xF1C1
  let rec_ := if tagged then x.recover (beAt frame (o + 4) 2) else (true, x)
  let s1 := s.onDev (fun d => d.onFlow f (fun _ => rec_.2))
  if !rec_.1 then s1.onDev (fun d => d.countFlow f 3)
  else
    let f1 := if tagged then frame.take o ++ frame.drop (o + 6) else frame
    -- stream filter
    let sdu := x.at 0x10 2
    if (sdu != 0 && decide (sdu < f1.length)) || s1.dev.streamClosed x then s1.onDev (fun d => d.countFlow f 1)
    else
      let m := rec_.2.meter s1.dev.now (f1.length + 4)
      let s2 := s1.onDev (fun d => d.onFlow f (fun _ => m.2))
      if m.1 = 2 ∨ (m.1 = 1 ∧ x.flag 6 = true) then s2.onDev (fun d => d.countFlow f 1)
      else
        let f2 := if m.1 = 1 then setDei f1 else f1
        -- check value
        if x.at 0x13 1 % 8 = 0 then s2.forward f m.2 f2 x.egress (info 0 0)
        else match m.2.verify f2 with
          | some (q, body, k) =>
            let y := { m.2 with seq := (q + 1) % 2 ^ 32 }
            let s3 := s2.onDev (fun d => (d.onFlow f (fun _ => y)).addSat Off.GW_CNT_SEQ_GAP k)
            s3.forward f y body x.egress (info 0 q)
          | none =>
            let s3 := s2.onDev (fun d => ((d.incSat Off.GW_CNT_CV_FAIL).setB Off.GW_EVENTS 2 true).countFlow f 2)
            let ports := if x.flag 3 then [] else x.egress.filter (fun q => decide (14 ≤ q ∧ q ≤ 16))
            if ports = [] then s3 else s3.forward f m.2 f2 ports (info 2 0)

/-- MACsec on receive: whether the frame goes on, whether it was verified, and the block after it (R512). -/
def Dev.macsecIn (d : Dev) (p : Nat) (sec : Option MacRx) : Bool × Bool × Dev :=
  if !d.b (Off.GW_PORT_CTRL p) 2 || decide (12 ≤ p) then (true, false, d)
  else
    let bad : Bool × Bool × Dev := if d.b (Off.GW_PORT_CTRL p) 3 then (false, false, (d.incSat (Off.GW_PORT_MACSEC_DROP p)).setB (Off.GW_PORT_EVENTS p) 4 true) else (true, false, d)
    match sec with
    | none => bad
    | some r =>
      match d.gw.sas.find? (fun y => !y.2.flag 1 && y.2.at 0 1 == p && y.2.at 8 8 == r.sci && y.2.at 2 1 == r.an) with
      | none => bad
      | some (n, a) =>
        if r.ok && decide (max (a.at 0x10 8) (a.pn - a.at 0x18 4) ≤ r.pn) then
          (true, true, d.onGw (fun w => { w with sas := KMap.put w.sas n { a with pn := max a.pn (r.pn + 1) } }))
        else bad

/-- The port a frame of a flow is forwarded to cut-through (R498). -/
def Dev.cutThrough (d : Dev) (p : Nat) (x : Flow) : Option Nat :=
  match x.egress with
  | [q] =>
    if decide (p ≤ 11 ∧ q ≤ 11) && x.flag 2 && x.at 0x14 4 == 0 && x.at 0x1C 4 == 0 && x.at 0x10 2 == 0 && x.at 0x13 1 % 8 == 0 && !x.flag 5 &&
        decide (portRate q ≤ portRate p) && !d.b (Off.GW_PORT_CTRL p) 2 && !d.b (Off.GW_PORT_CTRL q) 2 && (KMap.getD d.gw.queues (q * 8 + x.tc) []).isEmpty &&
        d.gateFits q x.tc (wireNs q 9280) && d.portUp q then some q else none
  | _ => none

/-- A frame forwarded cut-through: sent while it arrives, whatever its FCS turns out to be (R498); one that its stream gate shuts out is dropped. -/
def State.cutFrame (s : State) (p q f : Nat) (x : Flow) (frame : List Byte) (fcsOk : Bool) (ns : Nat) : State :=
  let c := s.onDev (fun d => d.incSat (if fcsOk then Off.GW_PORT_RX_FRAMES p else Off.GW_PORT_RX_ERR p))
  if c.dev.streamClosed x then c.onDev (fun d => d.countFlow f 1)
  else
    let a := c.dev.addRtag f x frame
    let t := (c.onDev (fun _ => a.2)).freeTag x
    t.2.onDev (fun d => ((d.countFlow f 0).sendOn q a.1 t.1 ns).incSat (Off.GW_PORT_CUT_THROUGH q))

/-- FRAME_RECEIVE (R503 to R506, R498, R512, R530): the receive steps, in order. -/
def execFrameReceive (p : Nat) (frame : List Byte) (fcsOk : Bool) (sec : Option MacRx) (skew : Int) (s : State) : Host.Outcome State Fault Refusal :=
  .next (
    if 14 ≤ p ∨ s.dev.portUp p = false ∨ s.dev.b Off.GW_CTRL 0 = false ∨ 9280 < frame.length then s
    else
      let gptp := decide (p ≤ 11) && beAt frame 12 2 == 0x88F7
      let hit := s.dev.matchFlow p frame
      match (if gptp then none else hit.bind (fun y => (s.dev.cutThrough p y.2).map (fun q => (y.1, y.2, q)))) with
      | some (f, x, q) => s.cutFrame p q f x frame fcsOk (s.dev.stamp skew)
      | none =>
        if !fcsOk then s.onDev (fun d => d.incSat (Off.GW_PORT_RX_ERR p))
        else
          let m := (s.dev.incSat (Off.GW_PORT_RX_FRAMES p)).macsecIn p sec
          let t := s.onDev (fun _ => m.2.2)
          if !m.1 then t
          else if gptp then t.rxDeliver 32 frame 0 0xFFFF p (t.dev.stamp skew) (t.dev.over % 2 ^ 32) 0 m.2.1
          else match hit with
            | some (f, x) => t.inFlow p f x frame m.2.1 (t.dev.stamp skew)
            | none =>
              let u := t.onDev (fun d => d.incSat Off.GW_CNT_MISS)
              if u.dev.f (Off.GW_PORT_CTRL p) 5 4 = 1 then u.rxDeliver 0 frame 0 0xFFFF p (u.dev.stamp skew) (u.dev.over % 2 ^ 32) 0 m.2.1 else u)

/-! ### Transmission -/

/-- Bytes of a frame's transmission beside the frame: preamble and FCS (DESIGN CHOICE, log 66). -/
def wireExtra : Nat := 12

/-- A class of a port has a frame that may be sent now: its gate is open until the frame's transmission ends (R499). -/
def Dev.classReady (d : Dev) (p tc : Nat) : Bool :=
  match KMap.getD d.gw.queues (p * 8 + tc) [] with
  | [] => false
  | q :: _ => d.gateFits p tc (wireNs p (q.bytes.length + wireExtra))

/-- The copies of a PDU's instance on other ports keep the bytes with which its transmission began (R520). -/
def Dev.fixCopies (d : Dev) (q : QFrame) (bytes : List Byte) : Dev :=
  match q.pdu with
  | none => d
  | some n => d.onGw (fun g => { g with queues := g.queues.map (fun x => (x.1, x.2.map (fun y => if y.pdu = some n then { y with bytes := bytes, pdu := none } else y))) })

/-- The head frame of a queue, as it is sent now, taken from it. -/
def Dev.takeHead (d : Dev) (p tc : Nat) : Option (QFrame × List Byte × Dev) :=
  match KMap.getD d.gw.queues (p * 8 + tc) [] with
  | [] => none
  | q :: rest =>
    let b := (d.onGw (fun g => { g with queues := KMap.put g.queues (p * 8 + tc) rest })).frameNow q
    some (q, b.1, b.2.fixCopies q b.1)

/-- A frame built by the gateway is delivered to an internal port of its flow (R504). -/
def State.deliverBuilt (s : State) (p : Nat) (q : QFrame) (bytes : List Byte) : State :=
  match s.dev.flow q.flow with
  | none => s
  | some x =>
    let a := s.dev.freeNat
    let b := a.2.freeNat
    (s.onDev (fun _ => b.2)).toPort q.flow x bytes none { port := a.1 % 256, ns := b.1, ovr := s.dev.over % 2 ^ 32, status := 0, seq := 0, macsec := false } p

/-- FRAME_TRANSMIT (R499, R512, R524): the head frame of the highest class whose gate is open and stays so long enough is sent; on an internal port,
a frame that the gateway built is delivered. -/
def execFrameTransmit (p : Nat) (secured : List Byte) (skew : Int) (s : State) : Host.Outcome State Fault Refusal :=
  .next (
    if 18 ≤ p ∨ s.dev.portUp p = false ∨ s.dev.b Off.GW_CTRL 0 = false then s
    else match ((List.range 8).reverse).find? (fun tc => s.dev.classReady p tc) with
      | none => s
      | some tc =>
        match s.dev.takeHead p tc with
        | none => s
        | some (q, bytes, e) =>
          if p < 14 then s.onDev (fun _ => e.secureSend p bytes secured q.ts (e.stamp skew)) else (s.onDev (fun _ => e)).deliverBuilt p q bytes)

/-- The checks of a SEND when it starts (R508): a status and DETAIL, or none. -/
def Dev.sendCheck (d : Dev) (inst flow bytes : Nat) : Option (Nat × Nat) :=
  match d.flow flow with
  | none => some (0x20, 0x1C)
  | some x =>
    if x.kind ≠ 2 ∨ x.egress.all (fun p => d.portThere p && d.b (Off.GW_PORT_CTRL p) 0) = false then some (0x20, 0x1C)
    else if x.at 0x30 2 ≠ inst ∧ x.at 0x30 2 ≠ 0xFFFF then some (0x22, 0)
    else if bytes ≤ x.at 0x24 2 then some (0x20, 0x22)
    else none

/-- A SEND's frame is released to the egress queues of its flow (R508, R530). -/
def State.releaseFrame (s : State) (flow tsId append : Nat) (frame : List Byte) : State :=
  match s.dev.flow flow with
  | none => s
  | some x =>
    let a := s.dev.dress flow append frame
    let f := a.2.freeNat
    let g := f.2.freeNat
    (s.onDev (fun _ => g.2)).forAll x.egress (fun p u =>
      u.toPort flow x a.1 (if x.flag 1 then some tsId else none) { port := f.1 % 256, ns := g.1, ovr := s.dev.over % 2 ^ 32, status := 0, seq := 0, macsec := false } p)

/-! ### Links (R534) -/

/-- LINK_DOWN (R499, R534): frames for that egress are dropped while the link is down. -/
def execLinkDown (p : Nat) (s : State) : Host.Outcome State Fault Refusal :=
  .next (s.onDev (fun d => if p < 14 then
    let e := (d.setB (Off.GW_PORT_STATUS p) 0 false).setB (Off.GW_PORT_EVENTS p) 1 true
    let f := (e.forEach 8 (fun tc x => x.forAll (KMap.getD x.gw.queues (p * 8 + tc) []) (fun q y => y.egressDrop p q))).when
      (decide (12 ≤ p)) (fun x => x.wn (Off.T1S_STATUS (p - 12)) 0)
    f.onGw (fun g => { g with queues := g.queues.filter (fun q => q.1 / 8 != p) })
    else d))

/-- LINK_UP (R516, R534); on a 10BASE-T1S segment PLCA runs where it is enabled. -/
def execLinkUp (p : Nat) (s : State) : Host.Outcome State Fault Refusal :=
  .next (s.onDev (fun d => if p < 14 ∧ d.portThere p = true then
    (d.setB (Off.GW_PORT_STATUS p) 0 true).when (decide (12 ≤ p)) (fun x =>
      x.setB (Off.T1S_STATUS (p - 12)) 0 (x.f (Off.T1S_CTRL (p - 12)) 1 0 == 3))
    else d))

/-! ### Captures (R525) -/

/-- TIME_CAPTURE (R525): an edge that CAP_CTRL selects is timestamped into its queue. -/
def execTimeCapture (i : Nat) (rising : Bool) (s : State) : Host.Outcome State Fault Refusal :=
  .next (s.onDev (fun d =>
    if 4 ≤ i ∨ d.b (Off.CAP_CTRL i) 0 = false ∨ nbit (d.f (Off.CAP_CTRL i) 2 1) (if rising then 0 else 1) = false then d
    else
      let q := KMap.getD d.gw.caps i []
      if 8 ≤ q.length then (d.incSat (Off.CAP_CNT_DROP i)).setB Off.GW_EVENTS 4 true
      else
        let q' := q ++ [d.nsField + d.secField % 65536 * 2 ^ 32 + (if rising then 2 ^ 48 else 0) + 2 ^ 63]
        (d.onGw (fun g => { g with caps := KMap.put g.caps i q' })).wn (Off.CAP_HEAD i) (q'.headD 0)))

/-- CAP_POP (R525): the head entry is removed. -/
def execCapPop (m : Master) (i value : Nat) (s : State) : Host.Outcome State Fault Refusal :=
  .next (s.onDev (fun d =>
    if 4 ≤ i then d.answer .error
    else match d.setupRefused m (Off.CAP_POP i) 4 with
    | some e => e
    | none =>
      let q := (KMap.getD d.gw.caps i []).tail
      (d.when (nbit value 0) (fun e => (e.onGw (fun g => { g with caps := KMap.put g.caps i q })).wn (Off.CAP_HEAD i) (q.headD 0))).answer .ok))

/-! ### Pulses (R526) -/

/-- START of a pulse output, in ns. -/
def Dev.pulseStart (d : Dev) (o : Nat) : Int :=
  (((d.n (Off.PULSE_START_SEC_LO o) + d.n (Off.PULSE_START_SEC_HI o) % 65536 * 2 ^ 32) * 1000000000 + d.n (Off.PULSE_START_NS o) : Nat) : Int)

/-- The first instant of a PERIODIC output after the present. -/
def Dev.nextPulse (d : Dev) (o : Nat) : Int :=
  let st := d.pulseStart o
  let p : Int := (max 1 (d.n (Off.PULSE_PERIOD_NS o)) : Nat)
  if d.hwNs < st then st else st + ((d.hwNs - st) / p + 1) * p

/-- An output fires, with the camera triggers it drives. -/
def Dev.firePulse (d : Dev) (o : Nat) (late : Bool) : Dev :=
  (d.emit (.pulse o (d.n (Off.PULSE_WIDTH_NS o)) (d.b (Off.PULSE_CTRL o) 2) (d.f (Off.PULSE_CTRL o) 31 16))).when late (fun e => e.setB (Off.PULSE_STATUS o) 1 true)

/-- The instant at which an output fires next. -/
def Dev.setPulse (d : Dev) (o : Nat) (t : Option Int) : Dev :=
  (d.onGw (fun g => { g with pulses := match t with | none => KMap.del g.pulses o | some x => KMap.put g.pulses o x })).setB (Off.PULSE_STATUS o) 0 t.isSome

/-- The output's instant is past: ONCE is done, PERIODIC goes on. -/
def Dev.afterPulse (d : Dev) (o : Nat) : Dev := if d.f (Off.PULSE_CTRL o) 1 0 = 2 then d.setPulse o (some (d.nextPulse o)) else d.setPulse o none

/-- An output's applied settings take effect: a START that has passed does not fire. -/
def Dev.armPulse (d : Dev) (o : Nat) : Dev :=
  let e := d.w (Off.PULSE_STATUS o) 0
  match d.f (Off.PULSE_CTRL o) 1 0 with
  | 1 => if d.hwNs < d.pulseStart o then e.setPulse o (some (d.pulseStart o))
    else ((e.setPulse o none).setB (Off.PULSE_STATUS o) 1 true).setB Off.GW_EVENTS 3 true
  | 2 => e.setPulse o (some (d.nextPulse o))
  | _ => e.setPulse o none

/-- The Ball of an output in BALL mode has begun in the running Over, its offset has passed since, and it has not fired in this Over (R25, R526). -/
def Dev.ballPulseDue (d : Dev) (o : Nat) : Bool :=
  let k := d.f (Off.PULSE_CTRL o) 13 8
  decide (k ≤ d.f Off.OVER_BALL 5 0) && decide (((d.ballStart k + d.n (Off.PULSE_PERIOD_NS o) : Nat) : Int) * subPerNs ≤ d.time.run) &&
    !d.gw.fired.contains o

/-- PULSE (R526): an output fires at its instant; in BALL mode, at the start of its Ball plus its offset, in every Over. -/
def execPulse (o : Nat) (s : State) : Host.Outcome State Fault Refusal :=
  .next (s.onDev (fun d =>
    if 8 ≤ o then d
    else if d.f (Off.PULSE_CTRL o) 1 0 = 3 then
      (if d.ballPulseDue o then (d.firePulse o false).onGw (fun g => { g with fired := o :: g.fired }) else d)
    else match KMap.find d.gw.pulses o with
      | none => d
      | some t => if t ≤ d.hwNs then (d.firePulse o false).afterPulse o else d))

/-- Hardware time has moved without a slew: an instant passed fires once, late; after a backward move the next instant is awaited (R526). The instants
of PDUs and LIN slots are counted from where time now stands (R515, R520). -/
def Dev.pulsesMoved (d : Dev) : Dev :=
  let e := d.forAll d.gw.pulses (fun x e =>
    if x.2 ≤ e.hwNs then (e.firePulse x.1 true).afterPulse x.1
    else if e.f (Off.PULSE_CTRL x.1) 1 0 = 2 then e.setPulse x.1 (some (e.nextPulse x.1)) else e)
  e.onGw (fun g => { g with
    pdus := g.pdus.map (fun y => (y.1, { y.2 with dueAt := e.pduInstant y.2.raw }))
    linSlots := g.linSlots.map (fun y => (y.1, e.linSlotNow y.1)) })

/-! ### Time writes that move hardware time (R522, R526) -/

/-- TIME_ADJ_OFFSET (R522, R24): a measured phase error. -/
def execTimeAdjOffset (m : Master) (value : Nat) (s : State) : Host.Outcome State Fault Refusal :=
  .next (s.timeWrite m Off.TIME_ADJ_OFFSET 8 (fun t => (t.adjOffset value).onDev Dev.pulsesMoved))

/-- TIME_SET (R522, R533): the write of TIME_SET_NS, with the seconds last written. -/
def execTimeSet (m : Master) (ns : Nat) (s : State) : Host.Outcome State Fault Refusal :=
  .next (s.timeWrite m Off.TIME_SET_NS 4 (fun t => (t.setTime ns).onDev Dev.pulsesMoved))

/-- SIDEBAND_ALIGNED (R24, R26, R27). -/
def execSidebandAligned (count : Nat) (err : Int) (steps balls phase : Nat) (s : State) : Host.Outcome State Fault Refusal :=
  .next (s.onDev (fun d => ((d.align count err).followGeometry steps balls phase).pulsesMoved))

end Sys2Proof.Machine
end

