-- ==== Sys2Proof/Machine/Commands.lean ====
section
/-! DEFINITION. Machine/Commands.lean: starting a command, what the opcodes without tiles do, and the commit point (R104, R116, R118 to R127, R297, R333, R350, R529, R601, R604). -/

namespace Sys2Proof.Machine

/-! ### Starting (R333, R350) -/

/-- The command has started. -/
def Dev.markStart (d : Dev) (id : Nat) : Dev :=
  d.onCmd id (fun c => { c with phase := .running, startNs := d.nsField, startOver := d.over % 2 ^ 32, startAt := d.now })

/-- The command needs a copy engine: COPY, FILL, CHECK, or a LOAD_PLAN that has not read its image (R350). -/
def Cmd.copies (c : Cmd) : Bool := c.op == 0x10 || c.op == 0x11 || c.op == 0x12 || (c.op == 0x02 && c.image.isEmpty)

/-- Copy engines in use. -/
def Dev.copiesRunning (d : Dev) : Nat := (d.cmdsWhere (fun c => c.phase == .running && c.copies)).length

/-- The command works on the page manager. -/
def Cmd.usesKv (c : Cmd) : Bool := (0x20 ≤ c.op && c.op ≤ 0x22) || !c.handles.isEmpty

/-- A command waits at its start: for the page manager, or for an earlier command that names one of its sequences (R104, R297). -/
def Dev.kvWaits (d : Dev) (id : Nat) (c : Cmd) : Bool := c.usesKv && (!d.kvReady || d.kvBlocked id c)

/-- Every sequence a RUN_PLAN names is checked and reserved, in argument order: what it may stage, or the status and DETAIL (R297, R298). -/
def Dev.kvStartAll (d : Dev) (c : Cmd) (m : List Byte) : List (Nat × Arg) → Except (Nat × Nat) (List KvUse × Dev)
  | [] => .ok ([], d)
  | (i, a) :: rest =>
    if a.kind = 2 then
      match portOf m a.port with
      | none => .error (0x20, 0x100 + i)
      | some p =>
        match d.kvStart c.inst i (a.addr % 2 ^ 32) a.len p with
        | .fail st => .error (st, if st = 0x30 then 0 else 0x100 + i)
        | .go u e =>
          match e.kvStartAll c m rest with
          | .error x => .error x
          | .ok (us, f) => .ok (u :: us, f)
    else d.kvStartAll c m rest

/-- Every tile is free for a command. -/
def Dev.tilesIdle (d : Dev) (ts : List Nat) : Bool := ts.all (fun t => (d.tile t).cmd.isNone && d.tileState t == 1)

/-- A command takes its tiles; NONPREEMPT of one that R340 or R343 keeps from pre-emption (R184). -/
def Dev.takeTiles (d : Dev) (id : Nat) (c : Cmd) : Dev :=
  let ts := c.tiles ++ c.tilesB
  (d.forAll ts (fun t e => ((((e.onTile t (fun x => { x with cmd := some id })).setF (Off.TILE_STATUS t) 2 0 2).setF (Off.TILE_STATUS t) 15 8 c.inst).setB
    (Off.TILE_STATUS t) 16 false).setB (Off.TILE_STATUS t) 18 (c.nonPreempt || d.cmdClass c == 3 || d.instSafe c.inst))).onInst c.inst (fun x =>
      { x with ranOn := x.ranOn ++ ts.filter (fun t => !x.ranOn.contains t) })

/-- `d` with the line judge changed. -/
def Dev.onJudge (d : Dev) (g : Judge → Judge) : Dev := { d with judge := g d.judge }

/-- A safety command has started and not completed (R448). -/
def Dev.safetyRuns (d : Dev) : Bool := d.cmds.any (fun x => x.2.isRun && d.instSafe x.2.inst && x.2.started)

/-- The applied shadow region is in force. -/
def Dev.takeShadow (d : Dev) : Dev :=
  d.onJudge (fun j => { j with shadowBase := d.addr Off.LJ_SHADOW_BASE_LO Off.LJ_SHADOW_BASE_HI, shadowBytes := d.n Off.LJ_SHADOW_BYTES, shadowPending := false })

/-- A change of the shadow region that waited for the last safety command has taken effect at its completion, before the next one starts (R448). -/
def Dev.settleShadow (d : Dev) : Dev := d.when (d.judge.shadowPending && !d.safetyRuns) Dev.takeShadow

/-- A RUN_PLAN that heads its stream starts on its free tiles (R297, R318, R333). -/
def State.startRun (s : State) (id : Nat) (c : Cmd) : State :=
  let d := s.dev
  let p := d.instPart c.inst
  match d.cmdPlan c with
  | none => s
  | some x =>
    if d.mayBegin p && d.headOf p c.stream id && c.load.isNone && x.residentIn c.stream && d.tilesIdle (c.tiles ++ c.tilesB) &&
        !d.kvWaits id c then
      match d.kvStartAll c x.image ((List.range c.args.length).zip c.args) with
      | .error (st, detail) => (s.finish id st detail).admitAll
      | .ok (us, e) => s.onDev (fun _ => ((e.settleShadow.markStart id).onCmd id (fun y => { y with kv := us })).takeTiles id c)
    else s

/-- A command that occupies no tiles starts (R350), one for a copy engine while their domain is ON (R559); the switch checks a SEND's flow (R508). -/
def State.startOther (s : State) (id : Nat) (c : Cmd) : State :=
  let d := s.dev
  if d.kvWaits id c || (c.copies && (decide (4 ≤ d.copiesRunning) || !d.domOn 45)) then s
  else if c.op = 0x50 then
    match d.sendCheck c.inst (c.at 0x1C 4) (c.at 0x18 2) with
    | some (st, detail) => (s.finish id st detail).admitAll
    | none => s.onDev (fun e => e.markStart id)
  else s.onDev (fun e => e.markStart id)

/-- COMMAND_START (R104, R123, R297, R333, R350, R455): an admitted command starts, unless its deadline has passed. -/
def execCommandStart (id : Nat) (s : State) : Host.Outcome State Fault Refusal :=
  .next (match s.dev.cmd id with
    | none => s
    | some c =>
      if c.phase = .admitted ∧ s.dev.late c = true then s.endCmd id 0x13
      else if c.phase = .admitted ∧ s.dev.instHeld c.inst = false ∧ (c.ordered && s.dev.earlierOpen id c false) = false then
        if c.isRun then s.startRun id c
        else if c.isDraw then s.startDraw id c
        else s.startOther id c
      else s)

/-! ### COPY, FILL and CHECK (R116, R529, R604) -/

/-- `f` on the running command with an opcode. -/
def State.onRunning (s : State) (id op : Nat) (f : Cmd → State) : State :=
  match s.dev.cmd id with
  | none => s
  | some c => if c.op = op ∧ c.phase = .running then f c else s

/-- The execution of a command has ended. -/
def State.ended (s : State) (id : Nat) : State := s.onDev (fun d => d.setPhase id .ended)

/-- A copy engine moves `n` bytes into place, `bs` of them read: up to its first refused access, which is recorded and ends the command with DENIED and no
teardown; the bytes before it are written and stay (R604). `r`: how far the reads came, at `src`. DESIGN CHOICE (log 59): bytes are written in
address order, none after the first refused access, and a read is refused before the write of the same byte. -/
def State.copyOut (s : State) (id : Nat) (c : Cmd) (src r dst n : Nat) (bs : List Byte) : State :=
  let m : Master := .qe c.inst
  let w := s.dev.world m
  let k := min r (s.dev.reach m w .write dst n)
  let t := if k = 0 then s else (s.storeAs m dst (bs.take k)).2
  if n ≤ k then t.ended id
  else (t.onDev (fun d => if r ≤ k then d.refuseAt m w .read src r else d.refuseAt m w .write dst k)).inputEnd id 0x22

/-- COPY (R115, R116, R604): the source is copied to the destination, after the header's place when it has one. -/
def execCopy (id : Nat) (ecc : Ecc) (s : State) : Host.Outcome State Fault Refusal :=
  .next (s.onRunning id 0x10 (fun c =>
    let src := c.at 0x10 8
    let n := c.at 0x20 4
    let r := s.dev.reach (.qe c.inst) (s.dev.world (.qe c.inst)) .read src n
    let t := s.onDev (fun d => if r = 0 then d else d.memEcc src ecc)
    if r ≠ 0 ∧ ecc = .uncorrectable then t.inputEnd id 0x32
    else t.copyOut id c src r (c.at 0x18 8 + 32 * (c.at 0x24 1 % 2)) n (s.bytes src r)))

/-- FILL (R115, R116, R604): the pattern is repeated from the destination. -/
def execFill (id : Nat) (s : State) : Host.Outcome State Fault Refusal :=
  .next (s.onRunning id 0x11 (fun c =>
    let n := c.at 0x18 4
    s.copyOut id c 0 n (c.at 0x10 8) n ((List.replicate (n / 8) (slice c.desc 0x20 8)).flatten)))

/-- The check value that CHECK computes: it folds unless FOLD_SEQ and FOLD_ID are both zero (R529). -/
def Cmd.checkResult (c : Cmd) (bs : List Byte) : Nat :=
  checkValue (c.at 0x1C 1) (c.at 0x30 4 != 0 || c.at 0x34 4 != 0) (c.at 0x30 4) (c.at 0x34 4) bs

/-- CHECK (R116, R529): the check value of the source, compared with EXPECTED in compare mode. -/
def execCheck (id : Nat) (ecc : Ecc) (s : State) : Host.Outcome State Fault Refusal :=
  .next (s.onRunning id 0x12 (fun c =>
    match s.readInput (.qe c.inst) (c.at 0x10 8) (c.at 0x18 4) ecc with
    | (.error st, t) => t.inputEnd id st
    | (.ok bs, t) =>
      let v := c.checkResult bs
      (t.onDev (fun d => d.onCmd id (fun y =>
        { y with result := v, status := if c.at 0x1D 1 = 1 ∧ v ≠ c.at 0x20 8 then 2 else y.status }))).ended id))

/-! ### Sequences (R294 to R297) -/

/-- A command takes what its new record needs, or completes without. -/
def State.kvMake (s : State) (id : Nat) (r : Except Nat (Nat × KvRec × Dev)) : State :=
  match r with
  | .error st => (s.finish id st 0).admitAll
  | .ok (x, k, d) => s.onDev (fun _ => d.onCmd id (fun y => { y with kvNew := some (x, k), phase := .ended }))

/-- KV_ALLOC (R294): a record, its directory pages and its initial pages are taken. -/
def execKvAlloc (id : Nat) (s : State) : Host.Outcome State Fault Refusal :=
  .next (s.onRunning id 0x20 (fun c => s.kvMake id (s.dev.kvAlloc c)))

/-- KV_FORK (R295): a record is made that shares the source's rows. -/
def execKvFork (id : Nat) (s : State) : Host.Outcome State Fault Refusal :=
  .next (s.onRunning id 0x22 (fun c => s.kvMake id (s.dev.kvFork c)))

/-- KV_FREE (R296, R297): the handle is checked; the sequence is freed at publication. -/
def execKvFree (id : Nat) (s : State) : Host.Outcome State Fault Refusal :=
  .next (s.onRunning id 0x21 (fun c =>
    if !s.dev.kvLive (c.at 0x10 4) then (s.finish id 0x20 0).admitAll
    else if !s.dev.kvMine (c.at 0x10 4) c.inst then (s.finish id 0x22 0).admitAll
    else s.ended id))

/-! ### FENCE, TIMESTAMP and SEND (R116, R508) -/

/-- FENCE (R116): execution ends once every earlier command in its scope has completed. -/
def execFence (id : Nat) (s : State) : Host.Outcome State Fault Refusal :=
  .next (s.onRunning id 0x40 (fun c => if s.dev.earlierOpen id c (c.at 0x10 1 == 1) then s else s.ended id))

/-- TIMESTAMP (R116): what it writes is taken at the commit point. -/
def execTimestamp (id : Nat) (s : State) : Host.Outcome State Fault Refusal := .next (s.onRunning id 0x41 (fun _ => s.ended id))

/-- SEND (R116, R120): the frame is read into the commit buffer. -/
def execSend (id : Nat) (ecc : Ecc) (s : State) : Host.Outcome State Fault Refusal :=
  .next (s.onRunning id 0x50 (fun c =>
    match s.readInput (.qe c.inst) (c.at 0x10 8) (c.at 0x18 2) ecc with
    | (.error st, t) => t.inputEnd id st
    | (.ok bs, t) => (t.onDev (fun d => d.onCmd id (fun y => { y with frame := some bs }))).ended id))

/-! ### Publication (R121, R127) -/

/-- A write at publication; a refused one has no effect but its record, and the command keeps its status (R604). -/
def State.publish (s : State) (c : Cmd) (a : Nat) (bs : List Byte) : State := (s.storeAs (.qe c.inst) a bs).2

/-- The 32 bytes of a result header (R127). -/
def headerBytes (c : Cmd) (status ns ovr len : Nat) : List Byte :=
  leBytes 4 c.gen ++ leBytes 2 status ++ leBytes 1 (c.ring % 16) ++ leBytes 1 c.inst ++ leBytes 4 c.seq ++ leBytes 4 len ++
    leBytes 4 ns ++ leBytes 4 ovr ++ zeros 4 ++ leBytes 4 c.gen

/-- Headers a command writes: address and bytes of data after each. -/
def Cmd.headers (c : Cmd) : List (Nat × Nat) :=
  if c.isRun || c.isDraw then (c.args.filter (fun a => a.hdr)).map (fun a => (a.addr, a.len - 32))
  else if c.op = 0x10 ∧ c.at 0x24 1 % 2 = 1 then [(c.at 0x18 8, c.at 0x20 4)]
  else []

/-- A new record is published, its GEN incremented (R291), and its handle is written to HANDLE_ADDR. -/
def State.publishNew (s : State) (c : Cmd) : State :=
  match c.kvNew with
  | none => s
  | some (x, k) => (s.kvPut x { k with gen := (k.gen + 1) % 2 ^ 32 }).publish c (c.at (if c.op = 0x20 then 0x20 else 0x18) 8) (leBytes 4 (handleOf x k.tag))

/-- The Keeper entries of a command's KIND 4 regions, in region order, unused ones left out (R429, R430). -/
def State.keeperEntries (s : State) (c : Cmd) : List (Nat × W32) :=
  (c.args.filter (fun a => a.kind == 4)).flatMap (fun a =>
    ((List.range (a.len / 8)).map (fun i => (s.le (a.addr + 8 * i) 4, BitVec.ofNat 32 (s.le (a.addr + 8 * i + 4) 4)))).filter
      (fun x => x.1 % 256 != 0xFF))

/-- Keeper setpoints are marked committed (R121, R430). -/
def State.publishEntries (s : State) (c : Cmd) : State :=
  match s.keeperEntries c with
  | [] => s
  | l => s.onDev (fun d => d.onKeeper (fun k => { k with entries := k.entries ++ [(d.over % 2 ^ 32, l)] }))

/-- Pipe `p`. -/
def Dev.pipe (d : Dev) (p : Nat) : Pipe := KMap.getD d.media.pipes p { pending := none, scanned := none }

/-- `d` with a pipe changed. -/
def Dev.onPipe (d : Dev) (p : Nat) (g : Pipe → Pipe) : Dev := d.onMedia (fun m => { m with pipes := KMap.put m.pipes p (g (d.pipe p)) })

/-- A committed surface becomes the pending frame of an enabled pipe; one that waited is skipped (R473, R474). -/
def Dev.present (d : Dev) (p : Nat) (x : Surface) : Dev :=
  if d.b (Off.DISP_CTRL p) 0 then
    let e := d.when (d.pipe p).pending.isSome (fun y => (y.incSat (Off.DISP_CNT_SKIP p)).setB (Off.DISP_EVENTS p) 2 true)
    (e.onPipe p (fun y => { y with pending := some x })).setB (Off.DISP_STATUS p) 2 true
  else d

/-- The PRESENT records of a list that completes with OK (R473). -/
def Dev.presents (d : Dev) (c : Cmd) (status : Nat) : Dev :=
  if c.isDraw ∧ status = 0 then
    d.forAll ((List.range ((recCount c.draw.list).getD 0)).filter (fun i => recType c.draw.list i == 6)) (fun i e =>
      match c.target c.draw.list (recF c.draw.list i 1 1) with
      | none => e
      | some x => e.present (recF c.draw.list i 2 1) x)
  else d

/-- The 16 bytes of TIMESTAMP (R116). -/
def Dev.stampBytes (d : Dev) : List Byte := leBytes 4 d.nsField ++ leBytes 6 d.secField ++ zeros 2 ++ leBytes 4 (d.over % 2 ^ 32)

/-- The outputs written at publication: CHECK's result, FENCE's value, TIMESTAMP (R121, R529). -/
def State.publishOutputs (s : State) (c : Cmd) : State :=
  match c.op with
  | 0x12 => if c.at 0x28 8 = 0 then s else s.publish c (c.at 0x28 8) (leBytes 8 c.result)
  | 0x40 => if c.at 0x18 8 = 0 then s else s.publish c (c.at 0x18 8) (slice c.desc 0x20 8)
  | 0x41 => s.publish c (c.at 0x10 8) s.dev.stampBytes
  | _ => s

/-- LOAD_PLAN registers its plan, resident in the banks its load took (R116, R326, R600); a pinned one whose load a recompute gave up is to be reloaded
(R320). -/
def Dev.registerPlan (d : Dev) (c : Cmd) : Dev :=
  let n := d.sched.clock + 1
  { d with
    sched := { d.sched with clock := n }
    plans := d.plans ++ [{ inst := c.inst, planId := c.planId, addr := c.at 0x18 8, crc := c.crc, image := c.image, code := c.code
                           pinned := nbit (c.at 0x20 1) 1, resident := c.load.elim [] (fun l => l.holds c.image)
                           reload := if c.load.isNone && nbit (c.at 0x20 1) 1 && imgRes c.image != 0 then some Load.waiting else none, order := n
                           lastUse := n, banks := c.load.elim [] (fun l => l.taken), evictDue := none }] }

/-- What the commit of a plan operation does to the tables. -/
def Dev.commitPlan (d : Dev) (c : Cmd) : Dev :=
  match c.op with
  | 0x02 => d.registerPlan c
  | 0x03 => d.evictAtCommit c.inst c.planId (nbit (c.at 0x14 1) 0)
  | _ => d

/-- The frame of a SEND is released (R121, R508). -/
def State.publishFrame (s : State) (c : Cmd) : State :=
  match c.frame with
  | none => s
  | some f => s.releaseFrame (c.at 0x1C 4) (c.at 0x20 2) (c.at 0x22 1) f

/-- The status of a command that commits: VOID_ROWS, CHECK_FAIL or OK (R131). -/
def Cmd.finalStatus (c : Cmd) : Nat := if c.status ≠ 0 then c.status else if c.voidRows then 1 else 0

/-- Publication in the order of R121, from the commit point on. -/
def State.publishAll (s : State) (id : Nat) (c : Cmd) : State :=
  let st := c.finalStatus
  let ns := s.dev.nsField
  let ovr := s.dev.over % 2 ^ 32
  let t1 := (s.forAll c.kv (fun u t => t.kvPublish u)).publishNew c
  let t2 := if c.op = 0x21 then t1.kvFreeSeq (c.at 0x10 4) else t1
  let t3 := (t2.forAll c.headers (fun h t => t.publish c h.1 (headerBytes c st ns ovr h.2))).publishEntries c
  let t4 := (t3.publishFrame c).publishOutputs c
  let t5 := t4.onDev (fun d => (d.commitPlan c).presents c st)
  ((t5.writeRecord c st 0).onDev (fun d => ((d.cplInterrupt c).drawEnd id c true).dropCmd id)).admitAll

/-- A LOAD_PLAN whose number or table entry has gone to another command since its check. -/
def Dev.registerFails (d : Dev) (c : Cmd) : Option Nat :=
  if c.op ≠ 0x02 then none
  else if (d.plan c.inst c.planId).isSome then some 0x20
  else if 64 ≤ (d.plans.filter (fun p => p.inst == c.inst)).length then some 0x31
  else none

/-- The command's execution had ended when a decision was made at this very instant: the commit ranks before it (R344). -/
def Dev.commitFirst (d : Dev) (c : Cmd) : Bool :=
  (match c.phase with | .stopping _ => true | _ => false) && c.decided.any (fun x => x.ended && x.instant == d.now)

/-- COMMIT (R119 to R127, R601): a command whose execution has ended releases its tiles, takes its status, and is published; one whose deadline has passed
ends with TIMEOUT instead (R123). A decision of the same instant is void (R344). -/
def execCommitPoint (id : Nat) (s : State) : Host.Outcome State Fault Refusal :=
  .next (match s.dev.cmd id with
    | none => s
    | some c =>
      if c.phase = .ended ∧ s.dev.late c = true then s.endCmd id 0x13
      else if c.phase = .ended ∨ s.dev.commitFirst c = true then
        match s.dev.registerFails c with
        | some st => (s.finish id st 0).admitAll
        | none => ((s.releaseTiles id).onDev (fun d => d.discardAhead c)).publishAll id c
      else s)

end Sys2Proof.Machine
end

