-- ==== Sys2Proof/Machine/Media.lean ====
section
/-! DEFINITION. Machine/Media.lean: display pipes and camera inputs (R473 to R486, R492, R493). -/

namespace Sys2Proof.Machine

/-! ### Display pipes (R474 to R480) -/

/-- The pipe is enabled. -/
def Dev.pipeOn (d : Dev) (p : Nat) : Bool := decide (p < 6) && d.domOn (30 + p / 3) && d.b (Off.DISP_CTRL p) 0

/-- STATE of a pipe: 0 OFF, 1 TRAINING, 2 RUNNING, 3 LINK_DOWN. -/
def Dev.pipeState (d : Dev) (p k : Nat) : Dev := d.setF (Off.DISP_STATUS p) 1 0 k

/-- DISPLAY_LATCH (R474): the pipe takes its pending frame, or scans its current frame again. A publication of the same instant is reported
before it. -/
def execDisplayLatch (p : Nat) (s : State) : Host.Outcome State Fault Refusal :=
  .next (s.onDev (fun d =>
    if d.pipeOn p then
      let e := ((d.wn (Off.DISP_LATCH_NS p) d.nsField).wn (Off.DISP_LATCH_OVER p) (d.over % 2 ^ 32)).setB (Off.DISP_STATUS p) 3 true
      match (d.pipe p).pending with
      | none => (e.incSat (Off.DISP_CNT_REPEAT p)).setB (Off.DISP_EVENTS p) 1 true
      | some x =>
        ((((e.onPipe p (fun _ => { pending := none, scanned := some x })).setB (Off.DISP_STATUS p) 2 false).setB (Off.DISP_EVENTS p) 0 true).wn
          (Off.DISP_SCAN_ADDR p) x.addr)
    else d))

/-- Bits per component that a pipe sends. -/
def Dev.pipeBits (d : Dev) (p : Nat) : Nat := if d.b (Off.DISP_CTRL p) 1 then 10 else 8

/-- A component of a texel as a pipe sends it (R479): a code of the pipe's own width goes as it is; RGBA16F is clamped and rounded to nearest
even; for another width the spec states no conversion, and `free` picks the neighbour. -/
def sendChannel (fmt k texel bits free : Nat) : Nat :=
  if fmt = 3 then unormRne bits (fp16.value (chanCode 3 k texel))
  else if chanBits fmt k = bits then chanCode fmt k texel
  else unormFree bits (unormValue (chanBits fmt k) (chanCode fmt k texel)) free

/-- The border colour in a pipe's width; R in the low field. PRESUMED (log 31). -/
def borderChannel (border k bits free : Nat) : Nat :=
  if bits = 10 then nfld border (10 * k + 9) (10 * k) else unormFree 8 (unormValue 10 (nfld border (10 * k + 9) (10 * k))) free

/-- The bytes of one pixel sent (R480): 3 for 8 bits, 4 for 10 bits, little-endian. -/
def pixelBytes (bits : Nat) (rgb : List Nat) : List Byte :=
  leBytes (if bits = 10 then 4 else 3) (((List.range 3).map (fun k => rgb.getD k 0 * 2 ^ (bits * k))).sum)

/-- The pixel that a pipe sends at a place of the region scanned; beyond its surface, or without one, the spec states none. -/
def Dev.sentPixel (d : Dev) (p : Nat) (surf : Option Surface) (data : Option (List Byte)) (late : List (Nat × Nat)) (x y n : Nat) : List Byte :=
  let bits := d.pipeBits p
  let free := fun k => (Config.freeWord (d.fresh + n * 3 + k)).toNat
  pixelBytes bits ((List.range 3).map (fun k =>
    match surf with
    | none => free k % 2 ^ bits
    | some s =>
      if s.width ≤ x ∨ s.height ≤ y then free k % 2 ^ bits
      else match data with
        | none => borderChannel (d.n (Off.DISP_BORDER p)) k bits (free k)
        | some bs =>
          if late.contains (x, y) then borderChannel (d.n (Off.DISP_BORDER p)) k bits (free k)
          else sendChannel s.fmt k (leAt bs (y * s.pitch + x * texelBytes s.fmt) (texelBytes s.fmt)) bits (free k)))

/-- The pixels sent that lie in the region of interest, in scan order (R480, R492). -/
def Dev.roi (d : Dev) (p : Nat) : List (Nat × Nat) :=
  let x0 := d.f (Off.DISP_ROI_POS p) 15 0
  let y0 := d.f (Off.DISP_ROI_POS p) 31 16
  (List.range (min (d.f (Off.DISP_ROI_SIZE p) 31 16) (d.f (Off.DISP_V p) 15 0 - y0))).flatMap (fun dy =>
    (List.range (min (d.f (Off.DISP_ROI_SIZE p) 15 0) (d.f (Off.DISP_H p) 15 0 - x0))).map (fun dx => (x0 + dx, y0 + dy)))

/-- DISPLAY_FRAME_END (R479, R480): a frame of an enabled pipe has been sent: its underrun is counted, and its CRC latched. -/
def execDisplayFrameEnd (p : Nat) (late : List (Nat × Nat)) (s : State) : Host.Outcome State Fault Refusal :=
  .next (if s.dev.pipeOn p then
    let surf := (s.dev.pipe p).scanned
    let r := match surf with | none => (none, s) | some x => s.readAs (.display p) x.addr x.bytes
    r.2.onDev (fun d =>
      let under := surf.isSome && (r.1.isNone || !late.isEmpty)
      let e := ((d.incWrap (Off.DISP_FRAMES p)).setB (Off.DISP_STATUS p) 3 false).when under (fun f =>
        (f.incSat (Off.DISP_CNT_UNDERRUN p)).setB (Off.DISP_EVENTS p) 3 true)
      if d.b (Off.DISP_CTRL p) 2 then
        let px := d.roi p
        let bs := ((List.range px.length).zip px).flatMap (fun q => d.sentPixel p surf r.1 late q.2.1 q.2.2 q.1)
        { ((e.wn (Off.DISP_CRC p) (crcOf 0 bs)).wn (Off.DISP_CRC_FRAME p) (e.n (Off.DISP_FRAMES p))) with fresh := d.fresh + 3 * px.length }
      else e)
    else s)

/-- DISPLAY_LINK_TRAINED (R492): the pipe passes to RUNNING. -/
def execDisplayLinkTrained (p : Nat) (s : State) : Host.Outcome State Fault Refusal :=
  .next (s.onDev (fun d => d.when (d.pipeOn p) (fun e => e.pipeState p 2)))

/-- DISPLAY_LINK_DOWN (R492): the link is lost. -/
def execDisplayLinkDown (p : Nat) (s : State) : Host.Outcome State Fault Refusal :=
  .next (s.onDev (fun d => d.when (d.pipeOn p) (fun e => (e.pipeState p 3).setB (Off.DISP_EVENTS p) 4 true)))

/-- A pipe that is disabled drops its holds and its pending frame (R478). -/
def Dev.pipeOff (d : Dev) (p : Nat) : Dev := (d.onPipe p (fun _ => { pending := none, scanned := none })).wn (Off.DISP_STATUS p) 0

/-! ### Camera inputs (R481 to R486) -/

/-- Camera input `c`. -/
def Dev.camera (d : Dev) (c : Nat) : Camera := KMap.getD d.media.cameras c { frames := 0, lastStart := none, cur := none }

/-- `d` with a camera input changed. -/
def Dev.onCamera (d : Dev) (c : Nat) (g : Camera → Camera) : Dev := d.onMedia (fun m => { m with cameras := KMap.put m.cameras c (g (d.camera c)) })

/-- Buffers of an output (R485, R493). -/
def Dev.camBufs (d : Dev) (c o : Nat) : Nat := match d.effF (Off.CAM_OUT_CTRL c o) 5 4 with | 0 => 16 | k => 2 ^ k

/-- Bytes of an output's frame (R484). -/
def Dev.camBytes (d : Dev) (c o : Nat) : Nat :=
  let n := d.effF (Off.CAM_OUT_SIZE c o) 15 0 * d.effF (Off.CAM_OUT_SIZE c o) 31 16
  match d.effF (Off.CAM_OUT_CTRL c o) 3 1 with | 0 => n * 3 / 2 | 1 => n * 3 | 2 => n * 8 | 3 => n * 8 | _ => n

/-- STATUS of a frame: the worst of DENIED, CHECK_FAIL, TIMEOUT decides (R486). -/
def camStatus (denied checkFail timeout : Bool) : Nat := if denied then 0x22 else if checkFail then 2 else if timeout then 0x13 else 0

/-- One output's frame ends: its bytes are written, then its record, then the producer index (R485, R486). -/
def State.camOutput (s : State) (c o : Nat) (f : CamFrame) (e : CamEnd) (timeout : Bool) : State :=
  let d := s.dev
  let i := d.n (Off.CAM_PROD c o) % d.camBufs c o
  let base := d.effAddr (Off.CAM_BUF_BASE_LO c o) (Off.CAM_BUF_BASE_HI c o) + i * (d.eff (Off.CAM_BUF_STRIDE c o)).toNat
  let height := d.effF (Off.CAM_SIZE c) 31 16
  let short := decide (e.lines < height)
  let bs := ((KMap.find e.data o).getD []).take (d.camBytes c o)
  let w := if bs = [] then (true, s) else s.storeAs (.camera c) base bs
  let t := if w.1 && short && decide (bs.length < d.camBytes c o) && (w.2.dev.verdict (.camera c) (w.2.dev.world (.camera c)) .write base (d.camBytes c o) == .ok)
    then w.2.fillFree (base + bs.length) (d.camBytes c o - bs.length) else w.2
  let bad := decide (0 < e.errors)
  let st := camStatus (!w.1) bad (timeout || short)
  let rec_ := leBytes 4 f.number ++ leBytes 2 st ++ leBytes 1 i ++ leBytes 1 (cond short 1 0 + cond bad 2 0) ++ leBytes 4 f.sofNs ++
    leBytes 4 d.nsField ++ leBytes 4 f.sofOver ++ leBytes 4 (d.over % 2 ^ 32) ++ leBytes 2 (min e.lines height) ++
    leBytes 2 (min e.errors 0xFFFF) ++ leBytes 4 (if w.1 then bs.length else 0)
  let u := (t.storeAs (.camera c) (d.effAddr (Off.CAM_REC_BASE_LO c o) (Off.CAM_REC_BASE_HI c o) + i * 32) rec_).2
  u.onDev (fun x => ((x.incWrap (Off.CAM_PROD c o)).when (!w.1) (fun y => y.setB (Off.CAM_EVENTS c) 3 true)))

/-- The frame that an input receives ends (R486). -/
def State.camEnd (s : State) (c : Nat) (e : CamEnd) (timeout : Bool) : State :=
  match (s.dev.camera c).cur with
  | none => s
  | some f =>
    let short := decide (e.lines < s.dev.effF (Off.CAM_SIZE c) 31 16)
    (s.forAll f.outs (fun o t => t.camOutput c o f e timeout)).onDev (fun d =>
      let x := ((d.onCamera c (fun y => { y with cur := none })).setB (Off.CAM_STATUS c) 1 false).addSat (Off.CAM_CNT_ERR c) e.errors
      let y := (x.when (decide (0 < e.errors)) (fun z => z.setB (Off.CAM_EVENTS c) 1 true)).when (timeout || short) (fun z => z.setB (Off.CAM_EVENTS c) 2 true)
      y.takeApplied (Off.CAM_CTRL c) (Off.CAM_CTRL c + 0xC0))

/-- CAMERA_FRAME_END (R486): the frame-end packet. -/
def execCameraFrameEnd (c : Nat) (e : CamEnd) (s : State) : Host.Outcome State Fault Refusal := .next (s.camEnd c e false)

/-- How long after its last line a frame ends, in ns (R486). -/
def camIdleNs : Nat := 100000000

/-- CAMERA_FRAME_TIMEOUT (R486): 100 ms have passed since the last line, and so since the frame's start. -/
def execCameraFrameTimeout (c : Nat) (e : CamEnd) (s : State) : Host.Outcome State Fault Refusal :=
  .next (if (s.dev.camera c).lastStart.any (fun t => decide (t + camIdleNs ≤ s.dev.now)) then s.camEnd c e true else s)

/-- A frame is dropped and counted. -/
def Dev.camDrop (d : Dev) (c : Nat) : Dev := d.incSat (Off.CAM_CNT_DROP c)

/-- A frame that starts less than 1 / MAX_FPS after the previous one (R482). -/
def Dev.camTooSoon (d : Dev) (c : Nat) : Bool :=
  match (d.camera c).lastStart with
  | none => false
  | some t => decide ((d.now - t) * d.effF (Off.CAM_CTRL c) 23 16 < 1000000000)

/-- Each enabled output takes the frame, or drops it when its buffers are all with the software (R485). -/
def Dev.camTake (d : Dev) (c : Nat) : List Nat × Dev :=
  let on := (List.range 2).filter (fun o => d.effB (Off.CAM_OUT_CTRL c o) 0)
  let full := on.filter (fun o => (d.n (Off.CAM_PROD c o) + 2 ^ 32 - d.n (Off.CAM_CONS c o) % 2 ^ 32) % 2 ^ 32 == d.camBufs c o)
  (on.filter (fun o => !full.contains o), d.forAll full (fun _ e => (e.camDrop c).setB (Off.CAM_EVENTS c) 0 true))

/-- CAMERA_FRAME_START (R481, R482, R483, R485, R486): a frame still open ends in TIMEOUT; the new one is counted, and is dropped, or reads its
parameters and takes its buffers. -/
def execCameraFrameStart (c : Nat) (prev : CamEnd) (s : State) : Host.Outcome State Fault Refusal :=
  .next (let t := s.camEnd c prev true
    if t.dev.effB (Off.CAM_CTRL c) 0 && decide (c < 8 * t.dev.ioDies) && t.dev.domOn (33 + c / 8) then
      let u := t.onDev (fun d => d.onCamera c (fun x => { x with frames := (x.frames + 1) % 2 ^ 32 }))
      if t.dev.camTooSoon c then u.onDev (fun d => d.camDrop c)
      else
        let q := u.readAs (.camera c) (u.dev.effAddr (Off.CAM_PARAM_LO c) (Off.CAM_PARAM_HI c)) 4096
        q.2.onDev (fun d =>
          let r := d.camTake c
          (r.2.onCamera c (fun x => { x with
            lastStart := some d.now
            cur := some { number := x.frames, sofNs := d.nsField, sofOver := d.over % 2 ^ 32, outs := r.1, params := q.1 } })).setB (Off.CAM_STATUS c) 1 true)
    else t)

/-- CAMERA_LINK_UP (R493). -/
def execCameraLinkUp (c : Nat) (s : State) : Host.Outcome State Fault Refusal :=
  .next (s.onDev (fun d => d.when (decide (c < 8 * d.ioDies)) (fun e => e.setB (Off.CAM_STATUS c) 0 true)))

/-- CAMERA_LINK_DOWN (R493). -/
def execCameraLinkDown (c : Nat) (s : State) : Host.Outcome State Fault Refusal :=
  .next (s.onDev (fun d => d.when (decide (c < 8 * d.ioDies)) (fun e => (e.setB (Off.CAM_STATUS c) 0 false).setB (Off.CAM_EVENTS c) 4 true)))

end Sys2Proof.Machine
end

