-- ==== Sys2Proof/Machine/Cores.lean ====
section
/-! DEFINITION. Machine/Cores.lean: the world extension of the application cluster's cores (R537 to R543). -/

namespace Sys2Proof.Machine

/-! ### Core state -/

/-- Integer register `r` of a core; x0 reads 0. -/
def Core.xr (c : Core) (r : Nat) : W64 := if r = 0 then 0 else KMap.getD c.x r 0

/-- `c` with integer register `r` written; a write to x0 is discarded. -/
def Core.setX (c : Core) (r : Nat) (v : W64) : Core := if r = 0 then c else { c with x := KMap.put c.x r v }

/-- CSR wstatus: bit 0 is WORLD (R537, R543). -/
def Core.wstatus (c : Core) : W64 := if c.secure then 1 else 0

/-- `n` bytes from `a` lie in ranges of memory type of world `w` (R539, R541, R543). -/
def Dev.worldMem (d : Dev) (w : Bool) (a n : Nat) : Bool := d.attrAll a n (fun x => !x.device && x.secure == w)

/-! ### Traps -/

/-- A trap of a core into machine mode of the world in which it stands (R540): the normal world's trap registers, or the secure world's
and wtvec; the saved pc, the cause and the value. Machine mode is never virtual (R7; log 62). -/
def Core.trap (c : Core) (cause : Nat) (tval : W64) : Core :=
  if c.secure then { c with wepc := c.pc, wcause := BitVec.ofNat 64 cause, wtval := tval, priv := 3, virt := false, pc := c.wtvec &&& ~~~ 3 }
  else { c with mepc := c.pc, mcause := BitVec.ofNat 64 cause, mtval := tval, priv := 3, virt := false, pc := c.mtvec &&& ~~~ 3 }

/-- A world fault: cause 24 with the target address, logged with KIND 5 (R540). -/
def Dev.worldFault (d : Dev) (n : Nat) (target : W64) : Dev :=
  (((d.setB Off.WLD_EVENTS 4 true).wldLog 5 (.core n) 0 target.toNat)).onCore n (fun c => c.trap 24 target)

/-- An illegal-instruction exception; what its trap value register holds is open. -/
def Dev.illegal (d : Dev) (n : Nat) : Dev :=
  ({ d with fresh := d.fresh + 1 }).onCore n (fun c => c.trap 2 (Config.freeWord64 d.fresh))

/-- Control goes to an address that the core fetches from: one in a range of its own world, else a world fault (R537, R539). -/
def Dev.goto (d : Dev) (n : Nat) (target : W64) (priv : Nat) (virt : Bool) : Dev :=
  if (d.attr target.toNat).secure = (d.core n).secure then d.onCore n (fun c => { c with pc := target, priv := priv, virt := virt && priv != 3 })
  else d.worldFault n target

/-- The next instruction in sequence follows. -/
def Dev.advance (d : Dev) (n : Nat) : Dev := d.goto n ((d.core n).pc + 4) (d.core n).priv (d.core n).virt

/-! ### The save frame (R542) -/

/-- The number of vector CSRs in the frame: vstart, vxsat, vxrm, vcsr, vl, vtype, vlenb. -/
def vecCsrs : Nat := 7

/-- The 2 KiB frame's contents in the order of R542; the offsets, and the virtualization mode beside the privilege, are DESIGN CHOICE (logs 41, 62). -/
def Core.frame (c : Core) : List Byte :=
  (List.range 31).flatMap (fun i => leBytes 8 (c.xr (i + 1)).toNat) ++ (List.range 32).flatMap (fun i => leBytes 8 (KMap.getD c.f i 0).toNat) ++
    leBytes 8 c.fcsr.toNat ++ (List.range 32).flatMap (fun i => leBytes 32 (KMap.getD c.v i 0).toNat) ++
    (List.range vecCsrs).flatMap (fun i => leBytes 8 (c.vcsr.getD i 0).toNat) ++ leBytes 8 c.pc.toNat ++ leBytes 8 (c.priv % 4 + cond c.virt 4 0)

/-- A sparse register file read from `n` words of `size` bytes of a frame. -/
def framePart {w : Nat} (b : List Byte) (off n size first : Nat) : KMap (BitVec w) :=
  (List.range n).map (fun i => (i + first, BitVec.ofNat w (leAt b (off + i * size) size)))

/-- The context in a frame is restored in the normal world (R542). -/
def Core.restore (c : Core) (b : List Byte) : Core :=
  { c with
    secure := false
    x := framePart b 0 31 8 1
    f := framePart b 248 32 8 0
    fcsr := BitVec.ofNat 64 (leAt b 504 8)
    v := framePart b 512 32 32 0
    vcsr := (List.range vecCsrs).map (fun i => BitVec.ofNat 64 (leAt b (1536 + i * 8) 8))
    pc := BitVec.ofNat 64 (leAt b 1592 8)
    priv := leAt b 1600 8 % 4
    virt := nbit (leAt b 1600 8) 2 && leAt b 1600 8 % 4 != 3 }

/-- wsave names a frame: 2 KiB-aligned, in secure memory-type ranges (R543). -/
def Dev.frameAt (d : Dev) (a : Nat) : Bool := a % 2048 == 0 && d.worldMem true a 2048

/-- A core in the normal world takes the oldest secure interrupt that waits, if wsave names a frame (R542, R543). -/
def State.serveSecure (s : State) (n : Nat) : State :=
  let c := s.dev.core n
  match c.pendSecure with
  | [] => s
  | cause :: rest =>
    if c.secure || !s.dev.frameAt c.wsave.toNat || !s.dev.coreRuns n then s
    else
      let t := s.onDev (fun d => d.onCore n (fun x =>
        { x with secure := true, priv := 3, virt := false, pendSecure := rest, wepc := x.pc, wcause := BitVec.ofNat 64 cause, pc := x.wtvec &&& ~~~ 3
                 x := [], f := [], fcsr := 0, v := [], vcsr := [] }))
      (t.storeAs (.core n) c.wsave.toNat c.frame).2

/-! ### The instructions -/

/-- `f` on a running core. -/
def State.onCoreRun (s : State) (n : Nat) (f : State → State) : State := if s.dev.coreRuns n then f s else s

/-- GATE (R538): a no-op. -/
def execGate (n : Nat) (s : State) : Host.Outcome State Fault Refusal := .next (s.onCoreRun n (fun t => t.onDev (fun d => d.advance n)))

/-- The GATE encoding (R538). -/
def gateWord : Nat := 0x700B

/-- The target of a WGATE is 4-byte aligned, in a secure memory-type range, and holds a GATE (R539). -/
def State.gateAt (s : State) (a : Nat) : Bool := a % 4 == 0 && s.dev.worldMem true a 4 && s.le a 4 == gateWord

/-- WGATE (R538, R539): enters the secure world after the GATE at the address in rs1; a world fault otherwise; illegal in the secure world. -/
def execWgate (n rd rs1 : Nat) (s : State) : Host.Outcome State Fault Refusal :=
  .next (s.onCoreRun n (fun t =>
    let c := t.dev.core n
    let a := c.xr rs1
    if c.secure then t.onDev (fun d => d.illegal n)
    else if t.gateAt a.toNat then
      t.onDev (fun d => d.onCore n (fun x =>
        { x.setX rd (x.pc + 4) with secure := true, priv := 3, virt := false, gatePriv := x.priv, gateVirt := x.virt, wepc := ((x.pc + 4) &&& ~~~ 3) ||| BitVec.ofNat 64 (x.priv % 4), pc := a + 4 }))
    else t.onDev (fun d => d.worldFault n a)))

/-- Registers that WRET keeps: x1, x2 and x10 to x17 (R541). -/
def wretKeeps (r : Nat) : Bool := r == 1 || r == 2 || decide (10 ≤ r ∧ r ≤ 17)

/-- WRET (R538, R541, R542): with x0 it resumes the saved context; else it returns to the normal address in rs1; illegal in the normal world.
A secure interrupt that waits is then taken. -/
def execWret (n rs1 : Nat) (s : State) : Host.Outcome State Fault Refusal :=
  .next (s.onCoreRun n (fun t =>
    let c := t.dev.core n
    if !c.secure then t.onDev (fun d => d.illegal n)
    else if rs1 = 0 then
      match t.readAs (.core n) c.wsave.toNat 2048 with
      | (none, u) => u
      | (some b, u) => (u.onDev (fun d => d.onCore n (fun x => x.restore b))).serveSecure n
    else
      let a := c.xr rs1
      if t.dev.worldMem false a.toNat 1 then
        (t.onDev (fun d => d.onCore n (fun x =>
          { x with secure := false, priv := x.gatePriv, virt := x.gateVirt, pc := a, x := x.x.filter (fun p => wretKeeps p.1), f := [], v := [] }))).serveSecure n
      else t.onDev (fun d => d.worldFault n a)))

/-- SECURE_INTERRUPT (R542, R543): taken at once in the normal world while wsave names a frame; else it stays pending. -/
def execSecureInterrupt (n cause : Nat) (s : State) : Host.Outcome State Fault Refusal :=
  .next (s.onCoreRun n (fun t => (t.onDev (fun d => d.onCore n (fun c =>
    { c with pendSecure := if cause ∈ c.pendSecure then c.pendSecure else c.pendSecure ++ [cause] }))).serveSecure n))

/-- WSAVE_WRITE (R543): a write to wsave in secure machine mode; one that names no frame is ignored; elsewhere it is illegal. -/
def execWsaveWrite (n : Nat) (value : W64) (s : State) : Host.Outcome State Fault Refusal :=
  .next (s.onCoreRun n (fun t => t.onDev (fun d =>
    if (d.core n).secure ∧ (d.core n).priv = 3 then
      (d.when (d.frameAt value.toNat) (fun e => e.onCore n (fun c => { c with wsave := value }))).advance n
    else d.illegal n)))

/-- CONTROL_TRANSFER (R537, R539, R540): a branch, jump, trap return or the next instruction in sequence. -/
def execControlTransfer (n target priv : Nat) (s : State) : Host.Outcome State Fault Refusal :=
  .next (s.onCoreRun n (fun t => t.onDev (fun d => d.goto n (BitVec.ofNat 64 target) (priv % 4) (nbit priv 2))))

end Sys2Proof.Machine
end

