-- ==== Sys2Proof/Machine/Judge.lean ====
section
/-! DEFINITION. Machine/Judge.lean: the line judge, the lockstep pairs with their debug access, and the periodic self-test (R431 to R451). -/

namespace Sys2Proof.Machine

/-! ### Predicates (R433) -/

/-- BOUND for one pair of values; an infinity agrees with an equal one only (DEDUCED, log 40). -/
def JudgeEntry.bound (j : JudgeEntry) (a b : Num) : Bool :=
  match a, b with
  | .nan, .nan => j.flags % 2 == 1
  | .nan, _ => false
  | _, .nan => false
  | .inf x, .inf y => x == y
  | .inf _, _ => false
  | _, .inf _ => false
  | _, _ => ((a.add b.neg).abs).le ((f32v j.abs).add ((f32v j.rel).mul (a.abs.max b.abs)))

/-- `x ≥ y − ABS`. -/
def JudgeEntry.near (j : JudgeEntry) (x y : Num) : Bool := (y.add (f32v j.abs).neg).le x

/-- The indices of a row, the largest value first, ties to the lower index. -/
def ranking (row : List Num) : List Nat :=
  (List.range row.length).mergeSort (fun i k =>
    !((row.getD i .nan).lt (row.getD k .nan)) && ((row.getD k .nan).lt (row.getD i .nan) || decide (i ≤ k)))

/-- ARGMAX and TOPK for one row (R433); ARGMAX is judged by each copy's largest value. -/
def JudgeEntry.row (j : JudgeEntry) (a b : List Num) : Bool :=
  if (a ++ b).any Num.isNan then false
  else if j.pred = 2 then
    let ia := (ranking a).headD 0
    let ib := (ranking b).headD 0
    ia == ib || (j.near (b.getD ia .nan) (b.getD ib .nan) && j.near (a.getD ib .nan) (a.getD ia .nan))
  else
    let sa := (ranking a).take j.k
    let sb := (ranking b).take j.k
    let ka := a.getD (sa.getLastD 0) .nan
    let kb := b.getD (sb.getLastD 0) .nan
    (sa.filter (fun i => !sb.contains i)).all (fun i => j.near (b.getD i .nan) kb) &&
      (sb.filter (fun i => !sa.contains i)).all (fun i => j.near (a.getD i .nan) ka)

/-- The element values of a port in one copy's bytes, scales included (R201, R433). -/
def Port.values (p : Port) (bs : List Byte) : List Num :=
  (List.range p.count).map (fun i => (convOf p.fmt).value bs (if p.isScaled then bs.drop p.scaleOff else []) i)

/-- The first index below `n` at which `f` is false. -/
def firstFail (n : Nat) (f : Nat → Bool) : Option Nat := (List.range n).find? (fun i => !f i)

/-- The index of the first failing row or element of a judged port, or none where the copies agree (R433). -/
def judgePort (p : Port) (j : JudgeEntry) (a b : List Byte) : Option Nat :=
  if j.pred = 4 then (firstFail p.length (fun i => a.getD i 0 == b.getD i 0)).map (fun i => i * 8 / max 1 (fmtBits (p.fmt % 16)))
  else if p.kind = 4 then
    firstFail (p.length / 8) (fun i => slice a (8 * i) 4 == slice b (8 * i) 4 && j.bound (f32v (f32At a (8 * i + 4))) (f32v (f32At b (8 * i + 4))))
  else
    let va := p.values a
    let vb := p.values b
    if j.pred = 1 then firstFail p.count (fun i => j.bound (va.getD i .nan) (vb.getD i .nan))
    else firstFail (p.count / max 1 j.rowLen) (fun r => j.row ((va.drop (r * j.rowLen)).take j.rowLen) ((vb.drop (r * j.rowLen)).take j.rowLen))

/-! ### The line judge (R431 to R435, R448) -/

/-- The judged ports of a plan, with what each copy wrote; the first that disagrees: its port, predicate and index. -/
def State.judgeAll (s : State) (c : Cmd) (m : List Byte) : Option (Nat × Nat × Nat) :=
  (imgJudged m).findSome? (fun x =>
    let a := match c.portArg x.1.port with
      | none => zeros x.1.length
      | some y => s.bytes (y.addr + (if y.hdr then 32 else 0)) x.1.length
    let b := s.bytes (s.dev.judge.shadowBase + (shadowOff m x.1.port).getD 0) x.1.length
    (judgePort x.1 x.2 a b).map (fun i => (x.1.port, x.2.pred, i)))

/-- A disagreement is counted and recorded, and code 1 is raised at once (R404, R435). -/
def Dev.disagree (d : Dev) (inst port pred index : Nat) : Dev :=
  ((((((d.setB Off.LJ_EVENTS 0 true).incSat Off.LJ_CNT_DISAGREE).wn Off.LJ_LAST_FAIL (port % 256 + inst % 256 * 2 ^ 8 + pred % 8 * 2 ^ 16)).wn
    Off.LJ_LAST_INDEX (index % 2 ^ 32)).onJudge (fun j => { j with disagreed := true })).doubt 1 (port % 256 + inst % 256 * 2 ^ 8))

/-- LINE_JUDGE_COMPARE (R431 to R435): both copies have finished and are compared; the command may then commit, whatever the result. -/
def execLineJudgeCompare (id : Nat) (s : State) : Host.Outcome State Fault Refusal :=
  .next (match s.dev.cmd id with
    | none => s
    | some c => match s.dev.cmdPlan c with
      | none => s
      | some x =>
        if c.phase = .running ∧ (c.endedA && c.endedB && !c.judged && s.dev.instSafe c.inst) = true then
          let t := s.onDev (fun d => ((d.incSat Off.LJ_CNT_COMPARED).onJudge (fun j => { j with compared := j.compared + 1, restarts := false })).onCmd id
            (fun y => { y with judged := true, phase := Phase.ended }))
          match s.judgeAll c x.image with
          | none => t
          | some r => t.onDev (fun d => d.disagree c.inst r.1 r.2.1 r.2.2)
        else s)

/-- After an apply of the line judge's page: the shadow region changes now, or when the running safety command completes (R448). -/
def Dev.shadowApplied (d : Dev) : Dev := if d.safetyRuns then d.onJudge (fun j => { j with shadowPending := true }) else d.takeShadow

/-- LJ_SHADOW_CHANGE (R448): an applied change of the shadow region that waited takes effect. -/
def execLjShadowChange (s : State) : Host.Outcome State Fault Refusal :=
  .next (s.onDev Dev.settleShadow)

/-- The verdict of the Over that ended, `over` (R435): RESULT and COMPARED are recorded, and MISSING is raised for an Over that was not
dead; `dead`: it was. -/
def Dev.verdictAt (d : Dev) (dead : Bool) (ovr : Nat) : Dev :=
  let n := d.judge.compared
  let expect := d.f Off.LJ_CTRL 7 0
  let missing := !dead && decide (n < expect)
  let result := if d.judge.disagreed then 2 else if dead then 0 else if missing then 3 else if 0 < n then 1 else 0
  let e := ((d.wn Off.LJ_VERDICT (result + n % 256 * 2 ^ 8)).wn Off.LJ_VERDICT_OVER (ovr % 2 ^ 32)).onJudge
    (fun j => { j with compared := 0, disagreed := false })
  e.when missing (fun f => (f.setB Off.LJ_EVENTS 1 true).doubtAt 2 n ovr)

/-! ### Lockstep pairs (R436 to R440, R447) -/

/-- A pair that has run nothing. -/
def Pair.empty : Pair := { xMain := [], xChecker := [], retiredMain := 0, retiredChecker := 0, buffer := [], resetAt := 0 }

/-- Pair `p`. -/
def Dev.pair (d : Dev) (p : Nat) : Pair := KMap.getD d.pairs p Pair.empty

/-- `d` with pair `p` changed. -/
def Dev.onPair (d : Dev) (p : Nat) (g : Pair → Pair) : Dev := { d with pairs := KMap.put d.pairs p (g (d.pair p)) }

/-- State of a pair: 0 RUNNING, 1 RESET, 2 HALTED (R447). -/
def Dev.pairState (d : Dev) (p : Nat) : Nat := d.f Off.ISL_STATUS (2 + 2 * p) (1 + 2 * p)

/-- `d` with a pair in a state. -/
def Dev.setPair (d : Dev) (p x : Nat) : Dev := d.setF Off.ISL_STATUS (2 + 2 * p) (1 + 2 * p) x

/-- The checkers run as independent cores (R439). -/
def Dev.split (d : Dev) : Bool := d.b Off.ISL_STATUS 0

/-- The pair is required and is not running (R438); PAIRn_REQ is ignored after a split (R439). -/
def Dev.pairDoubt (d : Dev) (p : Nat) : Bool := !d.split && d.b Off.ISL_CTRL p && d.pairState p != 0

/-- The bridge semaphores that an island master holds are released (R400). -/
def Dev.releaseSems (d : Dev) (p : Nat) : Dev :=
  d.forEach 16 (fun k e => e.when (e.b Off.IBR_STATUS (16 + k) && e.f (Off.IBR_SEM k) 3 1 == p) (fun f => (f.setB Off.IBR_STATUS (16 + k) false).wn (Off.IBR_SEM k) 0))

/-- Cycles within which the checker makes the main core's access (R437). -/
def lockCycles : Nat := 64

/-- A core's checkpoint signature: the CRC-32C of the destination index, one byte, and the value of each register-file write (R437; DESIGN
CHOICE, log 65: the layout of the bytes). -/
def lockSignature (l : List (Nat × W64)) : Nat := crcOf 0 (l.flatMap (fun x => leBytes 1 x.1 ++ leBytes 8 x.2.toNat))

/-- The comparator finds a mismatch (R437). -/
def lockDiffers (x : LockFault) : Bool :=
  match x with
  | .store m c => m != c
  | .timeout _ n => decide (lockCycles < n)
  | .checkpoint m c => lockSignature m != lockSignature c

/-- KIND of a mismatch (R447): 0 STORE, 1 TIMEOUT, 2 CHECKPOINT. -/
def lockKind (x : LockFault) : Nat :=
  match x with
  | .store _ _ => 0
  | .timeout _ _ => 1
  | .checkpoint _ _ => 2

/-- LOCKSTEP_MISMATCH (R437 to R439): the buffered accesses are discarded, code 4 is raised, and the pair goes into reset. -/
def execLockstepMismatch (p : Nat) (what : LockFault) (retired : Nat) (s : State) : Host.Outcome State Fault Refusal :=
  .next (s.onDev (fun d =>
    if p < 2 ∧ lockDiffers what = true ∧ d.islandUp = true ∧ d.split = false ∧ d.pairState p = 0 then
      ((((((d.onPair p (fun x => { x with buffer := [], retiredMain := retired, resetAt := d.islandNow })).wn (Off.ISL_MISMATCH_INFO p)
        (lockKind what + retired % 2 ^ 24 * 2 ^ 8)).incSat Off.ISL_CNT_MISMATCH).setB Off.ISL_EVENTS p true).setPair p 1).releaseSems p).doubt 4
        (p + lockKind what * 2)
    else d))

/-- How long a pair is held in reset, in ns (R438). -/
def pairResetNs : Nat := 50000

/-- PAIR_RESTART (R438): 50 µs after the mismatch, the pair restarts from the island ROM entry. -/
def execPairRestart (p : Nat) (s : State) : Host.Outcome State Fault Refusal :=
  .next (s.onDev (fun d =>
    if p < 2 ∧ d.pairState p = 1 ∧ (d.pair p).resetAt + pairResetNs ≤ d.islandNow then
      ((d.onPair p (fun _ => Pair.empty)).setPair p 0).setB Off.ISL_EVENTS (2 + p) true
    else d))

/-- Debug access to a pair is granted and the pair is not in reset (R440). -/
def Dev.debugs (d : Dev) (p : Nat) : Bool := d.masterRuns (.island p) && decide (p < 2) && d.b Off.ISL_STATUS 5 && d.pairState p != 1

/-- DEBUG_HALT (R440): both cores halt at the same retirement point, or the halt ends; a required pair's halt makes the Over a doubt Over (R438). -/
def execDebugHalt (p : Nat) (run : Bool) (s : State) : Host.Outcome State Fault Refusal :=
  .next (s.onDev (fun d =>
    if d.debugs p then
      if run then d.setPair p 0
      else
        let e := (d.setPair p 2).onPair p (fun x => { x with retiredChecker := x.retiredMain })
        e.when (e.pairDoubt p) (fun f => f.takeFree.2.doubt 4 (p + f.takeFree.1.toNat % 4 * 2))
    else d))

/-- A register write to one register file; register 0 reads 0. -/
def setXreg (m : KMap W64) (r : Nat) (v : W64) : KMap W64 := if r = 0 then m else KMap.put m r v

/-- DEBUG_REGISTER_WRITE (R440): the write is applied to both register files. -/
def execDebugRegisterWrite (p reg : Nat) (value : W64) (s : State) : Host.Outcome State Fault Refusal :=
  .next (s.onDev (fun d =>
    if d.debugs p ∧ reg < 32 then
      d.onPair p (fun x => { x with xMain := setXreg x.xMain reg value, xChecker := if d.split then x.xChecker else setXreg x.xChecker reg value })
    else d))

/-- DEBUG_SINGLE_STEP (R440): a halted pair retires one instruction on each core. -/
def execDebugSingleStep (p : Nat) (s : State) : Host.Outcome State Fault Refusal :=
  .next (s.onDev (fun d =>
    if d.debugs p ∧ d.pairState p = 2 then
      d.onPair p (fun x => { x with retiredMain := x.retiredMain + 1, retiredChecker := if d.split then x.retiredChecker else x.retiredChecker + 1 })
    else d))

/-- Code 4 for each required pair that is not running, in each Over (R404, R438): the kind of its last mismatch, open for a halted pair. -/
def Dev.pairDoubts (d : Dev) : Dev :=
  d.forEach 2 (fun p e => e.when (e.pairDoubt p) (fun f =>
    if f.pairState p = 1 then f.doubt 4 (p + f.f (Off.ISL_MISMATCH_INFO p) 1 0 * 2)
    else f.takeFree.2.doubt 4 (p + f.takeFree.1.toNat % 4 * 2)))

/-! ### The periodic self-test (R442 to R445, R451) -/

/-- The tile holds admitted work, or graphics work, that would start within 200 µs: a command admitted on it, or a draw of its partition. -/
def Dev.workSoon (d : Dev) (t : Nat) : Bool :=
  d.cmds.any (fun x => (x.2.phase == .admitted && (x.2.tiles.contains t || x.2.tilesB.contains t) && decide (d.nextOpen (d.tilePart t) < d.now + 200000)) ||
    (x.2.isDraw && x.2.started && d.instPart x.2.inst == d.tilePart t))

/-- The stream of partition `p` that holds tile `t`. -/
def Dev.streamOfTile (d : Dev) (p t : Nat) : Option Nat := (List.range (d.part p).tiles.length).find? (fun k => ((d.part p).tiles.getD k []).contains t)

/-- The conditions of R443 that every tile meets: selected, enabled, not withdrawn, IDLE, the test on, nothing that would start before the piece ends. -/
def Dev.pieceDue (d : Dev) (t : Nat) : Bool := d.tileBit Off.STEST_MASK_LO Off.STEST_MASK_HI t && d.b Off.STEST_CTRL 0 && d.b (Off.TILE_CTRL t) 0 && !(d.tile t).withdrawn

/-- The next piece is launched on a tile (R442). -/
def Dev.launchPiece (d : Dev) (t : Nat) : Dev := (d.setF (Off.TILE_STATUS t) 2 0 4).onTile t (fun x => { x with piece := some x.nextPiece })

/-- R443 at a Ball edge, for one tile: a due piece is launched, with 200 µs charged in a tenant stream, or deferred and counted. -/
def Dev.selfTestTile (d : Dev) (t : Nat) : Dev :=
  if !d.pieceDue t || (d.tile t).piece.isSome then d
  else if d.tileState t ≠ 1 ∨ d.workSoon t = true then d.incSat Off.STEST_CNT_DEFER
  else
    let p := d.tilePart t
    if 8 ≤ p then d.launchPiece t
    else match d.streamOfTile p t with
      | none => d.launchPiece t
      | some k =>
        if d.safetyNow = some p then (if d.now + 200000 ≤ d.nextOpen p then d.launchPiece t else d.incSat Off.STEST_CNT_DEFER)
        else if 200000 ≤ d.avail p k then (d.launchPiece t).onStream p k (fun x => { x with used := max x.used (d.elapsed p) + 200000 })
        else d.incSat Off.STEST_CNT_DEFER

/-- The launches of a Ball edge (R32, R443). -/
def Dev.selfTest (d : Dev) : Dev := d.forEach 64 (fun t e => e.selfTestTile t)

/-- SELFTEST_PIECE_DONE (R442, R445): a piece ends and its tile is cleared; a failing piece withdraws the tile, and resets the partition when
it is the safety partition. -/
def execSelftestPieceDone (t : Nat) (ok : Bool) (s : State) : Host.Outcome State Fault Refusal :=
  .next (match (s.dev.tile t).piece with
    | none => s
    | some k =>
      let u := s.onDev (fun d => ((d.tileClear t).tileFree t).onTile t (fun x => { x with piece := none, nextPiece := (k + 1) % 24 }))
      if ok then (u.onDev (fun d => d.when (k == 23) (fun e => (e.onTile t (fun x => { x with logicAt := d.islandNow })).latentEnds t))).admitAll
      else
        let p := s.dev.tilePart t
        let v := u.onDev (fun d => ((d.onTile t (fun x => { x with withdrawn := true })).setTileBit Off.STEST_FAILED_LO Off.STEST_FAILED_HI t true).setB
          Off.STEST_EVENTS 1 true)
        if v.dev.safetyNow = some p then v.partReset p else v)

/-- LATENT (R444): where an age that the event is about is past DTI_MS, a selected tile's bit and the alarm are set; with both within it again the
bit clears. -/
def execLatent (t : Nat) (logic scratch : Bool) (s : State) : Host.Outcome State Fault Refusal :=
  .next (s.onDev (fun d =>
    if 64 ≤ t then d
    else if (logic && d.testOld t false) || (scratch && d.testOld t true) then
      d.when (d.tileBit Off.STEST_MASK_LO Off.STEST_MASK_HI t) (fun f => (f.setTileBit Off.STEST_LATENT_LO Off.STEST_LATENT_HI t true).setB Off.STEST_EVENTS 0 true)
    else d.latentEnds t))

end Sys2Proof.Machine
end

