-- ==== Sys2Proof/Machine/Hub.lean ====
section
/-! DEFINITION. Machine/Hub.lean: the hub DMA channels and the secure watchdog (R412, R548 to R550, R567). -/

namespace Sys2Proof.Machine

/-! ### Hub DMA (R548) -/

/-- The status codes of R131. -/
def statusCodes : List Nat := [0, 1, 2, 0x10, 0x11, 0x12, 0x13, 0x20, 0x21, 0x22, 0x23, 0x24, 0x30, 0x31, 0x32]

/-- A status that the spec does not state: one of R131's, open. -/
def Dev.openStatus (d : Dev) : Nat × Dev := (statusCodes.getD (d.takeFree.1.toNat % 15) 0, d.takeFree.2)

/-- STATE of a channel: 0 IDLE, 1 BUSY, 2 DONE. -/
def Dev.dmaState (d : Dev) (c : Nat) : Nat := d.f (Off.DMA_STATUS c) 1 0

/-- The end of a copy with a status; its interrupt, if asked for. -/
def Dev.dmaEnd (d : Dev) (c state status : Nat) (irq : Bool) : Dev :=
  (({ d with dma := KMap.del d.dma c }).wn (Off.DMA_STATUS c) (state + status * 2 ^ 16)).when irq (fun e => e.emit (.dmaIrq c))

/-- The first `n` bytes of a copy are moved, where both accesses are admitted; whether they were. -/
def State.dmaMove (s : State) (c : Nat) (j : DmaJob) (n : Nat) : Bool × State :=
  if n = 0 then (true, s)
  else match s.readAs (.dma c) j.src n with
    | (none, t) => (false, t)
    | (some b, t) => t.storeAs (.dma c) j.dst b

/-- START (R548): the channel takes its registers and is BUSY; ignored while BUSY, or where the domain is not ON (R559). -/
def Dev.dmaStart (d : Dev) (c : Nat) (irq : Bool) : Dev :=
  if d.dmaState c = 1 ∨ d.domOn 46 = false then d
  else
    ({ d with dma := KMap.put d.dma c { src := d.addr (Off.DMA_SRC_LO c) (Off.DMA_SRC_HI c), dst := d.addr (Off.DMA_DST_LO c) (Off.DMA_DST_HI c), len := d.n (Off.DMA_LEN c), irq := irq } }).wn
      (Off.DMA_STATUS c) 1

/-- ABORT (R548): a running copy ends; bytes already written stay; the state and status it leaves are open. -/
def State.dmaAbort (s : State) (c done : Nat) : State :=
  match KMap.find s.dev.dma c with
  | none => s
  | some j =>
    let t := (s.dmaMove c j (min done j.len)).2
    t.onDev (fun d => (d.takeFree.2.openStatus.2).dmaEnd c (d.takeFree.1.toNat % 2 * 2) d.takeFree.2.openStatus.1 j.irq)

/-- The master may program a channel: a secure channel admits secure writers only (R546, R548). -/
def Dev.dmaAdmits (d : Dev) (m : Master) (c : Nat) : Bool := d.world m || !d.b Off.WLD_DMA_SEC c

/-- A write of DMA_CMD: ABORT first, then START; `done`: bytes that an aborted copy has moved (R548). -/
def State.dmaCommand (s : State) (m : Master) (c value done : Nat) : State :=
  if 16 ≤ c then s
  else if !s.dev.dmaAdmits m c then s.writeRejected m (Off.DMA_CMD c) value
  else
    let t := if nbit value 1 then s.dmaAbort c done else s
    if nbit value 0 then t.onDev (fun d => d.dmaStart c (nbit value 2)) else t

/-- A write of DMA_CMD by a master, admitted or refused (R545). -/
def State.dmaWrite (s : State) (m : Master) (c value done : Nat) : State :=
  match s.dev.setupRefused m (Off.DMA_CMD c) 4 with
  | some d => { s with dev := d }
  | none => (s.dmaCommand m c value done).onDev (fun d => d.answer .ok)

/-- DMA_START (R546, R548): a write of DMA_CMD. -/
def execDmaStart (m : Master) (c value : Nat) (s : State) : Host.Outcome State Fault Refusal := .next (s.dmaWrite m c value 0)

/-- DMA_ABORT (R546, R548): a write of DMA_CMD. -/
def execDmaAbort (m : Master) (c value done : Nat) (s : State) : Host.Outcome State Fault Refusal := .next (s.dmaWrite m c value done)

/-- DMA_DONE (R548): a copy ends: OK with all its bytes, DENIED at its first refused access, ECC_UNCORRECTABLE at an error in the byte `done`, with the
bytes before it written, in address order (DESIGN CHOICE, log 67). The outcome of a copy of length 0 is open. -/
def execDmaDone (c done : Nat) (ecc : Ecc) (s : State) : Host.Outcome State Fault Refusal :=
  .next (match KMap.find s.dev.dma c with
    | none => s
    | some j =>
      if j.len = 0 then s.onDev (fun d => d.openStatus.2.dmaEnd c 2 d.openStatus.1 j.irq)
      else
        let m : Master := .dma c
        let w := s.dev.world m
        let r := s.dev.reach m w .read j.src j.len
        let k := min r (s.dev.reach m w .write j.dst j.len)
        if ecc = .uncorrectable ∧ done < k then
          (((s.dmaMove c j done).2).onDev (fun d => (d.memEcc (j.src + done) ecc).dmaEnd c 2 0x32 j.irq)).serveReset
        else
          let t := (s.dmaMove c j k).2
          if k < j.len then t.onDev (fun d => (if r ≤ k then d.refuseAt m w .read j.src r else d.refuseAt m w .write j.dst k).dmaEnd c 2 0x22 j.irq)
          else t.onDev (fun d => (if ecc = .corrected then d.memEcc j.src ecc else d).dmaEnd c 2 0 j.irq))

/-! ### The secure watchdog (R549, R550) -/

/-- `d` with the watchdog changed. -/
def Dev.onWdg (d : Dev) (g : Watchdog → Watchdog) : Dev := { d with wdg := g d.wdg }

/-- A service restarts the count. -/
def Dev.wdgServiced (d : Dev) : Dev := d.onWdg (fun w => { w with since := d.now, first := none, warned := false })

/-- A write of WDG_SERVICE: 0xC1A0 and then, within 10 µs, 0x3E5F service the watchdog; anything else is counted and ignored (R549). -/
def Dev.wdgWrite (d : Dev) (value : Nat) : Dev :=
  match d.wdg.first with
  | none => if value % 2 ^ 32 = 0xC1A0 then d.onWdg (fun w => { w with first := some d.now }) else d.incSat Off.WDG_CNT_BAD
  | some t =>
    if value % 2 ^ 32 = 0x3E5F ∧ d.now ≤ t + 10000 then d.wdgServiced
    else (d.incSat Off.WDG_CNT_BAD).onWdg (fun w => { w with first := none })

/-- WDG_SERVICE (R545, R549). -/
def execWdgService (m : Master) (value : Nat) (s : State) : Host.Outcome State Fault Refusal :=
  .next (match s.dev.setupRefused m Off.WDG_SERVICE 4 with
    | some d => { s with dev := d }
    | none => s.onDev (fun d => (d.wdgWrite value).answer .ok))

/-- The instant of the watchdog's expiry, in ns. -/
def Dev.wdgEnd (d : Dev) : Nat := d.wdg.since + d.f Off.WDG_CTRL 29 16 * 1000000

/-- The watchdog runs. -/
def Dev.wdgOn (d : Dev) : Bool := d.b Off.WDG_CTRL 0 && !d.wdg.expired

/-- PRE_WARNING (R404, R549): code 8. -/
def execPreWarning (s : State) : Host.Outcome State Fault Refusal :=
  .next (s.onDev (fun d =>
    if d.wdgOn ∧ d.wdg.warned = false ∧ d.wdgEnd ≤ d.now + d.n Off.WDG_WARN_US * 1000 then
      ((d.onWdg (fun w => { w with warned := true })).setB Off.WDG_EVENTS 0 true).doubt 8 0
    else d))

/-- A register of the island's domain: the island-visible pages, and WLD_RESET_CAUSE (R446, R550). -/
def islandReg (off : Nat) : Bool := decide (0xB00000 ≤ off ∧ off < 0xC00000) || off == Off.WLD_RESET_CAUSE

/-- The reset of everything outside the island's domain (R412, R550): the island, the Keeper, the line judge and the lockstep pairs keep
what they hold, and the Keeper owns the outputs. The service port is the hub die's: a setpoint of it that waits for its edge is dropped
(DESIGN CHOICE, log 58). -/
def Dev.watchdogReset (d : Dev) : Dev :=
  let e := d.takeover
  let z : Dev := Dev.reset
  ({ z with
    hbmStacks := e.hbmStacks, ioDies := e.ioDies, stepping := e.stepping, fresh := e.fresh, resp := e.resp, out := e.out
    keeper := { e.keeper with entries := [], base := e.islandNow }, judge := e.judge, pairs := e.pairs
    regs := e.regs.filter (fun p => islandReg p.1), staged := e.staged.filter (fun p => islandReg p.1)
    start := { z.start with modFault := e.start.modFault, halted := e.start.halted, monitor := e.start.monitor }
    vox := { z.vox with oppOlder := e.vox.oppOlder }
    wdg := { z.wdg with expired := true } }).setF Off.WLD_RESET_CAUSE 1 0 1

/-- WATCHDOG_EXPIRY (R412, R549, R550): the watchdog reset; only the island's memories and flash keep their contents. -/
def execWatchdogExpiry (s : State) : Host.Outcome State Fault Refusal :=
  .next (if s.dev.wdgOn ∧ s.dev.wdgEnd ≤ s.dev.now then
    { s with dev := s.dev.watchdogReset, mem := s.mem.filter (fun c => decide (0x80000000 ≤ c.1 ∧ c.1 < 0x98000000)) }
  else s)

/-- WATCHDOG_RESTART (R550): the hub die's new power good: start runs from S1, and its time from 0. -/
def execWatchdogRestart (straps modId modCnt : Nat) (s : State) : Host.Outcome State Fault Refusal :=
  .next (s.onDev (fun d =>
    if d.wdg.expired then
      let e := ((d.onWdg (fun w => { w with expired := false })).onStart (fun t => { t with powered := true })).latchPins straps modId modCnt
      (({ e with now := 0 }).onKeeper (fun k => { k with base := d.islandNow })).startWarmup
    else d))

end Sys2Proof.Machine
end

