-- ==== Sys2Proof/Machine/TileEvents.lean ====
section
/-! DEFINITION. Machine/TileEvents.lean: thermal derate, router links, the background bank test, main-fabric accesses to scratchpad, doorbell and consumer-index writes, and page-manager events. -/

namespace Sys2Proof.Machine

/-! ### Thermal derate (R138) -/

/-- TILE_TEMP takes a junction temperature in 1/16 °C (R183). -/
def Dev.tileTemp (d : Dev) (t : Nat) (temp : Int) : Dev := d.setF (Off.TILE_TEMP t) 15 0 (BitVec.ofInt 16 temp).toNat

/-- Junction temperatures measured: those of the tiles, and from 64 on those of other sensors, which have no register. -/
def Dev.measureTemps (d : Dev) (l : List (Nat × Int)) : Dev :=
  d.forAll l (fun x e => if x.1 < 64 then e.tileTemp x.1 x.2 else { e with power := { e.power with junctions := KMap.put e.power.junctions x.1 x.2 } })

/-- THERMAL_DERATE (R138): above 110 °C the tile is held at 1,000 MHz, or its ceiling if that is lower. -/
def execThermalDerate (t : Nat) (temp : Int) (s : State) : Host.Outcome State Fault Refusal :=
  .next (if t < 64 ∧ 1760 < temp ∧ s.dev.tileState t ≠ 0 then
    s.onDev (fun d => (((((d.tileTemp t temp).setF (Off.TILE_FREQ t) 10 0 (d.topMhz t)).setB (Off.TILE_FREQ t) 16 true).setB
      (Off.TILE_EVENTS t) 3 true).settleClock t))
    else s)

/-- DERATE_RELEASE (R138): below 105 °C the derate is released. -/
def execDerateRelease (t : Nat) (temp : Int) (s : State) : Host.Outcome State Fault Refusal :=
  .next (if t < 64 ∧ temp < 1680 then s.onDev (fun d => (d.tileTemp t temp).setB (Off.TILE_FREQ t) 16 false) else s)

/-! ### Router links (R186) -/

/-- The traffic of a command may be on its way: it runs or waits for its commit point, or its load moves (R119, R186). -/
def Cmd.underWay (c : Cmd) : Bool := c.running || c.load.any (fun l => l.started.isSome)

/-- ROUTER_LINK_FAIL (R186): commands whose traffic crossed the link complete with ECC_UNCORRECTABLE; the link is down until it trains again. -/
def execRouterLinkFail (t link : Nat) (ids : List Nat) (s : State) : Host.Outcome State Fault Refusal :=
  .next (if t < 64 ∧ nbit (routerLinks t) link = true ∧ s.dev.b (Off.TILE_ROUTER_STATUS t) link = true then
    let v := s.onDev (fun d => (d.setLink t link false).setB (Off.TILE_EVENTS t) 4 true)
    (v.forAll ids (fun id w => match w.dev.cmd id with
      | none => w
      | some c => if c.underWay = true then w.inputEnd id 0x32 else w)).admitAll
    else s)

/-! ### The background bank test (R242 to R245) -/

/-- The first region at or after `k`, in index order, of a bank that the mask selects. -/
def btestFrom (mask k : Nat) : Option Nat :=
  if nbit mask (k / 512) then some k
  else ((List.range 32).find? (fun b => decide (k / 512 < b) && nbit mask b)).map (fun b => b * 512)

/-- BTEST_REGION (R242 to R245): the region under test has been saved, tested and restored: its data stands; `cycles` have passed since the
region before it started. -/
def execBtestRegion (t cycles : Nat) (failWord : Option Nat) (s : State) : Host.Outcome State Fault Refusal :=
  .next (s.onDev (fun d =>
    let mask := d.n (Off.TILE_BTEST_MASK t)
    if 64 ≤ t ∨ d.b (Off.TILE_BTEST_CTRL t) 0 = false ∨ d.tileState t = 0 then d
    else match (btestFrom mask (d.f (Off.TILE_BTEST_STATUS t) 13 0)).orElse (fun _ => btestFrom mask 0) with
      | none => d
      | some k =>
        let e := match failWord with
          | none => d
          | some w => ((d.wn (Off.TILE_BTEST_FAIL_OFF t) (k / 512 * 0x20000 + k % 512 * 256 + w % 4 * 64)).setB (Off.TILE_BTEST_EVENTS t) 0 true).setB
              (Off.TILE_BANK_STATUS t (k / 512)) 6 true |>.when (!d.b (Off.TILE_BANK_STATUS t (k / 512)) 6 && d.ownerSafe (d.bankOwner t (k / 512)))
                (fun f => f.onPart (d.bankId t (k / 512)) (fun x => { x with resetDue := true }))
        let took := (d.tile t).passCycles + max cycles (d.f (Off.TILE_BTEST_CTRL t) 19 8 * 16)
        match btestFrom mask (k + 1) with
        | some n => (e.setF (Off.TILE_BTEST_STATUS t) 13 0 n).onTile t (fun x => { x with passCycles := took })
        | none =>
          (((((e.setF (Off.TILE_BTEST_STATUS t) 13 0 ((btestFrom mask 0).getD 0)).setF (Off.TILE_BTEST_STATUS t) 31 16 (d.f (Off.TILE_BTEST_STATUS t) 31 16 + 1)).setB
            (Off.TILE_BTEST_EVENTS t) 1 true).wn (Off.TILE_PASS_CYCLES t) (min took (2 ^ 32 - 1))).onTile t (fun x => { x with passCycles := 0, passAt := d.islandNow })).latentEnds t))

/-! ### Main-fabric accesses -/

/-- A read by a master, its answer, and what the memory's ECC finds: an uncorrectable error answers with an error (R233, R241, R367). -/
def State.busRead (s : State) (m : Master) (a n : Nat) (ecc : Ecc) : State :=
  if !s.dev.masterRuns m then s
  else match s.readAs m a n with
  | (none, t) => t.onDev (fun d => d.answer .error)
  | (some bs, t) => (t.onDev (fun d => (d.memEcc a ecc).answer (if ecc = .uncorrectable then .error else .bytes bs))).serveReset

/-- A write by a master and its answer. -/
def State.busWrite (s : State) (m : Master) (a : Nat) (bs : List Byte) : State :=
  if !s.dev.masterRuns m then s
  else match s.storeAs m a bs with
  | (true, t) => t.onDev (fun d => d.answer .ok)
  | (false, t) => t.onDev (fun d => d.answer .error)

/-- SCRATCHPAD_MAIN_ACCESS (R233, R241): a main-fabric master reaches a bank through the scratchpad window; another address is no access of this row. -/
def execScratchpadMainAccess (m : Master) (addr : Nat) (k : AccessKind) (bytes : List Byte) (len : Nat) (ecc : Ecc) (s : State) :
    Host.Outcome State Fault Refusal :=
  .next (match s.dev.region addr with
    | some (.scratch _, _) => (match k with | .read => s.busRead m addr len ecc | .write => s.busWrite m addr bytes)
    | _ => s.onDev (fun d => d.when (d.masterRuns m) (fun e => e.answer .error)))

/-- DOORBELL_WRITE (R98, R101, R111, R488): the eight bytes are written; a watched doorbell is read, and the read may meet an
uncorrectable error. -/
def execDoorbellWrite (m : Master) (db : DbTarget) (w : DbWord) (s : State) : Host.Outcome State Fault Refusal :=
  .next (((s.onDev (fun d => d.reportBad (cond w.bad [db] []))).busWrite m (match db with | .ring i r => s.dev.dbAddr i r | .session v => s.dev.vcDbAddr v) (leBytes 8 w.value)).serveReset.onDev (fun d =>
    d.reportBad []))

/-- QE_CPL_CONS_WRITE (R103): the consumer index of a completion ring advances; pickup that had paused for it may go on. -/
def execQeCplConsWrite (m : Master) (inst c value : Nat) (s : State) : Host.Outcome State Fault Refusal :=
  .next (match s.dev.setupRefused m (Off.QE_CPL_CONS inst c) 4 with
    | some d => { s with dev := d }
    | none => match locate (Off.QE_CPL_CONS inst c) with
      | none => s.onDev (fun d => d.answer .ok)
      | some (r, o) => (s.nsWrite m r o (BitVec.ofNat 64 value) (maskOf 31 0)).onDev (fun d => d.answer .ok))

/-! ### Page-manager events (R305, R311) -/

/-- KV_INIT_DONE (R311): the free lists are built. -/
def execKvInitDone (s : State) : Host.Outcome State Fault Refusal :=
  .next (s.onDev (fun d => if d.b Off.KV_STATUS 1 && d.b Off.KV_CTRL 0 then (d.wn Off.KV_STATUS 1).kvSync else d))

/-- KV_RSV_SEQ_CHANGE (R305): applied fields of a reserved sequence take effect once no command in flight names it; it becomes empty. -/
def execKvRsvSeqChange (r : Nat) (s : State) : Host.Outcome State Fault Refusal :=
  .next (s.onDev (fun d =>
    if (KMap.find d.kv.rsvOld r).isSome && !d.cmds.any (fun x => x.2.handles.any (fun h => isReserved h && rsvNum h == r)) then
      (d.onKv (fun k => { k with rsvOld := KMap.del k.rsvOld r })).rsvEmpty r
    else d))

end Sys2Proof.Machine
end

