-- ==== Sys2Proof/Machine/Power.lean ====
section
/-! DEFINITION. Machine/Power.lean: the power domains, the supply limit, the power cap and the thermal limits (R139, R559 to R566, R569). -/

namespace Sys2Proof.Machine

/-! ### Domains (R559 to R562) -/

/-- The variant has a domain (R559). -/
def Dev.domPresent (d : Dev) (k : Nat) : Bool :=
  decide (k < 48) && (if 16 ≤ k ∧ k < 24 then d.sitePopulated (k - 16)
    else if k = 31 ∨ k = 34 ∨ k = 39 ∨ k = 42 ∨ k = 44 then d.ioDies == 2 else true)

/-- PWR_DOM_STATE as it reads: a domain that the variant lacks reads ABSENT; the supply in mV that its voltage loop keeps is open (R559, R563, R569). -/
def Dev.domReg (d : Dev) (k : Nat) : Nat :=
  if d.domPresent k then
    d.f (Off.PWR_DOM_STATE k) 2 0 + (d.power.supplies.elim 0 (fun n => (Config.freeWord (n + k)).toNat % 2 ^ 12)) * 2 ^ 16
  else 0

/-- State of a domain: 0 ABSENT, 1 ON, 2 GATED, 3 OFF, 4 WAKING. -/
def Dev.domState (d : Dev) (k : Nat) : Nat := d.domReg k % 8

/-- `d` with a domain in a state. -/
def Dev.setDom (d : Dev) (k x : Nat) : Dev := d.setF (Off.PWR_DOM_STATE k) 2 0 x

/-- The domain's owner world is secure (R560). -/
def Dev.domSecure (d : Dev) (k : Nat) : Bool := if k < 32 then d.b Off.PWR_DOM_OWNER_LO k else d.b Off.PWR_DOM_OWNER_HI (k - 32)

/-- Bit 0 of every register of a list is 0. -/
def Dev.disabled (d : Dev) (l : List Nat) : Bool := l.all (fun off => !d.b off 0)

/-- Every block of the domain is disabled by its own ENABLE field, or the cores are halted with nothing pending (R561). Domains whose blocks
have no ENABLE field meet this. -/
def Dev.domIdle (d : Dev) (k : Nat) (halted : Bool) : Bool :=
  if k < 16 then d.disabled ((numbers (4 * k) 4).map Off.TILE_CTRL)
  else if k < 24 then true
  else if k < 28 then halted && (numbers (4 * (k - 24)) 4).all (fun n => (d.core n).pendNormal.isEmpty && (d.core n).pendSecure.isEmpty)
  else match k with
    | 28 => (numbers 24 4).all (fun j => d.domState j == 3)
    | 29 => d.disabled ((numbers 0 16).map Off.GFX_CTX_CTRL)
    | 30 => d.disabled ((numbers 0 3).map Off.DISP_CTRL)
    | 31 => d.disabled ((numbers 3 3).map Off.DISP_CTRL)
    | 33 => d.disabled ((numbers 0 8).map Off.CAM_CTRL)
    | 34 => d.disabled ((numbers 8 8).map Off.CAM_CTRL)
    | 35 => (numbers 0 16).all (fun s => !d.b (Off.VC_CTRL s) 0 || d.b (Off.VC_CTRL s) 1)
    | 36 => (numbers 0 16).all (fun s => !d.b (Off.VC_CTRL s) 0 || !d.b (Off.VC_CTRL s) 1)
    | 37 => d.disabled [Off.GW_CTRL, Off.SG_CTRL]
    | 38 => d.disabled ((numbers 0 6).map Off.GW_PORT_CTRL)
    | 39 => d.disabled ((numbers 6 6).map Off.GW_PORT_CTRL)
    | 40 => d.disabled ((numbers 0 12).map Off.CAN_CTRL ++ (numbers 0 8).map Off.LIN_CTRL ++ (numbers 0 2).map Off.T1S_CTRL)
    | 43 => d.disabled [Off.IVM_CTRL]
    | 44 => d.disabled [Off.IVM_CTRL]
    | _ => true

/-- A tile loses its state and reads OFF (R562). -/
def Dev.tileOff (d : Dev) (t : Nat) : Dev :=
  ((d.onTile t (fun x => { Tile.empty with withdrawn := x.withdrawn, part := x.part, world := x.world, logicAt := x.logicAt, passAt := x.passAt })).setF (Off.TILE_STATUS t) 2 0 0).setF
    (Off.TILE_STATUS t) 18 8 0

/-- The blocks of a domain that goes OFF lose their state; the set-up registers keep theirs (R559, R560). -/
def Dev.domLose (d : Dev) (k : Nat) : Dev :=
  if k < 16 then d.forAll (numbers (4 * k) 4) (fun t e => e.tileOff t)
  else if 24 ≤ k ∧ k < 28 then { d with cores := d.cores.filter (fun p => decide (p.1 / 4 ≠ k - 24)) }
  else match k with
    | 29 => d.onMedia (fun m => { m with dirty := [] })
    | 30 => d.onMedia (fun m => { m with pipes := m.pipes.filter (fun p => decide (3 ≤ p.1)) })
    | 31 => d.onMedia (fun m => { m with pipes := m.pipes.filter (fun p => decide (p.1 < 3)) })
    | 33 => d.onMedia (fun m => { m with cameras := m.cameras.filter (fun p => decide (8 ≤ p.1)) })
    | 34 => d.onMedia (fun m => { m with cameras := m.cameras.filter (fun p => decide (p.1 < 8)) })
    | 37 => { d with gw := { Dev.reset.gw with txts := d.gw.txts, caps := d.gw.caps, pulses := d.gw.pulses } }
    | 46 => ({ d with dma := [] }).forEach 16 (fun c e => e.wn (Off.DMA_STATUS c) 0)
    | _ => d

/-- An accepted request takes effect: OP 0 ON, 1 GATE, 2 OFF (R562). A domain turned off at 130 °C stays off (R566). -/
def Dev.domApply (d : Dev) (k op : Nat) : Dev :=
  match op with
  | 0 => if d.domState k = 1 ∨ d.domState k = 4 ∨ d.power.tripped = true then d else d.setDom k 4
  | 1 => if d.power.tripped then d else d.setDom k 2
  | _ => (d.setDom k 3).domLose k

/-- A domain request of world `w` (R561): its status and the block after it. -/
def Dev.domRequest (d : Dev) (m : Master) (w : Bool) (k op : Nat) (halted : Bool) : Nat × Dev :=
  if !d.domPresent k || decide (2 < op) then (0x20, d)
  else if !w && d.domSecure k then (0x22, d.wldDenied 2 3 m k Off.PWR_DOM_REQ)
  else if 16 ≤ k ∧ k < 24 ∧ op ≠ 0 then (0x20, d)
  else if op ≠ 0 ∧ d.domIdle k halted = false then (0x31, d)
  else (0, d.domApply k op)

/-- A write of PWR_DOM_REQ (R561, R569): the result shows the status and the tag. -/
def State.domWrite (s : State) (m : Master) (k op tag : Nat) (halted : Bool) : State :=
  match s.dev.setupRefused m Off.PWR_DOM_REQ 4 with
  | some d => { s with dev := d }
  | none =>
    let r := s.dev.domRequest m (s.dev.world m) (k % 64) (op % 4) halted
    (s.onDev (fun _ => (r.2.wn Off.PWR_DOM_RESULT (r.1 + tag % 2 ^ 16 * 2 ^ 16)).answer .ok)).when (r.1 == 0 && decide (k < 16)) State.admitAll

/-- DOMAIN_ON (R561, R562). -/
def execDomainOn (m : Master) (dom tag : Nat) (s : State) : Host.Outcome State Fault Refusal := .next (s.domWrite m dom 0 tag false)

/-- DOMAIN_GATE (R561, R562). -/
def execDomainGate (m : Master) (dom tag : Nat) (halted : Bool) (s : State) : Host.Outcome State Fault Refusal := .next (s.domWrite m dom 1 tag halted)

/-- DOMAIN_OFF (R561, R562). -/
def execDomainOff (m : Master) (dom tag : Nat) (halted : Bool) (s : State) : Host.Outcome State Fault Refusal := .next (s.domWrite m dom 2 tag halted)

/-- A tile that was OFF zeroes its banks and becomes IDLE (R562). -/
def State.tileWake (s : State) (t : Nat) : State :=
  if s.dev.tileState t = 0 then
    (s.zero (bankAddr t 0) 0x400000).onDev (fun d => ((d.tileClear t).tileFree t).settleClock t)
  else s

/-- DOMAIN_WAKE_DONE (R562): a waking domain is ON. -/
def execDomainWakeDone (dom : Nat) (s : State) : Host.Outcome State Fault Refusal :=
  .next (if s.dev.domState dom = 4 then
    let t := s.onDev (fun d => d.setDom dom 1)
    (t.when (decide (dom < 16)) (fun u => u.forAll (numbers (4 * dom) 4) (fun k v => v.tileWake k))).admitAll
  else s)

/-! ### Supply and cap (R565) -/

/-- The supply limit in W at an input voltage in mV, rounded down. -/
def supplyLimit (mv : Nat) : Nat := if mv ≤ 12000 then 300 else if mv < 20000 then (600000 + 65 * (mv - 12000)) / 2000 else 560

/-- PWR_LIMIT_W and SUPPLY_LIMITED follow the cap and the supply limit. -/
def Dev.powerLimit (d : Dev) : Dev :=
  (d.wn Off.PWR_LIMIT_W (min (d.n Off.PWR_CAP_W) d.power.supplyW)).setB Off.PWR_STATUS 2 (decide (d.power.supplyW < d.n Off.PWR_CAP_W))

/-- A measured input voltage. -/
def Dev.measureInput (d : Dev) (mv : Nat) : Dev := d.wn Off.PWR_INPUT_MV (mv % 2 ^ 32)

/-- SUPPLY_LIMIT_FALL (R565): a fall in the supply limit applies at once. -/
def execSupplyLimitFall (mv : Nat) (s : State) : Host.Outcome State Fault Refusal :=
  .next (s.onDev (fun d => ((d.measureInput mv).onPower (fun p =>
    if supplyLimit mv < p.supplyW then { p with supplyW := supplyLimit mv, fellAt := d.now } else p)).powerLimit))

/-- SUPPLY_LIMIT_RISE (R565): a rise applies once 100 ms have passed without a fall. -/
def execSupplyLimitRise (mv : Nat) (s : State) : Host.Outcome State Fault Refusal :=
  .next (s.onDev (fun d => ((d.measureInput mv).onPower (fun p =>
    if p.fellAt + 100000000 ≤ d.now then { p with supplyW := max p.supplyW (supplyLimit mv) } else p)).powerLimit))

/-- The clock of core group `g` in MHz: 800 at its lowest (R563). -/
def Dev.groupMhz (d : Dev) (g : Nat) : Nat := KMap.getD d.power.groups g 800

/-- Tiles whose clock the loop moves: not OFF. -/
def Dev.clocked (d : Dev) : List Nat := (List.range 64).filter (fun t => d.tileState t != 0)

/-- One step down for every tile above its floor; a tile at its floor refuses it and records so (R137, R139). -/
def Dev.lowerTiles (d : Dev) : Dev :=
  d.forAll d.clocked (fun t e =>
    if e.floorMhz t < e.tileMhz t then e.setF (Off.TILE_FREQ t) 10 0 (max (e.floorMhz t) (e.tileMhz t - 25)) else e.setB (Off.TILE_EVENTS t) 5 true)

/-- Lower clocks by one step in the order of R565: tiles, core groups, media and display controllers; `none` when all are at their lowest. -/
def Dev.lowerClocks (d : Dev) : Option Dev :=
  if d.clocked.any (fun t => decide (d.floorMhz t < d.tileMhz t)) then some d.lowerTiles
  else if (List.range 4).any (fun g => decide (800 < d.groupMhz g)) then
    some (d.lowerTiles.onPower (fun p => { p with groups := KMap.mapV p.groups (fun _ f => max 800 (f - 50)) }))
  else if !d.power.mediaLow then some (d.lowerTiles.onPower (fun p => { p with mediaLow := true }))
  else none

/-- POWER_LIMIT_EXCEEDED (R139, R565): the average is above the limit, and the loops lower clocks by one step; with nothing left to lower,
more than 5 % above sets CAP_EXCEEDED. An average within the limit ends CAPPED. -/
def execPowerLimitExceeded (mw : Nat) (s : State) : Host.Outcome State Fault Refusal :=
  .next (s.onDev (fun d0 =>
    let d := d0.wn Off.PWR_INPUT_MW (mw % 2 ^ 32)
    let lim := d.n Off.PWR_LIMIT_W * 1000
    if mw ≤ lim then (d.setB Off.PWR_STATUS 0 false).onPower (fun p => { p with mediaLow := false })
    else
      let e := d.setB Off.PWR_STATUS 0 true
      match e.lowerClocks with
      | some f => f
      | none => e.lowerTiles.when (decide (lim * 105 < mw * 100)) (fun f => f.setB Off.PWR_EVENTS 0 true)))

/-! ### Temperature (R566) -/

/-- THERMAL_CRIT (R140, R183, R566): at 125 °C every tile runs at 400 MHz and the core groups at 800 MHz; reported below it, the state ends and
tiles are within their limits again (DESIGN CHOICE, log 43). -/
def execThermalCrit (r : HotReport) (s : State) : Host.Outcome State Fault Refusal :=
  .next (s.onDev (fun d0 =>
    let d := d0.measureTemps r.temps
    if 125 ≤ r.hottest then
      let e := (((d.onPower (fun p => { p with groups := [] })).setB Off.PWR_STATUS 3 true).setB Off.PWR_EVENTS 2 true)
      e.forAll e.clocked (fun t f => f.settleClock t)
    else if d.b Off.PWR_STATUS 3 then
      let e := d.setB Off.PWR_STATUS 3 false
      e.forAll e.clocked (fun t f => f.settleClock t)
    else d))

/-- THERMAL_TRIP (R566): at 130 °C every domain is turned OFF until the next power good; what the stacks hold is lost with them (R560). -/
def execThermalTrip (temp : Nat) (s : State) : Host.Outcome State Fault Refusal :=
  .next (if 130 ≤ temp then
    ({ s with mem := s.mem.filter (fun c => decide (c.1 < 0x10000000000 ∨ 0x100000000000 ≤ c.1)) }).onDev (fun d =>
      ((d.forEach 48 (fun k e => if e.domPresent k then (e.setDom k 3).domLose k else e)).onPower (fun p => { p with tripped := true })).setB
        Off.PWR_EVENTS 3 true)
  else s)

/-- The hottest junction in 1/16 °C, of those measured (R558, R566). -/
def Dev.hottest (d : Dev) : Int :=
  d.power.junctions.foldl (fun m x => max m x.2) ((List.range 64).foldl (fun m t => max m (BitVec.ofNat 16 (d.f (Off.TILE_TEMP t) 15 0)).toInt) (-32768))

/-- A step of the frequency loop towards CEIL_MHZ and 3,000 MHz for every tile and core group that nothing holds back (R7, R137, R563). -/
def Dev.raiseClocks (d : Dev) : Dev :=
  (d.forAll d.clocked (fun t e =>
    if e.topMhz t ≤ e.tileMhz t then e else e.setF (Off.TILE_FREQ t) 10 0 (min (e.topMhz t) (e.tileMhz t + 25)))).onPower (fun p =>
      { p with mediaLow := false, groups := (List.range 4).foldl (fun m g => KMap.put m g (min 3000 (d.groupMhz g + 50))) [] })

/-- The frequency loops at an Over edge (R137, R553, R565, R566): a step down while the hottest junction is above its target, else a step up unless the cap,
the conservative targets or 125 °C hold them; one step of 25 MHz, of core groups 50 MHz, at each edge (DESIGN CHOICE, log 42). -/
def Dev.moveClocks (d : Dev) : Dev :=
  if d.b Off.PWR_STATUS 3 then d
  else if (d.n Off.PWR_THERM_TARGET * 16 : Nat) < d.hottest then (match d.lowerClocks with | some e => e | none => d.lowerTiles)
  else if d.f Off.PWR_STATUS 1 0 ≠ 0 then d else d.raiseClocks

/-- The scrub loop of site `k` (R553, R563): its rate is the highest under the conservative targets; else it rises while the corrected errors of the last
hour exceed the target and falls otherwise, by one hour a pass at each Over edge (DESIGN CHOICE, log 42). -/
def Dev.scrubLoop (d : Dev) (k : Nat) : Dev :=
  let ce := (KMap.getD d.power.scrubCe k []).filter (fun t => decide (d.now < t + 3600000000000))
  let h := KMap.getD d.power.scrub k 1
  let next := if d.b Off.PWR_STATUS 1 then 1 else if d.n Off.PWR_SCRUB_TARGET < ce.length then max 1 (h - 1) else min 24 (h + 1)
  d.onPower (fun p => { p with scrub := KMap.put p.scrub k next, scrubCe := KMap.put p.scrubCe k ce })

/-- The conservative targets hold (R553). -/
def Dev.conservative (d : Dev) : Bool := d.b Off.PWR_STATUS 1

/-- The voltage loops hold their target margin, the largest under the conservative targets; receivers whose equalisation is enabled and not frozen move
their coefficients, whose values are open, as the domains' measured supplies are (R553, R563). -/
def Dev.adaptLoops (d : Dev) : Dev :=
  let moves := d.b Off.PWR_LOOP_CTRL 0 && !d.conservative
  { (d.onPower (fun p => { p with
      margin := if d.conservative then 15 else d.f Off.PWR_VMARGIN 3 0
      supplies := some d.fresh
      eq := if moves then (List.range p.eq.length).map (fun i => (Config.freeWord (d.fresh + 48 + i)).toNat) else p.eq })) with
    fresh := d.fresh + 48 + d.power.eq.length }

/-- The hardware loops at an Over edge, from S3 on (R563): clocks, scrub rates, supplies and equalisation. -/
def Dev.powerLoops (d : Dev) : Dev :=
  if d.stage < 3 then d else (d.moveClocks.forAll d.sites (fun k f => f.scrubLoop k)).adaptLoops

/-! ### Voxsar's heartbeat (R553) -/

/-- A heartbeat: a write of the management complex counts; others are ignored (R553). -/
def Dev.heartbeat (d : Dev) (m : Master) : Dev :=
  if isMgmt m then { d with vox := { d.vox with beat := true, beatSince := true } } else d

/-- VOX_HEARTBEAT (R545, R553). -/
def execVoxHeartbeat (m : Master) (_value : Nat) (s : State) : Host.Outcome State Fault Refusal :=
  .next (match s.dev.setupRefused m Off.VOX_HEARTBEAT 4 with
    | some d => { s with dev := d }
    | none => s.onDev (fun d => (d.heartbeat m).answer .ok))

/-- The check of a Ball edge (R553): at the second Ball in a row without a heartbeat the loops take their conservative targets. -/
def Dev.heartbeatCheck (d : Dev) : Dev :=
  if !d.start.voxsar then d
  else if d.vox.beat then { d with vox := { d.vox with beat := false, missed := 0 } }
  else
    let e := { d with vox := { d.vox with missed := min 2 (d.vox.missed + 1) } }
    if d.vox.missed ≠ 1 then e
    else
      let first := !d.b Off.PWR_STATUS 1
      (({ e with vox := { e.vox with beatSince := if first then false else e.vox.beatSince } }).setB Off.PWR_STATUS 1 true).setB Off.PWR_EVENTS 1 true

/-- After an apply of the power page: the limit follows the cap, and the first apply that follows a heartbeat ends CONSERVATIVE (R553). -/
def Dev.powerApplied (d : Dev) : Dev := (d.when d.vox.beatSince (fun e => e.setB Off.PWR_STATUS 1 false)).powerLimit

end Sys2Proof.Machine
end

