-- ==== Sys2Proof/Machine/Mailbox.lean ====
section
/-! DEFINITION. Machine/Mailbox.lean: the mailbox channels, the firmware identity record and the messages Voxsar serves (R551 to R558, R564). -/

namespace Sys2Proof.Machine

/-! ### Channels (R554 to R556) -/

/-- A channel that nothing was sent on. -/
def Mbox.empty : Mbox := { window := [], slots := [], reqs := [] }

/-- Channel `c`. -/
def Dev.box (d : Dev) (c : Nat) : Mbox := KMap.getD d.vox.boxes c Mbox.empty

/-- `d` with channel `c` changed. -/
def Dev.onBox (d : Dev) (c : Nat) (g : Mbox → Mbox) : Dev := d.onVox (fun v => { v with boxes := KMap.put v.boxes c (g (d.box c)) })

/-- Requests pending (R555): submitted and neither answered nor ended in TIMEOUT. -/
def Dev.mbxPending (d : Dev) (c : Nat) : Nat := ((d.box c).reqs.filter (fun r => !r.timedOut)).length

/-- Responses not consumed. -/
def Dev.mbxUnread (d : Dev) (c : Nat) : Nat := (d.n (Off.MBX_RSP_PROD c) + 2 ^ 32 - d.n (Off.MBX_RSP_CONS c) % 2 ^ 32) % 2 ^ 32

/-- MBX_CH_STATUS as it reads (R570). -/
def Dev.mbxStatus (d : Dev) (c : Nat) : Nat := d.mbxPending c % 16 + d.mbxUnread c % 16 * 2 ^ 8

/-- The channel's world (R554, R570). -/
def Dev.mbxWorld (d : Dev) (c : Nat) : Bool := d.b (Off.MBX_CH_CTRL c) 1

/-- A refusal of R554 or R558, logged with KIND 4. -/
def Dev.mbxDenied (d : Dev) (m : Master) (c : Nat) : Dev := d.wldDenied 3 4 m c (Off.MBX_SUBMIT c)

/-- The bytes of the submit window. -/
def Mbox.bytes (b : Mbox) : List Byte := b.window ++ zeros (512 - b.window.length)

/-- Byte 0x0 of a message: MAJOR (R555). -/
def msgMajor (b : List Byte) : Nat := leAt b 0 1
/-- MINOR. -/
def msgMinor (b : List Byte) : Nat := leAt b 1 1
/-- TYPE. -/
def msgType (b : List Byte) : Nat := leAt b 2 2
/-- LENGTH. -/
def msgLength (b : List Byte) : Nat := leAt b 4 4
/-- TAG. -/
def msgTag (b : List Byte) : Nat := leAt b 8 4

/-- FW_MAJOR and FW_MINOR of the identity record (R557). -/
def Dev.fwMajor (d : Dev) : Nat := leAt d.vox.record 4 2
/-- FW_MINOR. -/
def Dev.fwMinor (d : Dev) : Nat := leAt d.vox.record 6 2

/-- A submit's effect: refused, BUSY, or queued with a response slot reserved (R554, R555). A disabled channel takes nothing. -/
def Dev.mbxSubmit (d : Dev) (m : Master) (c : Nat) : Dev :=
  let b := (d.box c).bytes
  if !d.b (Off.MBX_CH_CTRL c) 0 then d
  else if d.mbxWorld c && !d.world m then (d.mbxDenied m c).wn (Off.MBX_SUBMIT_STATUS c) 0x22
  else if 496 < msgLength b then d.wn (Off.MBX_SUBMIT_STATUS c) 0x20
  else if 8 ≤ d.mbxPending c + d.mbxUnread c then (d.wn (Off.MBX_SUBMIT_STATUS c) 0x31).setB (Off.MBX_CH_EVENTS c) 1 true
  else (d.onBox c (fun x => { x with reqs := x.reqs ++ [{ msg := b.take (16 + msgLength b), since := d.now, timedOut := false, answer := none }] })).wn
    (Off.MBX_SUBMIT_STATUS c) 0

/-- No check of R554 and R555 turns the message in the window away. -/
def Dev.mbxTakes (d : Dev) (m : Master) (c : Nat) : Bool :=
  d.b (Off.MBX_CH_CTRL c) 0 && !(d.mbxWorld c && !d.world m) && decide (msgLength (d.box c).bytes ≤ 496 ∧ d.mbxPending c + d.mbxUnread c < 8)

/-- The message taken has another major version than the firmware, once the identity record is there: undefined (R557). -/
def Dev.mbxUndefined (d : Dev) (m : Master) (c : Nat) : Bool := d.mbxTakes m c && !d.vox.record.isEmpty && msgMajor (d.box c).bytes != d.fwMajor

/-- A write of MBX_SUBMIT by a master (R545, R554, R555). -/
def State.mbxWrite (s : State) (m : Master) (c value : Nat) : Host.Outcome State Fault Refusal :=
  match s.dev.setupRefused m (Off.MBX_SUBMIT c) 4 with
  | some d => .next { s with dev := d }
  | none =>
    if nbit value 0 && decide (c < 16) then
      if s.dev.mbxUndefined m c then .fault .mboxMajorUndefined else .next (s.onDev (fun d => (d.mbxSubmit m c).answer .ok))
    else .next (s.onDev (fun d => d.answer .ok))

/-- MBX_SUBMIT (R545, R554, R555, R557). -/
def execMbxSubmit (m : Master) (c value : Nat) (s : State) : Host.Outcome State Fault Refusal := s.mbxWrite m c value

/-- A response: the request's header with LENGTH and STATUS, FW_MINOR for a later minor version, and the payload (R555 to R557). -/
def Dev.response (d : Dev) (msg : List Byte) (status : Nat) (payload : List Byte) : List Byte :=
  leBytes 1 (msgMajor msg) ++ leBytes 1 (if d.fwMinor < msgMinor msg then d.fwMinor else msgMinor msg) ++ leBytes 2 (msgType msg) ++
    leBytes 4 payload.length ++ leBytes 4 (msgTag msg) ++ leBytes 2 status ++ [0, 0] ++ payload

/-- A response is written into the next slot, the producer index advances and the interrupt is raised (R556). -/
def Dev.respond (d : Dev) (c : Nat) (bytes : List Byte) : Dev :=
  let k := d.n (Off.MBX_RSP_PROD c) % 8
  let old := KMap.getD (d.box c).slots k (zeros 512)
  (((d.onBox c (fun x => { x with slots := KMap.put x.slots k (splice old 0 bytes) })).incWrap (Off.MBX_RSP_PROD c)).setB
    (Off.MBX_CH_EVENTS c) 0 true).emit (.mboxIrq c (d.f (Off.MBX_CH_CTRL c) 12 8))

/-- Request `k` of a channel. -/
def Dev.mbxReq (d : Dev) (c k : Nat) : Option MboxReq := (d.box c).reqs[k]?

/-- Request `k` of a channel leaves the list. -/
def Dev.mbxDrop (d : Dev) (c k : Nat) : Dev := d.onBox c (fun x => { x with reqs := x.reqs.eraseIdx k })

/-- MBX_TIMEOUT (R556): a request not answered in TIMEOUT_MS receives a response from the module; a later answer is discarded. -/
def execMbxTimeout (c k : Nat) (s : State) : Host.Outcome State Fault Refusal :=
  .next (s.onDev (fun d => match d.mbxReq c k with
    | none => d
    | some r =>
      if r.timedOut ∨ d.now < r.since + d.f (Off.MBX_CH_CTRL c) 29 16 * 1000000 then d
      else ((d.onBox c (fun x => { x with reqs := x.reqs.set k { r with timedOut := true } })).respond c (d.response r.msg 0x13 [])).setB
        (Off.MBX_CH_EVENTS c) 2 true))

/-- Message types that the firmware serves (R558). -/
def knownType (t : Nat) : Bool := [0x10, 0x11, 0x12, 0x20, 0x21, 0x30, 0x40].contains t

/-- MBX_RESPONSE (R556, R558): Voxsar's answer to a request goes into the queue, INVALID_DESCRIPTOR for an unknown type; an answer to a request
that has timed out is discarded. -/
def execMbxResponse (c k : Nat) (s : State) : Host.Outcome State Fault Refusal :=
  .next (s.onDev (fun d => match d.mbxReq c k with
    | none => d
    | some r =>
      let a := if knownType (msgType r.msg) then r.answer else some (0x20, [])
      match a with
      | none => d
      | some x => if r.timedOut then d.mbxDrop c k else (d.mbxDrop c k).respond c (d.response r.msg x.1 x.2)))

/-! ### The messages (R558) -/

/-- Voxsar runs and serves a request of a type that it has not answered. -/
def Dev.mbxServes (d : Dev) (c k type : Nat) : Option MboxReq :=
  match d.mbxReq c k with
  | none => none
  | some r => if d.start.voxsar && r.answer.isNone && msgType r.msg == type then some r else none

/-- Voxsar has made its answer to a request. -/
def Dev.mbxAnswer (d : Dev) (c k status : Nat) (payload : List Byte) : Dev :=
  d.onBox c (fun x => { x with reqs := x.reqs.modify k (fun r => { r with answer := some (status, payload) }) })

/-- A message's payload. -/
def MboxReq.payload (r : MboxReq) : List Byte := r.msg.drop 16

/-- Voxsar serves a request of a type: DENIED for a secure type on a normal-world channel, INVALID_DESCRIPTOR for a payload of fewer than `n`
bytes (DESIGN CHOICE, log 44), else `f` of the payload. -/
def Dev.serve (d : Dev) (c k type n : Nat) (secure : Bool) (f : List Byte → Dev → Nat × List Byte × Dev) : Dev :=
  match d.mbxServes c k type with
  | none => d
  | some r =>
    if secure && !d.mbxWorld c then (d.mbxDenied .mgmt c).mbxAnswer c k 0x22 []
    else if r.payload.length < n then d.mbxAnswer c k 0x20 []
    else
      let x := f r.payload d
      x.2.2.mbxAnswer c k x.1 x.2.1

/-- PWR_GET (R558, R566): the junctions are measured for the answer. -/
def execPwrGet (c k : Nat) (temps : List (Nat × Int)) (s : State) : Host.Outcome State Fault Refusal :=
  .next (s.onDev (fun d0 => d0.serve c k 0x10 0 false (fun _ d1 =>
    let d := d1.measureTemps temps
    (0, [d.n Off.PWR_INPUT_MV, d.n Off.PWR_INPUT_MW, d.n Off.PWR_LIMIT_W, d.n Off.PWR_CAP_W, unsignedOf 32 d.hottest, d.n Off.PWR_STATUS].flatMap (leBytes 4), d))))

/-- PWR_SET_CAP (R558, R565): the cap is clamped to 150 W to 560 W and applies. -/
def execPwrSetCap (c k : Nat) (s : State) : Host.Outcome State Fault Refusal :=
  .next (s.onDev (fun d0 => d0.serve c k 0x11 4 true (fun p d =>
    let w := nearest 150 560 1 (leAt p 0 4)
    (0, leBytes 4 w, (d.wn Off.PWR_CAP_W w).powerLimit))))

/-- THERM_SET_TARGET (R558, R566): the target is clamped to 70 °C to 110 °C and applies. -/
def execThermSetTarget (c k : Nat) (s : State) : Host.Outcome State Fault Refusal :=
  .next (s.onDev (fun d0 => d0.serve c k 0x12 4 true (fun p d =>
    let t := nearest 70 110 1 (leAt p 0 4)
    (0, leBytes 4 t, d.wn Off.PWR_THERM_TARGET t))))

/-- DOM_SET (R558, R561): a domain request with the channel's world. -/
def execDomSet (c k : Nat) (halted : Bool) (s : State) : Host.Outcome State Fault Refusal :=
  .next ((s.onDev (fun d0 => d0.serve c k 0x20 4 false (fun p d =>
    let r := d.domRequest .mgmt (d.mbxWorld c) (leAt p 0 1) (leAt p 1 1) halted
    (r.1, [], r.2)))).admitAll)

/-- DOM_GET (R558): PWR_DOM_STATE of the domain; a number above 47 names none. -/
def execDomGet (c k : Nat) (s : State) : Host.Outcome State Fault Refusal :=
  .next (s.onDev (fun d0 => d0.serve c k 0x21 1 false (fun p d =>
    if leAt p 0 1 < 48 then (0, leBytes 4 (d.domReg (leAt p 0 1)), d) else (0x20, [], d))))

/-- Where a copy of the stored operating points lies in the region of R61 (R564). -/
def oppOff (k : Nat) : Nat := 0x300000 + k % 2 * 0x80000

/-- Voxsar writes the older copy (R564). -/
def State.oppWrite (s : State) (copy : List Byte) : State :=
  let k := s.dev.vox.oppOlder
  ((s.flashErase (oppOff k) 0x80000).flashProgram (oppOff k) (copy.take 0x80000)).onDev (fun d => d.onVox (fun v => { v with oppOlder := (k + 1) % 2 }))

/-- OPP_STORE (R558, R564): the older copy is written, or BUSY while CONSERVATIVE. -/
def execOppStore (c k : Nat) (copy : List Byte) (s : State) : Host.Outcome State Fault Refusal :=
  .next (match s.dev.mbxServes c k 0x30 with
    | none => s
    | some _ =>
      if !s.dev.mbxWorld c then s.onDev (fun d => (d.mbxDenied .mgmt c).mbxAnswer c k 0x22 [])
      else if s.dev.conservative then s.onDev (fun d => d.mbxAnswer c k 0x31 [])
      else (s.oppWrite copy).onDev (fun d => d.mbxAnswer c k 0 []))

/-- OPP_STORE_TIMER (R564): 60 s after the first handover and every 24 h after that, the older copy is written unless CONSERVATIVE. -/
def execOppStoreTimer (copy : List Byte) (s : State) : Host.Outcome State Fault Refusal :=
  .next (match s.dev.vox.oppAt with
    | none => s
    | some a =>
      if s.dev.start.voxsar && decide (a ≤ s.dev.now) then
        (if s.dev.conservative then s else s.oppWrite copy).onDev (fun d => d.onVox (fun v => { v with oppAt := some (a + 24 * 3600 * 1000000000) }))
      else s)

/-- ATTEST (R558): the report is written at the request's address with the channel's world; too small a space is INVALID_DESCRIPTOR, a refused
write DENIED. -/
def execAttest (c k : Nat) (report : List Byte) (s : State) : Host.Outcome State Fault Refusal :=
  .next (match s.dev.mbxServes c k 0x40 with
    | none => s
    | some r =>
      let b := report.take 6144
      let a := leAt r.payload 32 8 % 2 ^ 52
      if r.payload.length < 44 ∨ leAt r.payload 40 4 < b.length then s.onDev (fun d => d.mbxAnswer c k 0x20 [])
      else match s.dev.verdict .mgmt (s.dev.mbxWorld c) .write a b.length with
        | .ok => ((s.put a b).watchLines a b.length).onDev (fun d => (d.clearSems a b.length).mbxAnswer c k 0 (leBytes 4 b.length))
        | v => s.onDev (fun d => (d.refuse v a).mbxAnswer c k 0x22 []))

end Sys2Proof.Machine
end

