-- ==== Sys2Proof/Machine/Links.lean ====
section
/-! DEFINITION. Machine/Links.lean: Ivmund ports, the module's supply sequence, and JTAG (R571 to R581, R589, R590, R595 to R597). -/

namespace Sys2Proof.Machine

/-! ### Ivmund ports (R571 to R581) -/

/-- STATE of a port: 0 DOWN, 1 TRAINING, 2 UP, 3 ABSENT. -/
def Dev.ivmState (d : Dev) (p : Nat) : Nat := d.f (Off.IVM_PORT_STATUS p) 1 0

/-- The module that index `p` leads to, its place in the group, and the index it must be wired to there (R572, R573). -/
def Dev.wiredTo (d : Dev) (p : Nat) : Option (Nat × Nat) :=
  let gs := ivmGroups d.modules d.ioDies
  (List.range gs.length).findSome? (fun k =>
    let g := gs.getD k []
    if g.contains p then
      let b := (d.moduleNum + k + 1) % d.modules
      let back := gs.getD (groupTo d.modules b d.moduleNum) []
      (back[g.findIdx (fun x => x == p)]?).map (fun q => (b, q))
    else none)

/-- What a trained index carries, in GB/s (R571). -/
def Dev.portBw (d : Dev) (p : Nat) : Nat := if d.halfPort p then 100 else 200

/-- The list of R575 for peer `m`, whether it is reachable, and IVM_PEER_BW follow the trained ports (R576). -/
def Dev.rebuildPeer (d : Dev) (m : Nat) : Dev :=
  let up := if m < d.modules ∧ m ≠ d.moduleNum then (d.portsTo m).filter (fun p => d.ivmState p == 2) else []
  (({ d with peers := if up.isEmpty then KMap.del d.peers m else KMap.put d.peers m (up.flatMap (fun p => if d.halfPort p then [p] else [p, p])) }).setB
    Off.IVM_STATUS (16 + m) (!up.isEmpty)).wn (Off.IVM_PEER_BW m) ((up.map d.portBw).sum)

/-- Every peer's list follows the trained ports: at an Over edge (R576). -/
def Dev.rebuildPeers (d : Dev) : Dev := d.forEach 4 (fun m e => e.rebuildPeer m)

/-- A newly trained port joins its peer's list at once, or at the next Over edge while the list holds a port that has gone down (R575, R576). -/
def Dev.joinPeer (d : Dev) (m : Nat) : Dev :=
  if (KMap.getD d.peers m []).all (fun p => d.ivmState p == 2) then d.rebuildPeer m else d

/-- GLB_MODULE.TIME_SOURCE follows IVM_CTRL.TIME_SRC (R43, R578). -/
def Dev.timeSource (d : Dev) : Dev := d.setB Off.GLB_MODULE 4 (d.f Off.IVM_CTRL 5 4 == d.moduleNum)

/-- The two ends disagree on the time source: the lower value holds (R578). -/
def Dev.agreeSource (d : Dev) (peerSrc : Nat) : Dev :=
  let mine := d.f Off.IVM_CTRL 5 4
  if mine = peerSrc % 4 then d
  else ((d.setF Off.IVM_CTRL 5 4 (min mine (peerSrc % 4))).timeSource).setB Off.IVM_EVENTS 3 true

/-- PORT_UP (R573 to R575, R578, R581): a trained port whose peer matches the wiring comes up, and the peer's stacks bound its window (R44);
another sets WIRING. -/
def execPortUp (p peer peerPort : Nat) (peerHalf : Bool) (lanes : Nat) (known : PeerInfo) (s : State) : Host.Outcome State Fault Refusal :=
  .next (s.onDev (fun d =>
    if 12 ≤ p ∨ d.b Off.IVM_CTRL 0 = false ∨ d.domOn (43 + p % 6 / 3) = false ∨ d.ivmState p = 2 then d
    else match d.wiredTo p with
      | none => d
      | some w =>
        if peer ≠ w.1 ∨ peer = d.moduleNum ∨ peerPort + cond peerHalf 6 0 ≠ w.2 then d.setB Off.IVM_EVENTS 2 true
        else
          let e := d.wn (Off.IVM_PORT_STATUS p) (2 + peer * 2 ^ 4 + peerPort % 8 * 2 ^ 8 + cond peerHalf 1 0 * 2 ^ 11 + cond (d.halfPort p) 1 0 * 2 ^ 12 + lanes % 2 ^ 16 * 2 ^ 16)
          let f := { (e.setB Off.IVM_STATUS p true).setB Off.IVM_EVENTS 1 true with peerStacks := KMap.put d.peerStacks peer known.hbm, linkFails := KMap.del d.linkFails p }
          (f.joinPeer peer).agreeSource known.src))

/-- FLIT_RETRY (R576): a flit is retransmitted; retransmissions that fail one after another are counted. -/
def execFlitRetry (f : FlitTry) (s : State) : Host.Outcome State Fault Refusal :=
  .next (s.onDev (fun d =>
    if f.port < 12 ∧ d.ivmState f.port = 2 then
      { (d.incSat (Off.IVM_PORT_RETRY f.port)) with linkFails := if f.whole then KMap.del d.linkFails f.port else KMap.put d.linkFails f.port (KMap.getD d.linkFails f.port 0 + 1) }
    else d))

/-- PORT_DOWN (R576): after 16 failed retransmissions in a row the port goes DOWN; commands with accesses in flight on it complete with
ECC_UNCORRECTABLE. Its granules map to it until the next Over edge. -/
def execPortDown (p : Nat) (ids : List Nat) (s : State) : Host.Outcome State Fault Refusal :=
  .next (if p < 12 ∧ s.dev.ivmState p = 2 ∧ 16 ≤ KMap.getD s.dev.linkFails p 0 then
    let t := s.onDev (fun d => ((((d.setF (Off.IVM_PORT_STATUS p) 1 0 0).setF (Off.IVM_PORT_STATUS p) 31 16 0).setB Off.IVM_STATUS p false).incSat
      (Off.IVM_PORT_DOWNS p)).setB Off.IVM_EVENTS 0 true)
    (t.forAll ids (fun id u => match u.dev.cmd id with
      | none => u
      | some c => if c.underWay = true then u.inputEnd id 0x32 else u)).admitAll
  else s)

/-- After an apply of the Ivmund page, with ENABLE and TIME_SRC before it: the ports of the groups begin to train, or go down (R574, R581). -/
def Dev.ivmApplied (d : Dev) (was : Bool) : Dev :=
  let ports := (ivmGroups d.modules d.ioDies).flatMap id
  let e := d.timeSource
  if e.b Off.IVM_CTRL 0 = was then e
  else if was then ((e.forAll ports (fun p x => (x.wn (Off.IVM_PORT_STATUS p) 0).setB Off.IVM_STATUS p false))).rebuildPeers
  else e.forAll ports (fun p x => x.wn (Off.IVM_PORT_STATUS p) (1 + cond (d.halfPort p) 1 0 * 2 ^ 12))

/-! ### Supply (R589, R590) -/

/-- MODULE_START (R589): the start conditions have held for 10 ms; power good follows. -/
def execModuleStart (s : State) : Host.Outcome State Fault Refusal :=
  .next (s.onDev (fun d => if d.start.powered || d.power.holdoff then d else d.onPower (fun p => { p with starting := true })))

/-- A module without supply: only the part stays; MOD_FAULT_N is low (R590, R593). -/
def Dev.unpowered (d : Dev) (holdoff : Bool) : Dev :=
  { Dev.reset with
    hbmStacks := d.hbmStacks, ioDies := d.ioDies, stepping := d.stepping, fresh := d.fresh, out := d.out
    vox := { Dev.reset.vox with oppOlder := d.vox.oppOlder }, power := { Dev.reset.power with holdoff := holdoff } }

/-- MODULE_TURN_OFF (R589, R590): every rail goes off; nothing but flash survives. -/
def execModuleTurnOff (overcurrent : Bool) (s : State) : Host.Outcome State Fault Refusal :=
  .next { s with dev := s.dev.unpowered overcurrent, mem := [] }

/-- OVERCURRENT_HOLDOFF (R589): 500 ms after an overcurrent turn-off, from which the clock counts, the start conditions are checked again. -/
def execOvercurrentHoldoff (s : State) : Host.Outcome State Fault Refusal :=
  .next (s.onDev (fun d => if 500000000 ≤ d.now then d.onPower (fun p => { p with holdoff := false }) else d))

/-! ### JTAG (R595 to R597) -/

/-- The value of the IDCODE register (R596). -/
def Dev.idcode (d : Dev) : Nat := d.stepping / 16 * 2 ^ 28 + 0x6400 * 2 ^ 12 + 0x2C7 * 2 + 1

/-- Instructions that drive pins act: bench hold, and DBG_REQ is 1 (R60, R597). -/
def Dev.jtagDrives (d : Dev) : Bool := decide (2 ≤ d.bootMode) && d.b Off.START_STRAPS 3

/-- An instruction is selected; it drives nothing. -/
def Dev.selectIr (d : Dev) (code : Nat) : Dev := { d with tap := { d.tap with ir := code, drives := none } }

/-- An instruction that drives pins is selected: it drives them, or acts as BYPASS and its register captures 0 (R595, R597). -/
def Dev.drive (d : Dev) (code : Nat) : Dev :=
  if d.jtagDrives then ({ d with tap := { d.tap with ir := code, drives := some code } }).emit (.jtagDrive code)
  else (d.selectIr code).answer (.data 0)

/-- TAP_RESET (R595): IDCODE is selected. -/
def execTapReset (s : State) : Host.Outcome State Fault Refusal := .next (s.onDev (fun d => d.selectIr 0x01))

/-- IDCODE (R596). -/
def execIdcode (s : State) : Host.Outcome State Fault Refusal := .next (s.onDev (fun d => (d.selectIr 0x01).answer (.data d.idcode)))

/-- SAMPLE/PRELOAD (R595): the pins are sampled and the cells loaded. -/
def execSamplePreload (pins cells : Nat) (s : State) : Host.Outcome State Fault Refusal :=
  .next (s.onDev (fun d => ({ (d.selectIr 0x02) with tap := { (d.selectIr 0x02).tap with cells := cells } }).answer (.data pins)))

/-- EXTEST (R595, R597): the cells drive the pins; a scan captures the pins and loads the cells. -/
def execExtest (pins cells : Nat) (s : State) : Host.Outcome State Fault Refusal :=
  .next (s.onDev (fun d =>
    let e := d.drive 0x03
    if d.jtagDrives then ({ e with tap := { e.tap with cells := cells } }).answer (.data pins) else e))

/-- HIGHZ (R595, R597). -/
def execHighz (s : State) : Host.Outcome State Fault Refusal := .next (s.onDev (fun d => d.drive 0x04))

/-- CLAMP (R595, R597). -/
def execClamp (s : State) : Host.Outcome State Fault Refusal := .next (s.onDev (fun d => d.drive 0x05))

/-- EXTEST_PULSE (R595, R597). -/
def execExtestPulse (s : State) : Host.Outcome State Fault Refusal := .next (s.onDev (fun d => d.drive 0x06))

/-- EXTEST_TRAIN (R595, R597). -/
def execExtestTrain (s : State) : Host.Outcome State Fault Refusal := .next (s.onDev (fun d => d.drive 0x07))

/-- DEBUG (R440, R595): the debug access port answers where debug is granted; else the instruction captures 0 as BYPASS does. -/
def execDebug (s : State) : Host.Outcome State Fault Refusal :=
  .next (s.onDev (fun d => (d.selectIr 0x10).answer (if d.b Off.ISL_STATUS 5 then .ok else .data 0)))

/-- BYPASS (R595): the one-bit register captures 0. -/
def execBypass (s : State) : Host.Outcome State Fault Refusal := .next (s.onDev (fun d => (d.selectIr 0xFF).answer (.data 0)))

end Sys2Proof.Machine
end

