-- ==== Sys2Proof/Machine/Edges.lean ====
section
/-! DEFINITION. Machine/Edges.lean: what the blocks do at an Over edge and at a Ball edge (R31 to R36, R86, R87, R319, R320, R335 to R337, R471). -/

namespace Sys2Proof.Machine

/-! ### S5 entry (R86, R101) -/

/-- Every credit counter of an umpire is at its refill value (R384). -/
def Umpire.full (u : Umpire) : Umpire := { u with credit := (List.range 16).foldl (fun m c => KMap.put m c (u.refill c)) [] }

/-- At the first edge after READY, S5 begins: UNTRUSTED_LEFT is N, credits are full, and every enabled ring's doorbell is read once. -/
def State.enterS5 (s : State) : State :=
  if s.dev.start.ready && s.dev.stage == 4 then
    ((s.onDev (fun d =>
      { ((d.setStage 5).setF Off.START_STAGE 15 8 (d.f Off.KPR_CTRL 7 0)) with umps := KMap.mapV d.umps (fun _ u => u.full) })).readAllDoorbells).readAllSessions
  else s

/-! ### The line judge and the Keeper at an edge (R31, R409, R435) -/

/-- Whether Over `over` was clean is kept for the entries published after its end (R430): the last 16 Overs. -/
def Dev.recordClean (d : Dev) (ovr : Nat) (clean : Bool) : Dev :=
  d.onKeeper (fun k => { k with clean := (KMap.put k.clean ovr clean).filter (fun p => decide ((ovr + 2 ^ 32 - p.1) % 2 ^ 32 < 16)) })

/-- Triggers raised from here on belong to the new Over (R405, R406). -/
def Dev.newOver (d : Dev) : Dev := (d.onKeeper (fun k => { k with codes := [], logged := [] })).setB Off.KPR_STATUS 4 false

/-- The triggers that the new Over begins with: a missing time reference (R23) and pairs that do not run (R404). -/
def Dev.edgeDoubts (d : Dev) : Dev :=
  (d.when (d.b Off.OVER_CTRL 24 && decide (5 ≤ d.stage) && (d.srcState == 0 || d.srcState == 3)) (fun e => e.doubt 7 e.srcState)).pairDoubts

/-- The safety partition is reset by a red card (R414). -/
def State.redReset (s : State) (red : Bool) : State :=
  match s.dev.safetyNow with
  | some p => if red then s.partReset p else s
  | none => s

/-- The verdict, the cards and the clean count of the Over that ended, then the entries and the ownership of the new one. -/
def State.keeperEdge (s : State) (ovr : Nat) (wasDead isDead : Bool) : State :=
  let t := s.onDev (fun d => d.verdictAt wasDead ovr)
  let clean := t.dev.wasClean wasDead
  let c := (t.dev.recordClean ovr clean).cards ovr
  let u := t.onDev (fun _ => c.1.countClean wasDead clean)
  (u.redReset c.2).onDev (fun d => ((d.newOver.edgeDoubts).applyPublished).decideOwner isDead)

/-! ### The scheduler at an edge (R35, R320, R331 to R337) -/

/-- A tile's applied PARTITION or WORLD waits for its release: PENDING (R182). -/
def Dev.tilePending (d : Dev) (t : Nat) : Bool :=
  (d.tile t).part != d.f (Off.TILE_CTRL t) 7 4 || (d.tile t).world != d.b (Off.TILE_CTRL t) 8

/-- The latest applied settings that are at least 1 µs old are in force (R320). -/
def Dev.takeSettings (d : Dev) : Dev :=
  match (d.sched.due.filter (fun x => decide (x.1 ≤ d.now))).getLast? with
  | none => d
  | some x =>
    { d with sched := { d.sched with ctrl := x.2.1, pctrl := x.2.2.1, pwin := x.2.2.2, due := d.sched.due.filter (fun y => decide (d.now < y.1)) } }

/-- SAFETY_PART of a value of SCH_CTRL. -/
def safetyOf (ctrl : W64) : Option Nat := if fld ctrl 3 0 < 8 then some (fld ctrl 3 0) else none

/-- The settings take force; a change of SAFETY_PART resets the old and the new safety partition (R320). -/
def State.settingsEdge (s : State) : State :=
  let d := s.dev.takeSettings
  let old := s.dev.safetyNow
  let new := safetyOf d.sched.ctrl
  if old = new then s.onDev (fun _ => d)
  else
    let t := match old with | some p => s.partReset p | none => s
    let u := t.onDev Dev.takeSettings
    match new with | some p => u.partReset p | none => u

/-- A FAULTY bank of the safety partition resets it (R445). -/
def State.faultyEdge (s : State) : State :=
  s.forAll (List.range 8) (fun p t =>
    if (t.dev.part p).resetDue then (t.onDev (fun d => d.onPart p (fun x => { x with resetDue := false }))).partReset p else t)

/-- The class minimums are taken, and SCH_LOADER_BW follows (R329, R383). -/
def Dev.takeClassMin (d : Dev) : Dev :=
  let e := { d with sched := { d.sched with classMin := (List.range 16).foldl (fun m c => KMap.put m c (d.classMinimum c)) [] } }
  e.wn Off.SCH_LOADER_BW (e.loaderBw.1 / e.loaderBw.2)

/-- A load whose data already moves. -/
def Load.moving (l : Load) : Bool := l.started.isSome

/-- Work admitted and not started is no longer admitted: commands wait in their rings (R35). A load whose data moves goes on. -/
def Cmd.unadmit (c : Cmd) : Cmd :=
  { c with phase := if c.phase = .admitted then Phase.waiting else c.phase, load := c.load.filter Load.moving }

/-- Partition `p`'s admitted schedule is discarded (R35, R320). -/
def Dev.discardSchedule (d : Dev) (p : Nat) : Dev :=
  let ids := ((d.part p).streams.flatMap (fun x => x.admitted ++ x.moved))
  let e := d.forAll ids (fun id y => y.onCmd id Cmd.unadmit)
  e.onPart p (fun x => { x with streams := x.streams.map (fun st =>
    { st with admitted := st.admitted.filter (fun id => (e.cmd id).any (fun c => c.isRun && c.started || c.load.isSome)), moved := [] }) })

/-- The streams that differ between two divisions of a partition. -/
def streamsChanged (old new : List (List Nat)) (k : Nat) : Bool := old.getD k [] != new.getD k []

/-- Loads whose data moves, or whose banks wait for publication, in streams that change are given up with their banks (R320, R330). -/
def Dev.dropLoads (d : Dev) (p : Nat) (which : Nat → Bool) : Dev :=
  { d with cmds := KMap.mapV d.cmds (fun _ c =>
      if d.instPart c.inst = p ∧ c.load.any (fun l => l.moving && which l.stream) = true then { c with load := none } else c) }

/-- The streams of partition `p` are computed again when its tiles have changed and none shows PENDING (R320): unpinned plans leave the changed
streams, pinned plans are to be reloaded, and the schedule is discarded. -/
def Dev.restream (d : Dev) (p : Nat) : Dev :=
  let old := (d.part p).tiles
  let new := d.computeStreams p
  if old = new ∨ (d.partTiles p).any (fun t => d.tilePending t) = true then d
  else
    (((d.evictPart p (fun x => x.pinned || x.resident.any (fun k => streamsChanged old new k))).dropLoads p (streamsChanged old new)).discardSchedule p).onPart p (fun x =>
      { x with tiles := new, streams := (List.range new.length).map (fun k => x.streams.getD k Stream.empty) })

/-- SPLIT_BAD of partition `p` as the streams now stand; the event when it becomes 1 (R319, R363). -/
def Dev.showSplit (d : Dev) (p : Nat) : Dev :=
  let bad := d.safetyNow == some p && (d.part p).tiles.isEmpty
  (d.when (bad && !d.b (Off.SCH_PART_STATUS p) 16) (fun e => e.setB Off.SCH_EVENTS 3 true)).setB (Off.SCH_PART_STATUS p) 16 bad

/-- Rate-limit counters restart, and what was served in the Over that ended becomes the previous Over's (R31, R335). -/
def Dev.restartRates (d : Dev) : Dev :=
  { d with insts := KMap.mapV d.insts (fun _ x => { x with usedCmds := 0, usedTileUs := 0, usedKib := 0, servedPrev := x.served, served := 0 }) }

/-- Overs in a row in which a waiting command was skipped for lack of budget (R337); a dead Over, in which none is considered, counts neither way. -/
def Dev.countSkips (d : Dev) (wasDead : Bool) : Dev :=
  if wasDead then d
  else { d with cmds := KMap.mapV d.cmds (fun _ c => { c with skips := if c.skipped then c.skips + 1 else 0, skipped := false }) }

/-- The charge of work carried over an edge (R334, R336): none when it leaves the stream. -/
def Dev.carried (d : Dev) (p id : Nat) : Option Nat :=
  match d.cmd id with
  | none => none
  | some c => match c.phase with
    | .running => if c.isRun then some (c.wcetUs * 1000 - (d.now - c.startAt)) else c.load.map (fun l => min (d.budget p) (d.loadLeft p l))
    | .admitted => some (c.load.elim 0 (d.loadLeft p) + c.wcetUs * 1000)
    | .waiting => c.load.map (fun l => min (d.budget p) (d.loadLeft p l))
    | .held => none
    | _ => some 0

/-- Stream `k` of partition `p` begins an Over with the work carried to it (R335, R336). -/
def Dev.carryStream (d : Dev) (p k : Nat) : Dev :=
  let st := d.stream p k
  let ids := (st.admitted ++ st.moved).filterMap (fun id => (d.carried p id).map (fun n => (id, n)))
  (d.forAll ids (fun x e => e.onCmd x.1 (fun c => { c with charge := x.2 }))).onStream p k (fun y =>
    { y with admitted := ids.map (fun x => x.1), moved := [], used := (ids.map (fun x => x.2)).sum, bonus := 0 })

/-- Every stream begins the Over; a partition whose reset has ended admits again (R345). -/
def Dev.carryAll (d : Dev) : Dev :=
  d.forEach 8 (fun p e =>
    ((e.forEach (e.part p).tiles.length (fun k f => f.carryStream p k)).when (e.part p).resumeAtEdge (fun f =>
      f.onPart p (fun x => { x with resumeAtEdge := false }))).showSplit p)

/-- The scheduler's actions at an edge; `geom`: a geometry change takes effect at it (R35). -/
def State.schedEdge (s : State) (wasDead isDead geom : Bool) : State :=
  let t := (s.settingsEdge).faultyEdge
  let u := t.onDev (fun d => (d.takeClassMin.when geom (fun e => e.forEach 8 (fun p f => f.discardSchedule p))).forEach 8 (fun p e => e.restream p))
  let v := (u.onDev Dev.restartRates).deadlines
  let w := v.onDev (fun d => (d.countSkips wasDead).carryAll)
  if isDead then w.admitOthers else w.admitAll

/-! ### Ball edges (R32, R33, R319, R471) -/

/-- The safety partition's window closes: each of its commands picked up before the window opened and still not admitted raises code 3 (R319).
In a dead Over, in which nothing can be admitted, none does (DEDUCED from R25 and R87, log 45). -/
def Dev.windowCloses (d : Dev) : Dev :=
  match d.safetyNow with
  | none => d
  | some p =>
    if d.deadOver then d
    else d.forAll d.cmds (fun x e =>
      if x.2.isRun && x.2.phase == .waiting && e.instPart x.2.inst == p && decide (x.2.startAt < e.time.edgeAt + e.ballStart (e.window p).1) then
        e.doubt 3 (x.2.inst % 256 + 0x200)
      else e)

/-- The safety partition's window ends with Ball `k`. -/
def Dev.windowEnds (d : Dev) (k : Nat) : Bool :=
  match d.safetyNow with
  | none => false
  | some p => decide ((d.window p).1 ≤ (d.window p).2) && (d.window p).2 == k

/-- A DRAW_LIST runs or is queued on the partition's tiles (R471). -/
def Dev.drawsOn (d : Dev) (p : Nat) : Bool :=
  d.cmds.any (fun x => x.2.isDraw && (d.ctxTiles x.2.inst (x.2.at 0x1C 1)).any (fun t => d.tilePart t == p))

/-- With no graphics work the share kept of this Ball is added to every stream's budget (R471). -/
def Dev.releaseShares (d : Dev) (k : Nat) : Dev :=
  if d.deadOver then d
  else d.forEach 8 (fun p e =>
    if decide (0 < e.gfxShare p) && decide ((e.window p).1 ≤ k) && decide (k ≤ (e.window p).2) && !e.drawsOn p then
      e.onPart p (fun x => { x with streams := x.streams.map (fun st =>
        { st with bonus := st.bonus + e.overNs * 9995 * e.gfxShare p / (e.balls * 1000000) }) })
    else e)

/-- The actions of R32 at the edge of Ball `k`. -/
def State.ballActions (s : State) (k : Nat) : State :=
  let t := (s.onDev (fun d => if k ≠ 0 ∧ d.windowEnds (k - 1) = true then d.windowCloses else d)).pollDoorbells.pollSessions
  let u := t.onDev (fun d => d.heartbeatCheck.releaseShares k)
  (if u.dev.deadOver then u else u.admitAll).onDev Dev.selfTest

/-- BALL_EDGE (R17, R25, R32, R599): the next Ball of the Over begins when its instant has come; the last Ball lasts until the edge. -/
def execBallEdge (s : State) : Host.Outcome State Fault Refusal :=
  .next (match s.dev.nextBall with
    | none => s
    | some k =>
      if s.dev.runs && s.dev.ballDue k then
        ((s.onDev (fun d => (d.reportBall k).wn Off.OVER_BALL k)).ballActions k).serveReset.onDev (fun d => d.reportBad [])
      else s)

/-! ### Over edges -/

/-- A follower reports the one-way delay it measures on a trained port to the time source (R579). -/
def Dev.sideband (d : Dev) (ps : Nat) : Dev :=
  d.when (d.follower && d.sidebandUp) (fun e => e.wn Off.IVM_SB_DELAY (ps % 2 ^ 16))

/-- The rest of an edge: gate lists, pulses whose instants moved, links, temperatures, the power loops (R137, R186, R510, R526, R563, R576, R579). -/
def Dev.edgeRest (d : Dev) (wasDead isDead moved : Bool) (sbDelayPs : Nat) (retrained : List (Nat × Nat)) (temps : List (Nat × Int)) : Dev :=
  let e := ((d.gateEdge wasDead isDead).onGw (fun g => { g with fired := [] })).when moved Dev.pulsesMoved
  (((e.retrainLinks retrained).rebuildPeers.sideband sbDelayPs).measureTemps temps).powerLoops

/-- An Over edge in its order (R31), with the actions of Ball 0 after it. At the first edge of S5 the doorbells of all enabled rings are read, and
then those of the BALL_POLL rings for Ball 0, which may so count a stale value twice (R101; DESIGN CHOICE, log 59). -/
def State.overEdge (s : State) (sbDelayPs : Nat) (retrained : List (Nat × Nat)) (temps : List (Nat × Int)) : State :=
  let ovr := s.dev.over
  let wasDead := s.dev.deadOver
  let geom := s.dev.geomTakes
  let moved := geom || s.dev.time.stepAtEdge.isSome
  let s1 := s.onDev (fun d => if d.windowEnds (d.balls - 1) then d.windowCloses else d)
  let isDead := s1.dev.edgeTime.2
  let s2 := (s1.onDev (fun d => d.edgeTime.1)).enterS5
  let s3 := (s2.keeperEdge ovr wasDead isDead).schedEdge wasDead isDead geom
  (s3.onDev (fun d => d.edgeRest wasDead isDead moved sbDelayPs retrained temps)).ballActions 0

/-- OVER_EDGE (R31): the running Over has had its length and ends, on the edges of R19 while LOCKED. -/
def execOverEdge (sbDelayPs : Nat) (r : EdgeReport) (s : State) : Host.Outcome State Fault Refusal :=
  .next (if s.dev.runs && s.dev.edgeDue then
    ((s.onDev (fun d => { d with badLater := r.bad }.reportBall 0)).overEdge sbDelayPs r.retrained r.temps).serveReset.onDev (fun d => d.reportBad [])
  else s)

end Sys2Proof.Machine
end

