-- ==== Sys2Proof/Machine/View.lean ====
section
/-! DEFINITION. Machine/View.lean: what a read of set-up space returns (R9, R46, R49, R50, R545). -/

namespace Sys2Proof.Machine

/-! ### Values that follow from other state -/

/-- SCH_STATUS (R359). -/
def Dev.schStatus (d : Dev) : Nat :=
  (d.plans.filter Plan.isResident).length % 2 ^ 9 + (d.plans.filter (fun p => p.pinned)).length % 2 ^ 9 * 2 ^ 16

/-- SCH_PART_STATUS of partition `p` (R362): its tiles, the tiles of each stream (R317, R318), and its state. -/
def Dev.partStatus (d : Dev) (p : Nat) : Nat :=
  (d.partTiles p).length + ((d.part p).tiles.headD []).length * 2 ^ 8 + d.f (Off.SCH_PART_STATUS p) 16 16 * 2 ^ 16 +
    cond (d.part p).resetting 1 0 * 2 ^ 17 + cond (d.plans.any (fun x => d.instPart x.inst == p && x.reload.isSome)) 1 0 * 2 ^ 18

/-- TILE_IDENT (R180). -/
def tileIdent (t : Nat) : Nat := t + t / 32 * 2 ^ 6 + t % 32 / 8 * 2 ^ 8 + t % 8 * 2 ^ 10

/-- TILE_STATUS as it reads: PENDING follows, and SAFETY, of a tile whose ENABLE is applied (R182, R184, R315). -/
def Dev.tileStatus (d : Dev) (t : Nat) : W64 :=
  setBit (setBit (d.r (Off.TILE_STATUS t)) 3 (d.tilePending t)) 17 (d.b (Off.TILE_CTRL t) 0 && d.safetyNow == some (d.tilePart t))

/-- TILE_BANK_STATUS as it reads: STATE, of commands, draws and loads, PINNED_HOLD, while a pinned plan keeps a handover waiting, and MISMATCH follow
(R230, R238, R240). -/
def Dev.bankStatus (d : Dev) (t b : Nat) : W64 :=
  let v := d.r (Off.TILE_BANK_STATUS t b)
  setBit (setBit (setFld v 1 0 (cond (d.bankInUse t b || d.bankLoads t b) 1 0)) 3 (bitOf v 2 && d.bankPinned t b)) 5 (d.bankMismatch t b)

/-- UMP_IDENT of site `k` (R390). -/
def umpIdent (k : Nat) : Nat := k + k / 4 * 2 ^ 3 + 32 * 2 ^ 8

/-- A register of tile `t`'s page as it reads, at offset `x` of the page. -/
def Dev.tileView (d : Dev) (t x : Nat) : W64 :=
  if x = 0 then BitVec.ofNat 64 (tileIdent t)
  else if x = 0x0C then d.tileStatus t
  else if 0x180 ≤ x ∧ x < 0x200 then d.bankStatus t ((x - 0x180) / 4)
  else d.r (0x100000 + t * 0x10000 + x)

/-- A register of instance `i`'s page as it reads: commands in flight and slots reserved follow (R105, R106, R108). -/
def Dev.qeView (d : Dev) (i x : Nat) : W64 :=
  let v := d.r (0x700000 + i * 0x1000 + x)
  if x = 4 then setFld v 17 8 (d.instFlight i)
  else if 0x100 ≤ x ∧ x < 0x300 ∧ x % 0x20 = 0x1C then setFld v 13 8 (d.ringFlight i ((x - 0x100) / 0x20))
  else if 0x300 ≤ x ∧ x < 0x500 ∧ x % 0x20 = 0x14 then BitVec.ofNat 64 (d.cplResv i ((x - 0x300) / 0x20))
  else v

/-- A register of the identity and global block as it reads. -/
def Dev.glbView (d : Dev) (x : Nat) : W64 :=
  if x = Off.LS_IDENT then BitVec.ofNat 64 d.lsIdent
  else if x = Off.SCH_STATUS then BitVec.ofNat 64 d.schStatus
  else if 0x120 ≤ x ∧ x < 0x1A0 ∧ x % 0x10 = 8 then BitVec.ofNat 64 (d.partStatus ((x - 0x120) / 0x10))
  else if 0x200 ≤ x ∧ x < 0x240 then BitVec.ofNat 64 (d.classMinimum ((x - 0x200) / 4))
  else d.r x

/-- The register at set-up offset `off` as it reads (R9): the last applied or current value. -/
def Dev.regView (d : Dev) (off : Nat) : W64 :=
  if off < 0x10000 then d.glbView off
  else if 0x100000 ≤ off ∧ off < 0x500000 then d.tileView ((off - 0x100000) / 0x10000) (off % 0x10000)
  else if 0x600000 ≤ off ∧ off < 0x680000 ∧ off % 0x10000 = 0 then BitVec.ofNat 64 (umpIdent ((off - 0x600000) / 0x10000))
  else if 0x700000 ≤ off ∧ off < 0x800000 then d.qeView ((off - 0x700000) / 0x1000) (off % 0x1000)
  else if off = Off.TIME_NOW_NS then BitVec.ofNat 64 d.nsField
  else if 0xB20800 ≤ off ∧ off < 0xB20900 then BitVec.ofNat 64 (d.slotValue ((off - 0xB20800) / 4)).toNat
  else if 0xB30100 ≤ off ∧ off < 0xB30200 then BitVec.ofNat 64 (d.testAges ((off - 0xB30100) / 4))
  else if off = Off.IBR_STATUS then setFld (d.r off) 11 8 d.bridge.posted.length
  else if 0xC10000 ≤ off ∧ off < 0xC50000 ∧ (off - 0xC10000) % 0x4000 = 4 then BitVec.ofNat 64 (d.mbxStatus ((off - 0xC10000) / 0x4000))
  else if 0xD00100 ≤ off ∧ off < 0xD001C0 then BitVec.ofNat 64 (d.domReg ((off - 0xD00100) / 4))
  else d.r off

/-! ### Block-event interrupts (R38, R544) -/

/-- The interrupt-enable registers of the blocks: each stands 4 bytes after the block's EVENTS register and has the same bits. -/
def intEnables : List Nat :=
  [Off.OVER_INT_EN, Off.SCH_INT_EN, Off.RT_INT_EN, Off.KV_INT_EN, Off.GFX_INT_EN, Off.GW_INT_EN, Off.SG_INT_EN, Off.ISL_INT_EN, Off.LJ_INT_EN, Off.KPR_INT_EN,
   Off.STEST_INT_EN, Off.IBR_INT_EN, Off.PWR_INT_EN, Off.IVM_INT_EN, Off.WLD_INT_EN] ++
    (List.range 64).flatMap (fun t => [Off.TILE_INT_EN t, Off.TILE_BTEST_INT_EN t]) ++ (List.range 8).map Off.UMP_INT_EN ++
    (List.range 256).map Off.QE_INST_INT_EN ++ (List.range 6).map Off.DISP_INT_EN ++ (List.range 16).map Off.CAM_INT_EN ++
    (List.range 18).map Off.GW_PORT_INT_EN ++ (List.range 12).map Off.CAN_INT_EN ++ (List.range 8).map Off.LIN_INT_EN ++ (List.range 16).map Off.MBX_CH_INT_EN

/-- The interrupt of a block, by its enable register: an event is set whose enable is. DESIGN CHOICE (log 64): the line is the level of the enabled events. -/
def Dev.eventLine (d : Dev) (en : Nat) : Bool := Nat.land (d.n en) (d.n (en - 4)) != 0

/-- The world of a block-event interrupt: that of the raising block's page (R544, R545). -/
def Dev.eventWorld (d : Dev) (en : Nat) : Bool := d.pageSecure en

/-- The block-event interrupts that stand, each by its enable register, with its world. -/
def Dev.eventIrqs (d : Dev) : List (Nat × Bool) := (intEnables.filter (fun en => d.eventLine en)).map (fun en => (en, d.eventWorld en))

/-! ### The mailbox block's memory (R554, R557) -/

/-- Byte `off` of set-up space where it lies in a submit window, a response queue or the firmware identity record. -/
def Dev.mbxByte (d : Dev) (off : Nat) : Option Byte :=
  if 0xC00800 ≤ off ∧ off < 0xC00840 then some (d.vox.record.getD (off - 0xC00800) 0)
  else if 0xC10000 ≤ off ∧ off < 0xC50000 then
    let c := (off - 0xC10000) / 0x4000
    let x := (off - 0xC10000) % 0x4000
    if 0x1000 ≤ x ∧ x < 0x1200 then some ((d.box c).window.getD (x - 0x1000) 0)
    else if 0x2000 ≤ x ∧ x < 0x3000 then some ((KMap.getD (d.box c).slots ((x - 0x2000) / 0x200) []).getD (x % 0x200) 0)
    else none
  else none

/-- The 32-bit word at an aligned set-up offset: a WO register and an offset without a register read zero (R9, R50). -/
def Dev.viewWord (d : Dev) (off : Nat) : Nat :=
  if (d.mbxByte off).isSome then leNat ((List.range 4).map (fun i => (d.mbxByte (off + i)).getD 0))
  else match locate off with
    | none => 0
    | some (r, o) =>
      if r.acc = .wo then 0 else if o = off then fld (d.regView o) 31 0 else fld (d.regView o) 63 32

/-- What a read of the word at an offset changes: TIME_NOW_NS latches the seconds (R521), GFX_POOL_PEAK starts again at the present use (R462, R491). -/
def Dev.readEffect (d : Dev) (off : Nat) : Dev :=
  if off = Off.TIME_NOW_NS then d.readTimeNow
  else if 0x900134 ≤ off ∧ off < 0x900534 ∧ (off - 0x900134) % 0x40 = 0 then
    d.wn off (min (d.poolNow ((off - 0x900134) / 0x40)) (2 ^ 32 - 1))
  else d

/-- The words of an access. -/
def accessWords (off size : Nat) : List Nat := if size = 8 then [off, off + 4] else [off]

/-- The value that a read returns, seconds latched with it. -/
def Dev.setupValue (d : Dev) (off size : Nat) : Nat :=
  let e := if (accessWords off size).contains Off.TIME_NOW_NS then d.readTimeNow else d
  if size = 8 then e.viewWord off + e.viewWord (off + 4) * 2 ^ 32 else e.viewWord off

/-- A read of set-up space by a master: the range table alone governs it (R46, R49, R545). -/
def Dev.setupRead (d : Dev) (m : Master) (off size : Nat) : Dev :=
  if !d.masterRuns m then d
  else if !d.setupThere off || !setupForm off size then d.answer .error
  else if !d.rtAdmits (0xF0000000 + off) size (d.world m) then (d.rtDenied (0xF0000000 + off)).answer .error
  else (d.forAll (accessWords off size) (fun o e => e.readEffect o)).answer (.data (d.setupValue off size))

end Sys2Proof.Machine
end

