-- ==== Sys2Proof/Machine/Apply.lean ====
section
/-! DEFINITION. Machine/Apply.lean: what an apply does to each staged block beyond its fields (R34, R78 to R82, R110, R182, R234, R305, R311, R320, R383, R448, R490 to R494, R501, R526, R580). -/

namespace Sys2Proof.Machine

/-! ### The global block (R21, R34, R320) -/

/-- After an apply of LEN_STEPS, BALLS or OVER_PHASE (R34): a geometry change starts, or one that waited is taken back. -/
def Dev.geomApplied (old d : Dev) : Dev :=
  let g : Geometry := { steps := d.f Off.OVER_CTRL 8 0, balls := d.f Off.OVER_CTRL 22 16, phase := d.n Off.OVER_PHASE }
  if g = { steps := old.f Off.OVER_CTRL 8 0, balls := old.f Off.OVER_CTRL 22 16, phase := old.n Off.OVER_PHASE } then d
  else if g = d.time.geom then (d.onTime (fun t => { t with geomDue := none })).setB Off.OVER_STATUS 6 false
  else (d.onTime (fun t => { t with geomDue := some (d.now + (d.overNs + d.balls - 1) / d.balls) })).setB Off.OVER_STATUS 6 true

/-- SOURCE_SEL LOCAL puts the time unit at once into FREE_RUN, with no event and no trigger (R21). -/
def Dev.localApplied (d : Dev) : Dev :=
  if d.f Off.OVER_CTRL 26 25 = 1 ∧ d.srcState ≠ 3 then
    ((d.setSrc 3).onTime (fun t => { t with slew := 0, stepAtEdge := none })).setB Off.OVER_STATUS 4 false
  else d

/-- Applied scheduler settings take force at the first edge at least 1 µs later (R320). -/
def Dev.schedApplied (old d : Dev) : Dev :=
  let offs := Off.SCH_CTRL :: (span Off.SCH_PART_CTRL 0 8 ++ span Off.SCH_PART_WIN 0 8)
  if offs.all (fun o => old.r o == d.r o) then d
  else
    let eight := fun (f : Nat → Nat) => (List.range 8).foldl (fun (m : KMap W64) p => KMap.put m p (d.r (f p))) []
    { d with sched := { d.sched with due := d.sched.due ++ [(d.now + 1000, d.r Off.SCH_CTRL, eight Off.SCH_PART_CTRL, eight Off.SCH_PART_WIN)] } }

/-- The rest of an apply of the global block; a core whose wsave now names a frame takes its secure interrupt (R543). -/
def State.glbApplied (old : Dev) (s : State) : State :=
  (s.onDev (fun d => Dev.schedApplied old (Dev.geomApplied old d).localApplied)).forAll (List.range 16) (fun n t => t.serveSecure n)

/-! ### The start and report block (R82) -/

/-- An apply of the start block: the clamp ring moves first, then the fields take effect and the reports are written. -/
def State.cfgApplied (s : State) (m : Master) (source lo hi : Nat) : State :=
  let d := (s.dev.applyRange m lo hi).1
  let t := if d.clampBase = s.dev.clampBase ∧ d.clampSize = s.dev.clampSize then s else s.clampMove d.clampBase d.clampSize
  (t.when (s.dev.clampInternal && !d.clampInternal) (fun u => u.onDev (fun e => { e with clampFrom := e.n Off.CLAMP_PROD }))).applyBlock m source lo hi

/-! ### Tiles (R182, R234, R238) -/

/-- The rest of an apply of tile `t`'s page: an IDLE tile takes its partition and world, and each changed bank owner is handed over or waits. -/
def State.tileApplied (old : Dev) (t : Nat) (s : State) : State :=
  let u := s.onDev (fun d => (d.when (d.tileState t == 1) (fun e => e.onTile t (fun x =>
    { x with part := e.f (Off.TILE_CTRL t) 7 4, world := e.b (Off.TILE_CTRL t) 8 }))).when (d.tileState t != 0) (fun e => e.settleClock t))
  (u.forAll ((List.range 32).filter (fun b => old.r (Off.TILE_BANK_OWNER t b) != u.dev.r (Off.TILE_BANK_OWNER t b)))
    (fun b v => v.ownerApplied t b (old.bankOwner t b))).admitAll

/-! ### Umpires (R383) -/

/-- Before an apply of a trained site: each umpire keeps the settings in force until its next window. -/
def Dev.umpKeep (d : Dev) (k : Nat) : Dev :=
  if d.b (Off.UMP_STATUS k) 0 then d.forEach 32 (fun p e => e.setUmpire k p (e.umpire k p)) else d

/-! ### Instances and rings (R98, R106, R110, R345, R348) -/

/-- ENABLE of command ring `r` was and is now applied: enabling resets its index and error and advances the doorbell generation. -/
def Dev.ringApplied (old : Dev) (i r : Nat) (d : Dev) : Dev :=
  let c := Off.QE_CMD_CTRL i r
  if d.b c 0 && !old.b c 0 then
    (((d.wn (Off.QE_CMD_CONS i r) 0).incWrap (Off.QE_DB_GEN i r)).wn (Off.QE_CMD_STATUS i r) 1).onInst i (fun x => { x with prod := KMap.put x.prod r 0 })
  else if old.b c 0 && !d.b c 0 then d.setF (Off.QE_CMD_STATUS i r) 1 0 0
  else d

/-- Enabling a completion ring resets its producer index. -/
def Dev.cplApplied (old : Dev) (i c : Nat) (d : Dev) : Dev :=
  d.when (d.b (Off.QE_CPL_CTRL i c) 0 && !old.b (Off.QE_CPL_CTRL i c) 0) (fun e => e.wn (Off.QE_CPL_PROD i c) 0)

/-- An applied PARTITION takes effect with no command in flight; until then the one in force stands (R348). -/
def Dev.partApplied (old : Dev) (i : Nat) (d : Dev) : Dev :=
  let p := old.instPart i
  if d.f (Off.QE_INST_SCHED i) 2 0 = p then d.onInst i (fun x => { x with oldPart := none })
  else if d.instFlight i = 0 then d.moveInst i
  else d.onInst i (fun x => { x with oldPart := some p })

/-- ENABLE of an instance: set, it runs, unless it is being torn down; cleared, a running one is torn down (R106, R345; DESIGN CHOICE, log 47).
An instance enabled in S4 so reads RUNNING at the first edge of S5, where R86 has it stopped with empty rings: its rings hold what they hold and R101
reads their doorbells there (DESIGN CHOICE, log 59). -/
def State.instApplied (old : Dev) (i : Nat) (s : State) : State :=
  let c := Off.QE_INST_CTRL i
  if s.dev.b c 0 && !old.b c 0 then
    s.onDev (fun d => if (d.inst i).teardown.isSome ∨ d.instState i = 2 then d else d.setF (Off.QE_INST_STATUS i) 1 0 1)
  else if old.b c 0 && !s.dev.b c 0 then
    match s.dev.instState i with
    | 1 => s.tearDown i true
    | 3 => if (s.dev.inst i).teardown.isSome then s.tearDown i true else s.onDev (fun d => d.setF (Off.QE_INST_STATUS i) 1 0 0)
    | _ => s
  else s

/-- The rest of an apply of instance `i`'s page. -/
def State.qeApplied (old : Dev) (i : Nat) (s : State) : State :=
  let t := s.onDev (fun d => ((d.forEach 16 (fun r e => Dev.ringApplied old i r e)).forEach 16 (fun c e => Dev.cplApplied old i c e)))
  ((t.instApplied old i).onDev (fun d => Dev.partApplied old i d)).admitAll

/-! ### The key-value page manager (R305, R311, R314) -/

/-- Every pool sequence is freed: each live record's handle ends, and every page is free. -/
def State.kvFreeAll (s : State) : State :=
  let t := s.onDev (fun d =>
    let e := d.onKv (fun k => { k with pages := [], dirs := [] })
    { e with
      cmds := KMap.mapV e.cmds (fun _ c => if c.kvNew.isSome then { c with kvNew := none, phase := .admitted } else c)
      insts := KMap.mapV e.insts (fun _ x => if x.seqs.isEmpty then x else { x with seqs := [], opResult := 0x31 }) })
  t.forAll (t.dev.kv.recs.filter (fun y => y.2.st != 0)) (fun y u => u.kvPut y.1 { KvRec.empty with tag := nextTag y.2.tag, gen := (y.2.gen + 1) % 2 ^ 32 })

/-- ENABLE of the page manager: set, the free lists are built; cleared, every sequence is freed where its record lies (R311). -/
def State.kvSwitch (s : State) (old : Dev) : State :=
  if s.dev.b Off.KV_CTRL 0 && !old.b Off.KV_CTRL 0 then (s.kvFreeAll).onDev (fun d => d.wn Off.KV_STATUS 2)
  else if old.b Off.KV_CTRL 0 && !s.dev.b Off.KV_CTRL 0 then
    ((s.onDev (fun d => { d with regs := old.regs })).kvFreeAll).onDev (fun d =>
      let e := { d with regs := s.dev.regs }
      (((e.wn Off.KV_FREE_PAGES e.kvFree).wn Off.KV_FREE_DIR e.kvFreeDir).wn Off.KV_FREE_RECORDS e.kvFreeRecs).wn Off.KV_STATUS 0)
  else s

/-- A command in flight names reserved sequence `n`. -/
def Dev.rsvNamed (d : Dev) (n : Nat) : Bool := d.cmds.any (fun x => x.2.handles.any (fun h => isReserved h && rsvNum h == n))

/-- The fields of a reserved sequence but CLEAR_ON_RESET. -/
def rsvBody (v : W64) : W64 := setBit v 48 false

/-- A change of reserved sequence `n` takes effect, emptying it, or waits for the commands that name it (R305). -/
def Dev.rsvApplied (old : Dev) (n : Nat) (d : Dev) : Dev :=
  let v := d.r (Off.KV_RSV_SEQ n)
  let was := old.rsvSeq n
  if v = old.r (Off.KV_RSV_SEQ n) then d
  else
    let e := d.onKv (fun k => { k with rsvOld := KMap.del k.rsvOld n })
    if rsvBody v = rsvBody was then e
    else if d.rsvNamed n then d.onKv (fun k => { k with rsvOld := KMap.put k.rsvOld n (setBit was 48 (bitOf v 48)) })
    else e.rsvEmpty n

/-- The report says that a reserved sequence's ENABLE was replaced by 0 (R314). -/
def Report.disables (x : Report) : Bool := decide (0x801000 ≤ x.off ∧ x.off < 0x802000) && x.lsb == 63 && !x.rejected && x.written == 1 && x.applied == 0

/-- The rest of an apply of the page manager's block, with its reports. -/
def State.kvApplied (old : Dev) (reports : List Report) (s : State) : State :=
  (s.kvSwitch old).onDev (fun d =>
    (d.forEach 512 (fun n e => Dev.rsvApplied old n e)).when (reports.any Report.disables) (fun e => e.setB Off.KV_EVENTS 3 true))

/-! ### Graphics, displays, cameras and codecs (R476 to R494) -/

/-- The RW registers from `lo` below `hi` that hold a value in either block. -/
def rwBetween (old d : Dev) (lo hi : Nat) : List Nat :=
  ((old.regs ++ d.regs).map (fun p => p.1)).filter (fun o => decide (lo ≤ o ∧ o < hi) && (match locate o with | some (r, _) => decide (r.acc = .rw) | none => false))

/-- The changed registers of an object with work in flight keep the values in force (R490). -/
def Dev.defer (old d : Dev) (lo hi : Nat) : Dev :=
  d.onMedia (fun m => { m with
    inForce := (rwBetween old d lo hi).foldl (fun f k => if old.r k = d.r k then f else KMap.put f k (old.eff k)) m.inForce })

/-- Graphics contexts (R490). -/
def Dev.gfxApplied (old d : Dev) : Dev :=
  d.forEach 16 (fun x e => if old.ctxRuns x then Dev.defer old e (Off.GFX_CTX_CTRL x) (Off.GFX_CTX_CTRL x + 0x40) else e)

/-- Display pipes: enabled, the link trains; disabled, the pipe drops its surfaces (R477, R478). -/
def Dev.dispApplied (old d : Dev) : Dev :=
  d.forEach 6 (fun p e =>
    if e.b (Off.DISP_CTRL p) 0 && !old.b (Off.DISP_CTRL p) 0 then e.wn (Off.DISP_STATUS p) 1
    else if old.b (Off.DISP_CTRL p) 0 && !e.b (Off.DISP_CTRL p) 0 then e.pipeOff p
    else e)

/-- Camera inputs: frame numbers restart when an input is enabled (R485, R490). -/
def Dev.camApplied (old d : Dev) : Dev :=
  d.forEach 16 (fun c e =>
    if (old.camera c).cur.isSome then Dev.defer old e (Off.CAM_CTRL c) (Off.CAM_CTRL c + 0xC0)
    else e.when (e.b (Off.CAM_CTRL c) 0 && !old.b (Off.CAM_CTRL c) 0) (fun f => f.onCamera c (fun x => { x with frames := 0, lastStart := none })))

/-- Codec sessions (R490, R494). -/
def Dev.vcApplied (old d : Dev) : Dev :=
  d.forEach 16 (fun v e =>
    if (old.session v).job.isSome then Dev.defer old e (Off.VC_CTRL v) (Off.VC_CTRL v + 0x40)
    else e.vcSwitch v (old.b (Off.VC_CTRL v) 0) (e.b (Off.VC_CTRL v) 0))

/-! ### The gateway (R501, R509, R513, R515, R516, R526, R536) -/

/-- A field of the registers from `lo` below `hi` has been written since the last apply. -/
def Dev.touched (d : Dev) (lo hi : Nat) : Bool := d.staged.any (fun p => decide (lo ≤ p.1 ∧ p.1 < hi))

/-- The global page: pulse outputs whose settings were applied, the load, READY. -/
def Dev.gwApplied (old d : Dev) : Dev :=
  let e := d.forEach 8 (fun o f => f.when (old.touched (Off.PULSE_CTRL o) (Off.PULSE_CTRL o + 0x20)) (fun g => g.armPulse o))
  e.startLoading.setB Off.GW_STATUS 0 (e.b Off.GW_CTRL 0)

/-- The port page: each port shows the list it uses; the link of an internal port is up while it is enabled. -/
def Dev.gwPortsApplied (d : Dev) : Dev :=
  ((d.forEach 4 (fun k e => e.setB (Off.GW_PORT_STATUS (14 + k)) 0 (e.b (Off.GW_PORT_CTRL (14 + k)) 0))).forEach 18 (fun p e => e.when (!e.b (Off.GW_PORT_GCL p) 0) (fun f => (f.setF (Off.GW_PORT_STATUS p) 15 8 0).setB (Off.GW_PORT_STATUS p) 16 false))).forEach
    64 (fun l e => e.showGcl l)

/-- The bus page: a CAN channel whose ENABLE is applied leaves bus-off; LIN channels and PLCA follow. -/
def Dev.gwBusApplied (old d : Dev) : Dev :=
  let e := d.forEach 12 (fun c f =>
    if !f.b (Off.CAN_CTRL c) 0 then f.wn (Off.CAN_STATUS c) 3
    else f.when (old.touched (Off.CAN_CTRL c) (Off.CAN_CTRL c + 1) && decide (2 ≤ f.f (Off.CAN_STATUS c) 1 0)) (fun g => g.wn (Off.CAN_STATUS c) 0))
  let g := e.forEach 8 (fun l f => (f.setB (Off.LIN_STATUS l) 0 (f.b (Off.LIN_CTRL l) 0)).when (old.touched (Off.LIN_CTRL l) (Off.LIN_CTRL l + 8)) (fun x =>
    x.onGw (fun w => { w with linSlots := KMap.put w.linSlots l (x.linSlotNow l) })))
  g.forEach 2 (fun t f => f.setB (Off.T1S_STATUS t) 0 (f.b (Off.GW_PORT_STATUS (12 + t)) 0 && f.f (Off.T1S_CTRL t) 1 0 == 3))

/-- The receive-ring page: enabling a ring resets its producer index. -/
def Dev.gwRxApplied (old d : Dev) : Dev :=
  d.forEach 48 (fun n e => e.when (e.b (Off.GW_RX_CTRL n) 0 && !old.b (Off.GW_RX_CTRL n) 0) (fun f => f.wn (Off.GW_RX_PROD n) 0))

/-! ### The line judge, the worlds page (R448, R549, R550) -/

/-- The line judge's page: a change of the shadow region. -/
def Dev.ljApplied (old d : Dev) : Dev :=
  if [Off.LJ_SHADOW_BASE_LO, Off.LJ_SHADOW_BASE_HI, Off.LJ_SHADOW_BYTES].all (fun o => old.r o == d.r o) then d else d.shadowApplied

/-- The master is a core of the cluster. -/
def isCore : Master → Bool
  | .core _ => true
  | _ => false

/-- The worlds page: the watchdog's count starts with ENABLE, and a core's first apply of WDG_CTRL locks it. -/
def Dev.wldApplied (old : Dev) (m : Master) (d : Dev) : Dev :=
  (d.when (d.b Off.WDG_CTRL 0 && !old.b Off.WDG_CTRL 0) Dev.wdgServiced).when (isCore m && old.touched Off.WDG_CTRL (Off.WDG_CTRL + 1)) (fun e =>
    e.setB Off.WDG_CTRL 1 true)

/-! ### Every block -/

/-- The size of the block that one apply register serves (R78). -/
def blockSize (lo : Nat) : Nat :=
  if 0x700000 ≤ lo ∧ lo < 0x800000 then 0x1000 else if 0xC10000 ≤ lo ∧ lo < 0xC50000 then 0x4000 else 0x10000

/-- The first offset of the block that holds a set-up offset. -/
def blockLo (off : Nat) : Nat := off - (off - (if 0xC10000 ≤ off ∧ off < 0xC50000 then 0xC10000 else 0)) % blockSize off

/-- The staged fields of the block at `lo` take effect, and then `f` of the block before and the machine after. -/
def State.applyThen (s : State) (m : Master) (source lo : Nat) (f : Dev → State → State) : State :=
  f s.dev (s.applyBlock m source lo (lo + blockSize lo))

/-- What an apply of the block at `lo` by a master does; `source` is the SOURCE of its reports (R81). -/
def State.applyAt (s : State) (m : Master) (source lo : Nat) : State :=
  let go := fun (g : Dev → Dev → Dev) => s.applyThen m source lo (fun old t => t.onDev (fun d => g old d))
  if lo = 0 then s.applyThen m source lo State.glbApplied
  else if lo = 0x10000 then s.cfgApplied m source lo (lo + 0x10000)
  else if 0x100000 ≤ lo ∧ lo < 0x500000 then s.applyThen m source lo (fun old t => t.tileApplied old ((lo - 0x100000) / 0x10000))
  else if 0x600000 ≤ lo ∧ lo < 0x680000 then (s.onDev (fun d => d.umpKeep ((lo - 0x600000) / 0x10000))).applyThen m source lo (fun _ t => t)
  else if 0x700000 ≤ lo ∧ lo < 0x800000 then s.applyThen m source lo (fun old t => t.qeApplied old ((lo - 0x700000) / 0x1000))
  else if lo = 0x800000 then s.applyThen m source lo (fun old t => t.kvApplied old (old.applyRange m lo (lo + 0x10000)).2)
  else if lo = 0x900000 then go Dev.gfxApplied
  else if lo = 0x910000 then go Dev.dispApplied
  else if lo = 0x920000 then go Dev.camApplied
  else if lo = 0x930000 then go Dev.vcApplied
  else if lo = 0xA00000 then go Dev.gwApplied
  else if lo = 0xA10000 then go (fun _ d => d.gwPortsApplied)
  else if lo = 0xA20000 then go Dev.gwBusApplied
  else if lo = 0xA30000 then go Dev.gwRxApplied
  else if lo = 0xB10000 then go Dev.ljApplied
  else if lo = 0xD00000 then go (fun _ d => d.powerApplied)
  else if lo = 0xE00000 then go (fun old d => d.ivmApplied (old.b Off.IVM_CTRL 0))
  else if lo = 0xF00000 then go (fun old d => Dev.wldApplied old m d)
  else go (fun _ d => d)

/-- A write of the apply register at `off`: 1 applies the block (R78). -/
def State.applyWrite (s : State) (m : Master) (off value : Nat) : State :=
  match s.dev.setupRefused m off 4 with
  | some d => { s with dev := d }
  | none => (if value % 2 ^ 32 = 1 then s.applyAt m 0 (blockLo off) else s).onDev (fun d => d.answer .ok)

/-! ### The apply commands -/

/-- GLB_CFG_APPLY (R21, R34, R78 to R81, R320). -/
def execGlbCfgApply (m : Master) (value : Nat) (s : State) : Host.Outcome State Fault Refusal := .next (s.applyWrite m Off.GLB_CFG_APPLY value)

/-- CFG_APPLY (R78 to R82). -/
def execCfgApply (m : Master) (value : Nat) (s : State) : Host.Outcome State Fault Refusal := .next (s.applyWrite m Off.CFG_APPLY value)

/-- QE_CFG_APPLY (R78 to R81, R110). -/
def execQeCfgApply (m : Master) (inst value : Nat) (s : State) : Host.Outcome State Fault Refusal := .next (s.applyWrite m (Off.QE_CFG_APPLY (inst % 256)) value)

/-- TILE_CFG_APPLY (R78 to R81, R182, R234). -/
def execTileCfgApply (m : Master) (t value : Nat) (s : State) : Host.Outcome State Fault Refusal := .next (s.applyWrite m (Off.TILE_CFG_APPLY (t % 64)) value)

/-- UMP_CFG_APPLY (R78 to R81, R383). -/
def execUmpCfgApply (m : Master) (k value : Nat) (s : State) : Host.Outcome State Fault Refusal := .next (s.applyWrite m (Off.UMP_CFG_APPLY (k % 8)) value)

/-- KV_CFG_APPLY (R78 to R81, R305, R311, R314). -/
def execKvCfgApply (m : Master) (value : Nat) (s : State) : Host.Outcome State Fault Refusal := .next (s.applyWrite m Off.KV_CFG_APPLY value)

/-- GFX_CFG_APPLY (R78 to R81, R490): page 0 graphics, 1 displays, 2 cameras, 3 codecs. -/
def execGfxCfgApply (m : Master) (page value : Nat) (s : State) : Host.Outcome State Fault Refusal :=
  .next (s.applyWrite m (Off.GFX_CFG_APPLY + page % 4 * 0x10000) value)

/-- GW_CFG_APPLY (R78 to R81, R501): page 0 global, 1 ports, 2 buses, 3 receive rings. -/
def execGwCfgApply (m : Master) (page value : Nat) (s : State) : Host.Outcome State Fault Refusal :=
  .next (s.applyWrite m (Off.GW_CFG_APPLY + page % 4 * 0x10000) value)

/-- IBR_CFG_APPLY (R78 to R81, R401). -/
def execIbrCfgApply (m : Master) (value : Nat) (s : State) : Host.Outcome State Fault Refusal := .next (s.applyWrite m Off.IBR_CFG_APPLY value)

/-- ISL_CFG_APPLY (R78 to R81, R447). -/
def execIslCfgApply (m : Master) (value : Nat) (s : State) : Host.Outcome State Fault Refusal := .next (s.applyWrite m Off.ISL_CFG_APPLY value)

/-- LJ_CFG_APPLY (R78 to R81, R448). -/
def execLjCfgApply (m : Master) (value : Nat) (s : State) : Host.Outcome State Fault Refusal := .next (s.applyWrite m Off.LJ_CFG_APPLY value)

/-- KPR_CFG_APPLY (R78 to R81, R449). -/
def execKprCfgApply (m : Master) (value : Nat) (s : State) : Host.Outcome State Fault Refusal := .next (s.applyWrite m Off.KPR_CFG_APPLY value)

/-- STEST_CFG_APPLY (R78 to R81, R451). -/
def execStestCfgApply (m : Master) (value : Nat) (s : State) : Host.Outcome State Fault Refusal := .next (s.applyWrite m Off.STEST_CFG_APPLY value)

/-- WLD_CFG_APPLY (R78 to R81, R545, R550, R567). -/
def execWldCfgApply (m : Master) (value : Nat) (s : State) : Host.Outcome State Fault Refusal := .next (s.applyWrite m Off.WLD_CFG_APPLY value)

/-- PWR_CFG_APPLY (R78 to R81, R553, R569). -/
def execPwrCfgApply (m : Master) (value : Nat) (s : State) : Host.Outcome State Fault Refusal := .next (s.applyWrite m Off.PWR_CFG_APPLY value)

/-- MBX_CFG_APPLY (R78 to R81, R570), for one channel's page. -/
def execMbxCfgApply (m : Master) (c value : Nat) (s : State) : Host.Outcome State Fault Refusal := .next (s.applyWrite m (Off.MBX_CFG_APPLY (c % 16)) value)

/-- IVM_CFG_APPLY (R78 to R81, R574, R580). -/
def execIvmCfgApply (m : Master) (value : Nat) (s : State) : Host.Outcome State Fault Refusal := .next (s.applyWrite m Off.IVM_CFG_APPLY value)

end Sys2Proof.Machine
end

