-- ==== Sys2Proof/Machine/Pickup.lean ====
section
/-! DEFINITION. Machine/Pickup.lean: the queue engine's pickup of a descriptor (R102, R103, R111, R117, R123, R336). -/

namespace Sys2Proof.Machine

/-! ### Pickup (R102, R103, R111) -/

/-- The argument block that RUN_PLAN and DRAW_LIST name: address and entries; none when the count or the alignment is out of range. -/
def argBlock (b : List Byte) : Option (Nat × Nat) :=
  match leAt b 0 1 with
  | 0x01 => if 1 ≤ leAt b 0x14 2 ∧ leAt b 0x14 2 ≤ 256 ∧ leAt b 0x18 8 % 16 = 0 ∧ leAt b 0x18 8 < 2 ^ 52 then some (leAt b 0x18 8, leAt b 0x14 2) else none
  | 0x30 => if 1 ≤ leAt b 0x28 2 ∧ leAt b 0x28 2 ≤ 256 ∧ leAt b 0x20 8 % 16 = 0 ∧ leAt b 0x20 8 < 2 ^ 52 then some (leAt b 0x20 8, leAt b 0x28 2) else none
  | _ => none

/-- A command just picked up. -/
def newCmd (d : Dev) (i r seq cpl : Nat) (desc : List Byte) (args : List Arg) : Cmd :=
  { inst := i, ring := r, seq := seq, desc := desc, args := args, cpl := cpl, phase := .waiting, kills := 0, startNs := d.nsField
    startOver := d.over % 2 ^ 32, startAt := d.now, stream := 0, tiles := [], tilesB := [], wcetUs := 0, charge := 0, load := none
    skips := 0, skipped := false, seen := false, nonPreempt := false, clamps := 0, voidRows := false, status := 0, detail := 0
    endedA := false, endedB := false, judged := false, overran := false, frame := none, kv := []
    kvNew := none, result := 0, image := [], crc := 0
    draw := .start, code := noCode, picks := [], launched := [], moe := [], ahead := [], decided := none }

/-- A command enters flight. -/
def Dev.addCmd (d : Dev) (c : Cmd) : Dev := { d with cmds := KMap.put d.cmds d.nextCmd c, nextCmd := d.nextCmd + 1 }

/-- The completion ring of a descriptor: the one it names when enabled, else ring 0 when enabled, else none (R103). -/
def Dev.cplOf (d : Dev) (i : Nat) (desc : List Byte) : Option Nat :=
  let c := leAt desc 2 1 % 16
  if d.b (Off.QE_CPL_CTRL i c) 0 then some c else if d.b (Off.QE_CPL_CTRL i 0) 0 then some 0 else none

/-- Pickup may take a descriptor from the ring (R100 to R103, R353). -/
def Dev.canPickup (d : Dev) (i r : Nat) : Bool :=
  d.readsDoorbell i r && d.ringPending i r != 0 && decide (d.ringFlight i r < 32)

/-- The bytes that the queue engine reads at pickup; none where the read is refused or meets an uncorrectable error (R111). -/
def State.queueRead (s : State) (i a n : Nat) (ecc : Ecc) : Option (List Byte) × State :=
  afterRead (s.readAs (.qe i) a n) (fun t => (none, t)) (fun bs t =>
    (if ecc = .uncorrectable then none else some bs, t.onDev (fun d => d.memEcc a ecc)))

/-- A command that has entered flight is checked, and where it passes considered for admission at once (R117, R336); one whose deadline has
passed already ends with TIMEOUT (R123). -/
def State.enter (s : State) (id : Nat) (c : Cmd) (raw : List Byte) : State :=
  match s.dev.pickupChecks c raw with
  | some (st, detail) => s.finish id st detail
  | none => if s.dev.late c then s.finish id 0x13 0 else s.admitAll

/-- The descriptor is picked up: copied with its arguments, a slot reserved, the consumer index advanced, checked and, where it
passes, considered for admission at once (R102, R103, R111, R117, R336). `descEcc`, `argsEcc`: what ECC finds in the two reads. -/
def State.pickup (s : State) (i r : Nat) (descEcc argsEcc : Ecc) : State :=
  let d := s.dev
  let cons := d.n (Off.QE_CMD_CONS i r)
  let a := d.addr (Off.QE_CMD_BASE_LO i r) (Off.QE_CMD_BASE_HI i r) + cons % d.ringSize i r * 64
  afterRead (s.queueRead i a 64 descEcc) (fun t => t.onDev (fun e => e.ringStop i r 2)) (fun desc t =>
    match d.cplOf i desc with
    | none => t.onDev (fun e => e.ringStop i r 4)
    | some cpl =>
      if d.cplFree i cpl = 0 then t
      else
        let got := match argBlock desc with
          | none => (some [], t)
          | some (p, n) => t.queueRead i p (16 * n) argsEcc
        afterRead got (fun u => u.onDev (fun e => e.ringStop i r 2)) (fun raw u =>
          let args := (List.range (raw.length / 16)).map (fun k => argAt raw (16 * k))
          let c := newCmd u.dev i r cons cpl desc args
          (u.onDev (fun e => (e.incWrap (Off.QE_CMD_CONS i r)).addCmd c)).enter u.dev.nextCmd c raw))

/-- COMMAND_PICKUP (R102, R103, R111, R117, R336): the queue engine picks up the next pending descriptor of a ring, when room allows. -/
def execCommandPickup (inst : Nat) (r : RingRead) (s : State) : Host.Outcome State Fault Refusal :=
  .next (if s.dev.canPickup inst r.ring then (s.pickup inst r.ring r.desc r.args).serveReset else s)

end Sys2Proof.Machine
end

