-- ==== Sys2Proof/Machine/Freeze.lean ====
section
/-! DEFINITION. Machine/Freeze.lean: freeze, save, restore, thaw and discard (R351 to R358). -/

namespace Sys2Proof.Machine

/-! ### QE_FREEZE (R351, R352) -/

/-- RESULT of an operation that has ended, its OP, and BUSY 0. -/
def Dev.freezeResult (d : Dev) (i op result : Nat) : Dev :=
  ((((d.onInst i (fun x => { x with op := 0 })).setF (Off.QE_FREEZE_STATUS i) 2 0 op).setB (Off.QE_FREEZE_STATUS i) 3 false).setF
    (Off.QE_FREEZE_STATUS i) 31 16 result)

/-- An operation is in progress: BUSY 1. -/
def Dev.freezeBusy (d : Dev) (i op : Nat) : Dev :=
  ((d.onInst i (fun x => { x with op := op })).setF (Off.QE_FREEZE_STATUS i) 2 0 op).setB (Off.QE_FREEZE_STATUS i) 3 true

/-- A write to QE_FREEZE with operation `op` (R352): refused writes, BUSY, then the precondition, then the effect `f`. -/
def State.freezeOp (s : State) (m : Master) (i op : Nat) (pre : Dev → Bool) (f : State → State) : State :=
  match s.dev.setupRefused m (Off.QE_FREEZE i) 4 with
  | some d => { s with dev := d }
  | none =>
    let d := s.dev
    let t := if (d.inst i).op != 0 || (d.inst i).teardown.isSome || (d.part (d.instPart i)).resetting then
        s.onDev (fun e => e.setF (Off.QE_FREEZE_STATUS i) 31 16 0x31)
      else if !pre d then s.onDev (fun e => e.freezeResult i op 0x22)
      else f s
    t.onDev (fun e => e.answer .ok)

/-! ### Freeze, thaw, discard (R353) -/

/-- A command of a freezing instance is held: at once where it has not started or holds no tiles, else when they have stopped; where a
decision is already made R344 gives the one that stands. -/
def State.holdCmd (s : State) (id : Nat) : State :=
  match s.dev.cmd id with
  | none => s
  | some c =>
    match c.phase with
    | .stopping f => if s.dev.outranked c f 4 then s else s.onDev (fun d => d.kill id none 4)
    | .held => s
    | .waiting => s.onDev (fun d => d.onCmd id (fun x => { x with phase := .held, load := none }))
    | .admitted => s.onDev (fun d => (d.unschedule id).onCmd id (fun x => { x with phase := .held, load := none, charge := 0 }))
    | _ => if (s.dev.tilesOf id).isEmpty then s.requeue id true else s.onDev (fun d => d.kill id none 4)

/-- FREEZE (R352, R353): pickup and admission stop, and the instance's commands are killed into held commands. -/
def execFreeze (m : Master) (inst : Nat) (s : State) : Host.Outcome State Fault Refusal :=
  .next (s.freezeOp m inst 1 (fun d => d.instState inst == 1 && !d.instSafe inst) (fun t =>
    let u := t.onDev (fun d => (d.freezeBusy inst 1).onInst inst (fun x =>
      { x with frozenOver := d.over % 2 ^ 32, frozenUsed := [x.usedCmds, x.usedTileUs, x.usedKib] }))
    u.forAll (u.dev.cmdsOf inst) (fun id x => x.holdCmd id)))

/-- FREEZE_DONE (R353): every tile has stopped and every publication is complete; the instance is FROZEN. -/
def execFreezeDone (inst : Nat) (s : State) : Host.Outcome State Fault Refusal :=
  .next (if (s.dev.inst inst).op = 1 then
    let t := s.forAll (s.dev.cmdsOf inst) (fun id x => match (x.dev.cmd id).map Cmd.phase with
      | some (.stopping none) => x.requeue id true
      | some (.stopping (some st)) => x.finish id st 0
      | _ => x)
    (t.onDev (fun d => (d.freezeResult inst 1 0).setF (Off.QE_INST_STATUS inst) 1 0 2)).admitAll
  else s)

/-- THAW (R123, R342, R352): held commands wait again, at the heads of their rings, but for those whose deadline has passed; pickup resumes. -/
def execThaw (m : Master) (inst : Nat) (s : State) : Host.Outcome State Fault Refusal :=
  .next (s.freezeOp m inst 4 (fun d => d.instState inst == 2) (fun t =>
    (t.onDev (fun d =>
      let e := { d with cmds := KMap.mapV d.cmds (fun _ c => if c.inst = inst ∧ c.phase = Phase.held then { c with phase := .waiting } else c) }
      (e.freezeResult inst 4 0).setF (Off.QE_INST_STATUS inst) 1 0 1)).deadlines.admitAll))

/-- The rings of an instance are disabled (R352). -/
def Dev.disableRings (d : Dev) (i : Nat) : Dev :=
  d.forEach 16 (fun r e => (((e.setB (Off.QE_CMD_CTRL i r) 0 false).setF (Off.QE_CMD_STATUS i r) 1 0 0).setB (Off.QE_CPL_CTRL i r) 0 false))

/-- DISCARD (R352): held commands are dropped without records, the rings are disabled, registrations are dropped; STOPPED. -/
def execDiscard (m : Master) (inst : Nat) (s : State) : Host.Outcome State Fault Refusal :=
  .next (s.freezeOp m inst 5 (fun d => d.instState inst == 2) (fun t => t.onDev (fun d =>
    let e := { d with cmds := d.cmds.filter (fun x => x.2.inst != inst), plans := d.plans.filter (fun p => p.inst != inst) }
    (((e.disableRings inst).setB (Off.QE_INST_CTRL inst) 0 false).freezeResult inst 5 0).setF (Off.QE_INST_STATUS inst) 1 0 0)))

/-! ### The save image (R354, R355) -/

/-- An address of local HBM in the module-window form of R45; other addresses as they are. -/
def Dev.moduleForm (d : Dev) (a : Nat) : Nat :=
  if 0x10000000000 ≤ a ∧ a < 0x10000000000 + d.hbmBytes then
    a - 0x10000000000 + 0x100000000000 + d.f Off.GLB_MODULE 1 0 * 0x10000000000
  else a

/-- Offsets of the address fields of a descriptor, by opcode (R115). -/
def addrFields : Nat → List Nat
  | 0x01 => [0x18]
  | 0x02 => [0x18]
  | 0x10 => [0x10, 0x18]
  | 0x11 => [0x10]
  | 0x12 => [0x10, 0x28]
  | 0x20 => [0x20]
  | 0x22 => [0x18]
  | 0x30 => [0x10, 0x20]
  | 0x40 => [0x18]
  | 0x41 => [0x10]
  | 0x50 => [0x10]
  | _ => []

/-- A descriptor with its addresses in the module-window form. -/
def Dev.savedDesc (d : Dev) (desc : List Byte) : List Byte :=
  (addrFields (leAt desc 0 1)).foldl (fun b o => splice b o (leBytes 8 (d.moduleForm (leAt b o 8)))) desc

/-- The 16 bytes of an argument entry (R114). -/
def Dev.savedArg (d : Dev) (a : Arg) : List Byte :=
  leBytes 8 (if a.kind = 2 then a.addr else d.moduleForm a.addr) ++ leBytes 4 a.len ++ leBytes 1 a.port ++ leBytes 1 a.kind ++
    leBytes 2 (cond a.hdr 1 0)

/-- A command ring's 32 bytes. -/
def Dev.savedRing (d : Dev) (i r : Nat) : List Byte :=
  leBytes 8 (d.moduleForm (d.addr (Off.QE_CMD_BASE_LO i r) (Off.QE_CMD_BASE_HI i r))) ++ leBytes 4 (d.n (Off.QE_CMD_CTRL i r)) ++
    leBytes 8 (d.moduleForm (d.dbAddr i r)) ++ leBytes 4 (d.n (Off.QE_DB_GEN i r)) ++ leBytes 4 (d.n (Off.QE_CMD_CONS i r)) ++
    leBytes 4 (d.n (Off.QE_CMD_STATUS i r) % 2 ^ 8 + d.ringFlight i r * 2 ^ 8)

/-- A completion ring's 32 bytes. -/
def Dev.savedCpl (d : Dev) (i c : Nat) : List Byte :=
  leBytes 8 (d.moduleForm (d.addr (Off.QE_CPL_BASE_LO i c) (Off.QE_CPL_BASE_HI i c))) ++ leBytes 4 (d.n (Off.QE_CPL_CTRL i c)) ++
    leBytes 4 (d.n (Off.QE_CPL_PROD i c)) ++ leBytes 4 (d.n (Off.QE_CPL_CONS i c)) ++ leBytes 4 (d.cplResv i c) ++ zeros 8

/-- A held command's bytes. -/
def Dev.savedCmd (d : Dev) (c : Cmd) : List Byte :=
  d.savedDesc c.desc ++ leBytes 1 c.ring ++ leBytes 1 (min c.kills 255) ++ leBytes 2 c.args.length ++ leBytes 4 c.seq ++ zeros 8 ++
    c.args.flatMap (fun a => d.savedArg a)

/-- A plan's 32 bytes. -/
def Dev.savedPlan (d : Dev) (p : Plan) : List Byte :=
  leBytes 4 p.planId ++ leBytes 4 (cond p.pinned 1 0 + cond p.isResident 2 0) ++ leBytes 4 p.image.length ++ zeros 4 ++
    leBytes 8 (d.moduleForm p.addr) ++ zeros 8

/-- The mapped pages of a sequence, by row and lane: row, lane, page (R355). -/
def KvRec.mapped (k : KvRec) : List (Nat × Nat × Nat) :=
  (k.rows k.length).flatMap (fun r => (List.range k.lanes).filterMap (fun l => (k.page r l).map (fun p => (r, l, p))))

/-- A sequence's bytes. -/
def Dev.savedSeq (d : Dev) (x : Nat) (k : KvRec) : List Byte :=
  k.header x ++
    k.mapped.flatMap (fun e => leBytes 8 (d.moduleForm (d.kvPageAddr e.2.2)) ++ leBytes 8 (d.moduleForm (d.kvIndexAddr e.2.2)))

/-- Sequences an instance owns. -/
def Dev.seqsOf (d : Dev) (i : Nat) : List (Nat × KvRec) := d.kv.recs.filter (fun x => x.2.st != 0 && x.2.inst == i)

/-- Held commands of an instance, in pickup order. -/
def Dev.heldOf (d : Dev) (i : Nat) : List Cmd := (d.cmdsWhere (fun c => c.inst == i && c.phase == .held)).map (fun x => x.2)

/-- The rings, held commands, plans and sequences of a save image (R355). -/
def Dev.saveBody (d : Dev) (i : Nat) : List Byte :=
  (List.range 16).flatMap (fun r => d.savedRing i r) ++ (List.range 16).flatMap (fun c => d.savedCpl i c) ++
    (d.heldOf i).flatMap (fun c => d.savedCmd c) ++ (d.plans.filter (fun p => p.inst == i)).flatMap (fun p => d.savedPlan p) ++
    (d.seqsOf i).flatMap (fun x => d.savedSeq x.1 x.2)

/-- The header of a save image whose other parts have `n` bytes (R355). -/
def Dev.saveHead (d : Dev) (i n : Nat) : List Byte :=
  leBytes 4 0x45564153 ++ leBytes 2 1 ++ zeros 2 ++ leBytes 4 d.lsIdent ++ leBytes 1 (d.f Off.GLB_MODULE 1 0) ++
    leBytes 1 i ++ leBytes 2 (d.heldOf i).length ++ leBytes 4 (64 + n + 8) ++ leBytes 4 (d.inst i).frozenOver ++
    leBytes 1 (d.plans.filter (fun p => p.inst == i)).length ++
    zeros 3 ++ leBytes 4 (d.seqsOf i).length ++ leBytes 4 (d.n (Off.QE_INST_SCHED i)) ++ leBytes 4 (d.n (Off.QE_RATE_CMDS i)) ++
    leBytes 4 (d.n (Off.QE_RATE_TILE_US i)) ++ leBytes 4 (d.n (Off.QE_RATE_KIB i)) ++
    (List.range 3).flatMap (fun k => leBytes 4 ((d.inst i).frozenUsed.getD k 0)) ++ zeros 4

/-- The save image of an instance (R354, R355). -/
def Dev.saveImage (d : Dev) (i : Nat) : List Byte :=
  let b := d.saveHead i (d.saveBody i).length ++ d.saveBody i
  b ++ leBytes 8 (crcOf 1 b)

/-- Where the save image lies. -/
def Dev.saveAddr (d : Dev) (i : Nat) : Nat := d.addr (Off.QE_SAVE_BASE_LO i) (Off.QE_SAVE_BASE_HI i)

/-- SAVE (R352, R354, R355): the image is written at QE_SAVE_BASE; where the space is too small the bytes of the space hold no defined
value, and nothing is written beyond it. -/
def execSave (m : Master) (inst : Nat) (s : State) : Host.Outcome State Fault Refusal :=
  .next (s.freezeOp m inst 2 (fun d => d.instState inst == 2) (fun t =>
    let img := t.dev.saveImage inst
    let room := t.dev.n (Off.QE_SAVE_BYTES inst)
    let u := t.onDev (fun d => (d.freezeBusy inst 2).onInst inst (fun x => { x with image := [], opResult := 0x20 }))
    if room < img.length then (u.onDev (fun d => { d with fresh := d.fresh + room })).writeAs (.qe inst) (t.dev.saveAddr inst) (freeBytes t.dev.fresh room) |>.2
    else
      let w := u.writeAs (.qe inst) (t.dev.saveAddr inst) img
      w.2.onDev (fun d => d.onInst inst (fun x => { x with image := if w.1 then img else [], opResult := if w.1 then 0 else 0x22 }))))

/-- SAVE_DONE (R355): the image is complete, and QE_SAVE_USED reports its size. -/
def execSaveDone (inst : Nat) (s : State) : Host.Outcome State Fault Refusal :=
  .next (if (s.dev.inst inst).op = 2 then
    s.onDev (fun d =>
      let x := d.inst inst
      let e := if x.opResult = 0 then d.wn (Off.QE_SAVE_USED inst) x.image.length
        else if x.opResult = 0x20 then d.takeFree.2.w (Off.QE_SAVE_USED inst) (d.takeFree.1.zeroExtend 64)
        else d.wn (Off.QE_SAVE_USED inst) 0
      (e.freezeResult inst 2 x.opResult).onInst inst (fun y => { y with image := [] }))
  else s)

/-! ### Restore (R356, R357) -/

/-- Where a held command's entry ends. -/
def heldSize (m : List Byte) (o : Nat) : Nat := 80 + 16 * leAt m (o + 66) 2

/-- Offsets of the held commands, from `o` on, and where they end. -/
def heldAt (m : List Byte) : Nat → Nat → List Nat × Nat
  | 0, o => ([], o)
  | n + 1, o => let r := heldAt m n (o + heldSize m o); (o :: r.1, r.2)

/-- Offsets of the sequences, from `o` on, and where they end. -/
def seqAt (m : List Byte) : Nat → Nat → List Nat × Nat
  | 0, o => ([], o)
  | n + 1, o => let r := seqAt m n (o + 64 + 16 * leAt m (o + 0x20) 4); (o :: r.1, r.2)

/-- Held commands of an image, by offset. -/
def imgHeld (m : List Byte) : List Nat := (heldAt m (leAt m 0x0E 2) 1088).1
/-- Where its plans begin. -/
def imgPlansAt (m : List Byte) : Nat := (heldAt m (leAt m 0x0E 2) 1088).2
/-- Offsets of its plans. -/
def imgPlans (m : List Byte) : List Nat := (List.range (leAt m 0x18 1)).map (fun k => imgPlansAt m + 32 * k)
/-- Its sequences, by offset, and where they end. -/
def imgSeqs (m : List Byte) : List Nat × Nat := seqAt m (leAt m 0x1C 4) (imgPlansAt m + 32 * leAt m 0x18 1)

/-- A ring CTRL value of an image holds a legal size. -/
def ctrlOk (v : Nat) : Bool := decide (4 ≤ nfld v 12 8 ∧ nfld v 12 8 ≤ 16)

/-- What a save image's checks give: 0, CHECK_FAIL for the check value, INVALID_DESCRIPTOR for the rest (R356). -/
def Dev.restoreCheck (d : Dev) (m : List Byte) : Nat :=
  if m.length < 1096 ∨ leAt m 0x10 4 ≠ m.length then 0x20
  else if leAt m (m.length - 8) 8 ≠ crcOf 1 (m.take (m.length - 8)) then 0x02
  else if leAt m 0 4 ≠ 0x45564153 ∨ leAt m 4 2 ≠ 1 ∨ leAt m 8 4 % 2 ^ 16 ≠ d.lsIdent % 2 ^ 16 ∨ 512 < leAt m 0x0E 2 ∨ 64 < leAt m 0x18 1 ∨
      (imgSeqs m).2 ≠ m.length - 8 then 0x20
  else if !((List.range 16).all (fun r => ctrlOk (leAt m (64 + 32 * r + 8) 4) && ctrlOk (leAt m (576 + 32 * r + 8) 4))) then 0x20
  else 0

/-- The record a sequence of the image becomes in instance `i`, without its pages; its tag and GEN go on from the record's own (R289, R291). -/
def restoredRec (m : List Byte) (o i : Nat) (was : KvRec) (dirs : List Nat) : KvRec :=
  { KvRec.empty with
    tag := nextTag was.tag, st := leAt m (o + 4) 1, window := nbit (leAt m (o + 5) 1) 0, inst := i, lanes := leAt m (o + 8) 2
    log2tp := leAt m (o + 0xA) 2, bt := leAt m (o + 0xC) 4, length := leAt m (o + 0x10) 8, firstS := leAt m (o + 0x18) 4
    maxPages := leAt m (o + 0x1C) 4, headRow := leAt m (o + 0x28) 8, headSlot := leAt m (o + 0x30) 4
    spareRows := leAt m (o + 0x34) 2, gen := (was.gen + 1) % 2 ^ 32, recycled := leAt m (o + 0x3C) 4, dirs := dirs }

/-- The rows and lanes a restored sequence maps, in the image's order. -/
def restoredCells (k : KvRec) (n : Nat) : List (Nat × Nat) :=
  ((k.rows k.length).flatMap (fun r => (List.range k.lanes).map (fun l => (r, l)))).take n

/-- What a restore takes for one sequence first: a record and directory pages; none where they are lacking (R356). -/
def Dev.restoreRec (d : Dev) (m : List Byte) (i o : Nat) : Option Dev :=
  (d.kvTakeRec).bind (fun x => (x.2.kvTakeDirs ((leAt m (o + 0x1C) 4 + 16383) / 16384)).map (fun y =>
    y.2.onInst i (fun z => { z with seqs := z.seqs ++ [(x.1, restoredRec m o i (d.kvRec x.1) y.1)] })))

/-- Records and directory pages for every sequence, all or nothing. -/
def Dev.restoreRecs (d : Dev) (m : List Byte) (i : Nat) : List Nat → Option Dev
  | [] => some d
  | o :: t => (d.restoreRec m i o).bind (fun e => e.restoreRecs m i t)

/-- Then its pool pages: one for every mapped page and, under WINDOW, the spare rows held (R356). -/
def Dev.restorePages (d : Dev) (m : List Byte) (i : Nat) (x : Nat × Nat × KvRec) : Option Dev :=
  let k := x.2.2
  let n := leAt m (x.1 + 0x20) 4
  (d.kvTake (n + (if k.window then k.spareRows * k.lanes else 0))).map (fun r =>
    let cells := (restoredCells k n).zip (r.1.take n)
    let full := { k with slots := cells.foldl (fun t y => KMap.put t (k.slot y.1.1 y.1.2) y.2) [], heldPages := r.1.drop n }
    (r.2.onKv (fun v => { v with pages := (r.1.take n).foldl (fun t p => KMap.put t p 1) v.pages })).onInst i (fun y =>
      { y with seqs := y.seqs.map (fun z => if z.1 = x.2.1 then (z.1, full) else z) }))

/-- Pages for every sequence, all or nothing. -/
def Dev.restoreAllPages (d : Dev) (m : List Byte) (i : Nat) : List (Nat × Nat × KvRec) → Option Dev
  | [] => some d
  | x :: t => (d.restorePages m i x).bind (fun e => e.restoreAllPages m i t)

/-- Everything a restore needs from the page manager, all or nothing: BUSY where records or directory pages are lacking, then KV_EXHAUSTED where pages
are (R356). -/
def Dev.restoreAll (d : Dev) (m : List Byte) (i : Nat) : Except Nat Dev :=
  match d.restoreRecs m i (imgSeqs m).1 with
  | none => .error 0x31
  | some e => match e.restoreAllPages m i ((imgSeqs m).1.zip (e.inst i).seqs) with
    | none => .error 0x30
    | some f => .ok f

/-- The restore of slot `i` is to end with status `st`. -/
def State.restoreFail (s : State) (i st : Nat) : State := s.onDev (fun d => d.onInst i (fun x => { x with opResult := st }))

/-- The image `img` that was read for slot `i`: it is checked, and what it needs of the page manager is taken. -/
def State.restoreImage (s : State) (i : Nat) (img : List Byte) : State :=
  let st := s.dev.restoreCheck img
  if st ≠ 0 then s.restoreFail i st
  else if !s.dev.kvReady && !(imgSeqs img).1.isEmpty then s.restoreFail i 0x31
  else match s.dev.restoreAll img i with
    | .error e => s.restoreFail i e
    | .ok e => s.onDev (fun _ => (e.onInst i (fun x => { x with image := img })).kvSync)

/-- RESTORE (R352, R356): the image is read and checked, and records, directory pages and pool pages are taken; a read that
is refused gives INVALID_DESCRIPTOR. -/
def execRestore (m : Master) (inst : Nat) (s : State) : Host.Outcome State Fault Refusal :=
  .next (s.freezeOp m inst 3
    (fun d => d.instState inst == 0 && !d.instSafe inst &&
      (List.range 16).all (fun r => !d.b (Off.QE_CMD_CTRL inst r) 0 && !d.b (Off.QE_CPL_CTRL inst r) 0))
    (fun t =>
      let a := t.dev.saveAddr inst
      let busy := t.onDev (fun d => (d.freezeBusy inst 3).onInst inst (fun x => { x with image := [], seqs := [], opResult := 0 }))
      afterRead (busy.readAs (.qe inst) a 64) (fun u => u.restoreFail inst 0x20) (fun head u =>
        afterRead (u.readAs (.qe inst) a (leAt head 0x10 4)) (fun v => v.restoreFail inst 0x20) (fun img v => v.restoreImage inst img))))

/-- Everything a failed restore took goes back. -/
def Dev.restoreReturn (d : Dev) (i : Nat) : Dev :=
  (d.forAll (d.inst i).seqs (fun x e =>
    (e.kvGive (x.2.heldPages ++ x.2.slots.map (fun p => p.2))).kvGiveDirs x.2.dirs)).onInst i (fun x => { x with seqs := [], image := [] })
    |>.kvSync

/-- The pages and index entries of a sequence are copied from where the image says they lie (R356). -/
def State.restoreCopy (s : State) (m : List Byte) (o : Nat) (k : KvRec) : State :=
  let cells := restoredCells k (leAt m (o + 0x20) 4)
  s.forAll ((List.range cells.length).zip cells) (fun y t =>
    match k.page y.2.1 y.2.2 with
    | none => t
    | some p => (t.put (t.dev.kvPageAddr p) (t.bytes (leAt m (o + 64 + 16 * y.1) 8) 65536)).put (t.dev.kvIndexAddr p)
        (t.bytes (leAt m (o + 72 + 16 * y.1) 8) 4096))

/-- A plan of the image is made resident, by a load alone in the stream the loader chooses, charged there (R356, R600): the block with it; `some none`
where pinned plans hold the banks it needs; `none` while other loads hold them. -/
def State.restoreLoad (s : State) (i : Nat) (x : Plan) : Option (Option State) :=
  let d := s.dev
  let p := d.instPart i
  if !d.loadPossible x.image p then some none
  else (d.loadStream x.image p).bind (fun y => (d.takeBanks p y.2.entry.weightBanks (y.2.tiles ++ y.2.tilesB)).map (fun z =>
    let l := { d.newLoad x.image y.1 y.2 with taken := z.2 }
    let charge := match l.need with | none => d.budget p | some t => min t (d.avail p y.1)
    some (((s.onDev (fun _ => z.1)).fillBanks l).onDev (fun e =>
      (e.makeResident x l).onStream p y.1 (fun st => { st with used := st.used + charge })))))

/-- One plan of the image, at offset `o`, is registered again under R324, with PRELOAD when RESIDENT and PIN when PINNED (R356): the block with it, the
status it fails with, or none while a load holds banks it needs. `code`: as for `imageOk`. -/
def State.restorePlan (s : State) (m : List Byte) (i o : Nat) (code : CodeInfo) : Except (Option Nat) State :=
  let n := leAt m (o + 8) 4
  let pin := nbit (leAt m (o + 4) 4) 0
  let res := nbit (leAt m (o + 4) 4) 1
  let addr := leAt m (o + 16) 8
  match s.readAs (.qe i) addr n with
  | (none, _) => .error (some 0x22)
  | (some img, t) =>
    let d := t.dev
    let k := d.sched.clock + 1
    let x : Plan := { inst := i, planId := leAt m o 4, addr := addr, crc := leAt img (img.length - 8) 8, image := img, code := code, pinned := pin
                      resident := [], reload := none, order := k, lastUse := k, banks := [], evictDue := none }
    if !imageOk img n (d.judge.shadowBytes) code || !crcEndOk img || !d.identOk img || (d.plan i (leAt m o 4)).isSome then .error (some 0x20)
    else if imgSafety img then .error (some 0x22)
    else if 64 ≤ (d.plans.filter (fun x => x.inst == i)).length then .error (some 0x31)
    else
      let u := { t with dev := { d with plans := d.plans ++ [x], sched := { d.sched with clock := k } } }
      if (!pin && !res) || imgRes img = 0 then .ok u
      else match u.restoreLoad i x with
        | none => .error none
        | some none => if pin then .error (some 0x31) else .ok u
        | some (some v) => .ok v

/-- The plans of an image, in order, each with what its streams declare. -/
def State.restorePlans (s : State) (m : List Byte) (i : Nat) : List (Nat × CodeInfo) → Except (Option Nat) State
  | [] => .ok s
  | o :: t => match s.restorePlan m i o.1 o.2 with
    | .error e => .error e
    | .ok u => u.restorePlans m i t

/-- The rings take their saved values (R356). -/
def Dev.restoreRings (d : Dev) (m : List Byte) (i : Nat) : Dev :=
  d.forEach 16 (fun r e =>
    let a := 64 + 32 * r
    let b := 576 + 32 * r
    let f := (((((e.setAddr (Off.QE_CMD_BASE_LO i r) (Off.QE_CMD_BASE_HI i r) (leAt m a 8 / 4096 * 4096)).wn (Off.QE_CMD_CTRL i r)
      (leAt m (a + 8) 4 % 4 + nfld (leAt m (a + 8) 4) 12 8 * 256)).setAddr (Off.QE_DB_ADDR_LO i r) (Off.QE_DB_ADDR_HI i r)
      (leAt m (a + 12) 8 / 8 * 8)).wn (Off.QE_DB_GEN i r) (leAt m (a + 20) 4)).wn (Off.QE_CMD_CONS i r) (leAt m (a + 24) 4)).wn
      (Off.QE_CMD_STATUS i r) (leAt m (a + 28) 4 % 4 + nfld (leAt m (a + 28) 4) 7 4 * 16)
    let g := (((f.setAddr (Off.QE_CPL_BASE_LO i r) (Off.QE_CPL_BASE_HI i r) (leAt m b 8 / 4096 * 4096)).wn (Off.QE_CPL_CTRL i r)
      (leAt m (b + 8) 4 % 2 + nfld (leAt m (b + 8) 4) 12 8 * 256 + nfld (leAt m (b + 8) 4) 20 16 * 2 ^ 16)).wn (Off.QE_CPL_PROD i r)
      (leAt m (b + 12) 4)).wn (Off.QE_CPL_CONS i r) (leAt m (b + 16) 4)
    g.onInst i (fun x => { x with prod := KMap.put x.prod r (leAt m (a + 24) 4) }))

/-- A held command of the image enters flight again (R356). -/
def Dev.restoreCmd (d : Dev) (m : List Byte) (i o : Nat) : Dev :=
  let desc := slice m o 64
  let args := (List.range (leAt m (o + 66) 2)).map (fun k => argAt m (o + 80 + 16 * k))
  d.addCmd { (newCmd d i (leAt m (o + 64) 1 % 16) (leAt m (o + 68) 4) ((d.cplOf i desc).getD 0) desc args) with kills := leAt m (o + 65) 1 }

/-- The end of a restore that met no failure, in one step (R356). -/
def State.restoreEnd (s : State) (m : List Byte) (i : Nat) : State :=
  let t := s.forAll (s.dev.inst i).seqs (fun x u => u.kvPut x.1 x.2)
  t.onDev (fun d =>
    let e := (d.restoreRings m i).onInst i (fun x => { x with
      usedCmds := x.usedCmds + leAt m 0x30 4, usedTileUs := x.usedTileUs + leAt m 0x34 4
      usedKib := x.usedKib + leAt m 0x38 4, seqs := [], image := [] })
    let f := e.forAll (imgHeld m) (fun o x => x.restoreCmd m i o)
    ((f.setB (Off.QE_INST_CTRL i) 0 true).freezeResult i 3 0).setF (Off.QE_INST_STATUS i) 1 0 1) |>.deadlines

/-- RESTORE_DONE (R356, R358): the copies are made; the instance becomes RUNNING in one step, or everything taken is returned. While a load holds banks
that a plan needs the end has not come. -/
def execRestoreDone (inst : Nat) (ecc : Ecc) (codes : List CodeInfo) (s : State) : Host.Outcome State Fault Refusal :=
  .next (if (s.dev.inst inst).op ≠ 3 then s
  else
    let x := s.dev.inst inst
    let fail := fun (st : Nat) => s.onDev (fun d => (d.restoreReturn inst).freezeResult inst 3 st)
    if x.opResult ≠ 0 then fail x.opResult
    else if ecc = .uncorrectable then fail 0x32
    else
      let t := s.forAll ((imgSeqs x.image).1.zip x.seqs) (fun y u => u.restoreCopy x.image y.1 y.2.2)
      let l := imgPlans x.image
      match t.restorePlans x.image inst ((List.range l.length).map (fun k => (l.getD k 0, codes.getD k noCode))) with
      | .error none => s
      | .error (some e) => fail e
      | .ok u => (u.restoreEnd x.image inst).admitAll)

end Sys2Proof.Machine
end

