-- ==== Sys2Proof/Machine/RegWrite.lean ====
section
/-! DEFINITION. Machine/RegWrite.lean: a write of set-up space by any master (R9, R46, R49, R50, R78, R545, R546). -/

namespace Sys2Proof.Machine

/-- `f` after an effect that answers a next state. -/
def andThen (o : Host.Outcome State Fault Refusal) (f : State → Host.Outcome State Fault Refusal) : Host.Outcome State Fault Refusal :=
  match o with
  | .next s => f s
  | .fault x => .fault x
  | .refused x => .refused x

/-- A write of QE_FREEZE of instance `i`: bits 2:0 name the operation, other values are ignored (R351). -/
def State.freezeWrite (s : State) (m : Master) (i value : Nat) : Host.Outcome State Fault Refusal :=
  match value % 8 with
  | 1 => execFreeze m i s
  | 2 => execSave m i s
  | 3 => execRestore m i s
  | 4 => execThaw m i s
  | 5 => execDiscard m i s
  | _ => .next s

/-- A write of PWR_DOM_REQ (R561, R569). Whether a domain's cores are halted is theirs, and no register's (R561): it is free here. -/
def State.domReqWrite (s : State) (m : Master) (value : Nat) : State :=
  (s.onDev (fun d => d.takeFree.2)).domWrite m (nfld value 5 0) (nfld value 9 8) (nfld value 31 16) (nbit s.dev.takeFree.1.toNat 0)

/-- A write of DMA_CMD (R548); how much of an aborted copy was moved is free. -/
def State.dmaCmdWrite (s : State) (m : Master) (c value : Nat) : State :=
  (s.onDev (fun d => d.takeFree.2)).dmaWrite m c value s.dev.takeFree.1.toNat

/-- What a write to a WO register does, where `off` is its first byte and `value` the value in its own position. -/
def State.woWrite (s : State) (m : Master) (off value : Nat) : Host.Outcome State Fault Refusal :=
  if off % 0x1000 = 0xFFC then .next (s.applyWrite m off value)
  else if 0x120 ≤ off ∧ off < 0x1A0 then execSchPartReset m ((off - 0x120) / 0x10) value s
  else if off = Off.START_CTRL then execStartCtrlReady m value s
  else if 0x600000 ≤ off ∧ off < 0x680000 then execUmpCntClear m ((off - 0x600000) / 0x10000) value s
  else if 0x700000 ≤ off ∧ off < 0x800000 then s.freezeWrite m ((off - 0x700000) / 0x1000) value
  else if off = Off.TIME_ADJ_RATE then execTimeAdjRate m value s
  else if off = Off.TIME_ADJ_OFFSET then execTimeAdjOffset m value s
  else if off = Off.TIME_SET_NS then execTimeSet m value s
  else if off = Off.TIME_SET_SEC_LO then .next (s.onDev (fun d => d.onTime (fun t => { t with setSecLo := value % 2 ^ 32 })))
  else if off = Off.TIME_SET_SEC_HI then .next (s.onDev (fun d => d.onTime (fun t => { t with setSecHi := value % 2 ^ 16 })))
  else if 0xA00100 ≤ off ∧ off < 0xA00180 then execCapPop m ((off - 0xA00100) / 0x20) value s
  else if 0xA10000 ≤ off ∧ off < 0xA12000 then execTxtsPop m ((off - 0xA10000) / 0x100) value s
  else if off = Off.KPR_RELEASE then execKprRelease m value s
  else if 0xC10000 ≤ off ∧ off < 0xC50000 then s.mbxWrite m ((off - 0xC10000) / 0x4000) value
  else if off = Off.VOX_HEARTBEAT then execVoxHeartbeat m value s
  else if off = Off.PWR_DOM_REQ then .next (s.domReqWrite m value)
  else if off = Off.WDG_SERVICE then execWdgService m value s
  else if 0xF10000 ≤ off ∧ off < 0xF10200 then .next (s.dmaCmdWrite m ((off - 0xF10000) / 0x20) value)
  else .next s

/-- A W1C write; OVERTEMP stays set while the turn-off of R566 lasts. -/
def Dev.w1cWrite (d : Dev) (off : Nat) (value : W64) : Dev :=
  let e := d.w1c off value
  if off = Off.PWR_EVENTS ∧ d.power.tripped = true then e.setB off 3 (d.b off 3) else e

/-- A part of an access that falls on one register: the register, its offset, the value and the mask in its own bit positions. -/
structure RegPart where
  reg : RegDesc
  off : Nat
  value : W64
  mask : W64

/-- The part of an access on the 32 bits at an aligned offset; none where no register is (R50). -/
def wordPart (off value : Nat) : List RegPart :=
  match locate off with
  | none => []
  | some (r, o) =>
    if o = off then [⟨r, o, BitVec.ofNat 64 (value % 2 ^ 32), maskOf 31 0⟩] else [⟨r, o, BitVec.ofNat 64 (value % 2 ^ 32 * 2 ^ 32), maskOf 63 32⟩]

/-- The parts of an access: a 64-bit register takes eight bytes whole, two adjacent ones each take their half (R49). -/
def regParts (off size value : Nat) : List RegPart :=
  if size ≠ 8 then wordPart off value
  else
    let halves := wordPart off value ++ wordPart (off + 4) (value / 2 ^ 32)
    match locate off with
    | some (r, o) => if r.wide ∧ o = off then [⟨r, o, BitVec.ofNat 64 value, maskOf 63 0⟩] else halves
    | none => halves

/-- A write to a register that is not WO, by its access type (R9). -/
def State.plainWrite (s : State) (m : Master) (p : RegPart) : State :=
  match p.reg.acc with
  | .rw => s.onDev (fun d => d.stageBits (d.world m) p.off p.value p.mask)
  | .ns => s.nsWrite m p.reg p.off p.value p.mask
  | .w1c => s.onDev (fun d => d.w1cWrite p.off (p.value &&& p.mask))
  | .ro => s
  | .wo => s

/-- The parts of a write take effect, the lower first. -/
def State.writeParts (s : State) (m : Master) : List RegPart → Host.Outcome State Fault Refusal
  | [] => .next s
  | p :: t =>
    if p.reg.acc = .wo then andThen (s.woWrite m p.off (p.value &&& p.mask).toNat) (fun u => u.writeParts m t)
    else (s.plainWrite m p).writeParts m t

/-- Bytes into the mailbox block's memory: a submit window takes them, the normal world not into a secure channel's; the rest ignores them (R554, R557). -/
def State.windowWrite (s : State) (m : Master) (off size value : Nat) : State :=
  let c := (off - 0xC10000) / 0x4000
  let x := (off - 0xC10000) % 0x4000
  if off < 0xC10000 ∨ 0x1200 ≤ x then s
  else if s.dev.mbxWorld c && !s.dev.world m then s.onDev (fun d => d.wldDenied 1 2 m (off / 0x10000) off)
  else s.onDev (fun d => d.onBox c (fun b => { b with window := splice b.bytes (x - 0x1000) (leBytes size value) }))

/-- A write of set-up space, admitted or answered with an error response (R46, R49, R50, R545). -/
def State.setupWrite (s : State) (m : Master) (off size value : Nat) : Host.Outcome State Fault Refusal :=
  match s.dev.setupRefused m off size with
  | some d => .next { s with dev := d }
  | none =>
    andThen (if (s.dev.mbxByte off).isSome then .next (s.windowWrite m off size value) else s.writeParts m (regParts off size value))
      (fun t => .next (t.onDev (fun d => d.answer .ok)))

/-- REGISTER_WRITE (R9, R49, R50, R78, R545, R546). -/
def execRegisterWrite (m : Master) (off size value : Nat) (s : State) : Host.Outcome State Fault Refusal := s.setupWrite m off size value

end Sys2Proof.Machine
end

