-- ==== Sys2Proof/Machine/Bridge.lean ====
section
/-! DEFINITION. Machine/Bridge.lean: the island bridge, accesses to the main fabric and to the island windows (R46, R77, R369, R394 to R402, R440). -/

namespace Sys2Proof.Machine

/-! ### Accesses of the main fabric (R46, R49) -/

/-- The set-up offset of an address in set-up space. -/
def setupOff (a : Nat) : Option Nat := if 0xF0000000 ≤ a ∧ a < 0x100000000 then some (a - 0xF0000000) else none

/-- A write at an address by a master: a set-up register, or memory. -/
def State.fabricWrite (s : State) (m : Master) (a : Nat) (bs : List Byte) : Host.Outcome State Fault Refusal :=
  match setupOff a with
  | some off => s.setupWrite m off bs.length (leNat bs)
  | none => .next (s.busWrite m a bs)

/-- A read at an address by a master: a set-up register, or memory. -/
def State.fabricRead (s : State) (m : Master) (a n : Nat) (ecc : Ecc) : State :=
  match setupOff a with
  | some off => s.onDev (fun d => d.setupRead m off n)
  | none => s.busRead m a n ecc

/-- MAIN_FABRIC_ACCESS (R46, R49, R77, R374, R545). -/
def execMainFabricAccess (m : Master) (addr : Nat) (k : AccessKind) (bytes : List Byte) (len : Nat) (ecc : Ecc) (s : State) :
    Host.Outcome State Fault Refusal :=
  match k with
  | .read => .next (s.fabricRead m addr len ecc)
  | .write => s.fabricWrite m addr bytes

/-! ### Posted writes (R397) -/

/-- The address of a timeout or a write error is recorded (R401). -/
def Dev.ibrErrAt (d : Dev) (a : Nat) : Dev := d.setAddr Off.IBR_ERR_ADDR_LO Off.IBR_ERR_ADDR_HI a

/-- A posted write has received an error response. -/
def Dev.writeErr (d : Dev) (a : Nat) : Dev := (d.setB Off.IBR_EVENTS 1 true).ibrErrAt a

/-- `d` with the bridge's buffer changed. -/
def Dev.onPosted (d : Dev) (g : List (Nat × Nat × List Byte) → List (Nat × Nat × List Byte)) : Dev :=
  { d with bridge := { posted := g d.bridge.posted } }

/-- The oldest buffered write is made. -/
def State.drainOne (s : State) : Host.Outcome State Fault Refusal :=
  match s.dev.bridge.posted with
  | [] => .next s
  | (p, a, bs) :: rest =>
    andThen ((s.onDev (fun d => d.onPosted (fun _ => rest))).fabricWrite (.island p) a bs) (fun t =>
      .next (t.onDev (fun d => d.when (d.resp == .error) (fun e => e.writeErr a))))

/-- The `n` oldest buffered writes are made, in order. -/
def State.drain : Nat → State → Host.Outcome State Fault Refusal
  | 0, s => .next s
  | n + 1, s => andThen s.drainOne (fun t => t.drain n)

/-- Every buffered write is made. -/
def State.drainAll (s : State) : Host.Outcome State Fault Refusal := s.drain s.dev.bridge.posted.length

/-! ### The island's accesses (R396, R397) -/

/-- The pair makes accesses: the island has started (R66), and the pair is not held in reset (R438). -/
def Dev.islandRuns (d : Dev) (p : Nat) : Bool := d.masterRuns (.island p) && !(decide (p < 2) && d.pairState p == 1)

/-- An address of the island's own memories. -/
def islandOwn (a : Nat) : Bool := decide (0x80000000 ≤ a ∧ a < 0x80800000) || decide (0x90000000 ≤ a ∧ a < 0x98000000)

/-- The longest hold (R396). -/
def Dev.held (d : Dev) (ns : Nat) : Dev := d.wn Off.IBR_MAX_HOLD (max (d.n Off.IBR_MAX_HOLD) (min ns (2 ^ 32 - 1)))

/-- An island-side timeout: error response, the count, the address (R396, R397). -/
def Dev.islandLate (d : Dev) (a : Nat) : Dev := (((d.incSat Off.IBR_CNT_TIMEOUT).ibrErrAt a).held 10000).answer .error

/-- A read that is not answered in 10 µs; the master's semaphore is released (R396, R400). -/
def Dev.readLate (d : Dev) (p a : Nat) : Dev := ((d.islandLate a).setB Off.IBR_EVENTS 0 true).releaseSems p

/-- A crossing is resolved for the island side (R399). -/
def Dev.crossed (d : Dev) (c : Bool) : Dev := d.when c (fun e => (e.incSat Off.IBR_CNT_CROSS).setB Off.IBR_EVENTS 2 true)

/-- `f` as a held transfer of `ns`, after every earlier write; late after 10 µs (R396). -/
def State.holding (s : State) (ns : Nat) (late : Dev → Dev) (f : State → Host.Outcome State Fault Refusal) : Host.Outcome State Fault Refusal :=
  if 10000 < ns then .next (s.onDev late) else andThen s.drainAll (fun t => f (t.onDev (fun d => d.held ns)))

/-- ISLAND_READ (R394, R396, R397, R399). -/
def execIslandRead (p addr len ns : Nat) (crossing : Bool) (ecc : Ecc) (s : State) : Host.Outcome State Fault Refusal :=
  if !s.dev.islandRuns p then .next s
  else if islandOwn addr then .next (s.busRead (.island p) addr len ecc)
  else s.holding ns (fun d => d.readLate p addr) (fun t => .next ((t.onDev (fun d => d.crossed crossing)).fabricRead (.island p) addr len ecc))

/-- READ_TIMEOUT (R396, R400). -/
def execReadTimeout (p addr : Nat) (s : State) : Host.Outcome State Fault Refusal :=
  .next (if s.dev.islandRuns p then s.onDev (fun d => d.readLate p addr) else s)

/-- Entries of the posted buffer (R397). -/
def postedMax : Nat := 8

/-- A write that the buffer takes, which has a free entry. -/
def Dev.post (d : Dev) (p a : Nat) (bs : List Byte) : Dev := (d.onPosted (fun l => l ++ [(p, a, bs)])).answer .ok

/-- An island-side write: its own memory at once; a memory-type range posted, once an entry is free; a device-type range held (R397). -/
def State.islandWrite (s : State) (p addr : Nat) (bytes : List Byte) (drained ns : Nat) : Host.Outcome State Fault Refusal :=
  if islandOwn addr then .next (s.busWrite (.island p) addr bytes)
  else if s.dev.memType addr bytes.length then
    andThen (s.drain drained) (fun t =>
      if t.dev.bridge.posted.length < postedMax then .next (t.onDev (fun d => (d.held ns).post p addr bytes))
      else if 10000 < ns then .next (t.onDev (fun d => d.islandLate addr))
      else andThen t.drainOne (fun u => .next (u.onDev (fun d => (d.held ns).post p addr bytes))))
  else s.holding ns (fun d => d.islandLate addr) (fun t => t.fabricWrite (.island p) addr bytes)

/-- ISLAND_WRITE (R394, R397). -/
def execIslandWrite (p addr : Nat) (bytes : List Byte) (drained ns : Nat) (s : State) : Host.Outcome State Fault Refusal :=
  if s.dev.islandRuns p then s.islandWrite p addr bytes drained ns else .next s

/-- WRITE_ERROR (R397): the oldest buffered write receives an error response and writes nothing. -/
def execWriteError (s : State) : Host.Outcome State Fault Refusal :=
  .next (s.onDev (fun d => match d.bridge.posted with
    | [] => d
    | (_, a, _) :: rest => (d.onPosted (fun _ => rest)).writeErr a))

/-- DEBUG_MEMORY_WRITE (R440): a store of the pair's main core. -/
def execDebugMemoryWrite (p addr : Nat) (bytes : List Byte) (s : State) : Host.Outcome State Fault Refusal :=
  if s.dev.debugs p then s.islandWrite p addr bytes 0 0 else .next s

/-! ### Semaphores (R400) -/

/-- A locked sequence fails, or a reservation is not taken. -/
def Dev.lockFail (d : Dev) : Dev := (d.incSat Off.IBR_CNT_LOCK_FAIL).setB Off.IBR_EVENTS 3 true

/-- A semaphore is taken for a master and a line, the master's earlier one being released; which one is open. Whether one was free. -/
def Dev.takeSem (d : Dev) (p a : Nat) : Bool × Dev :=
  let e := d.releaseSems p
  match pickFree 16 (fun k => e.b Off.IBR_STATUS (16 + k)) 16 e.takeFree.1.toNat with
  | none => (false, e.lockFail)
  | some k => (true, (e.takeFree.2.setB Off.IBR_STATUS (16 + k) true).wn (Off.IBR_SEM k) (1 + p % 8 * 2 + a % 2 ^ 52 / 64 * 64))

/-- The master holds a semaphore that is VALID for the line of an address. -/
def Dev.semValid (d : Dev) (p a : Nat) : Bool :=
  (List.range 16).any (fun k => d.b Off.IBR_STATUS (16 + k) && d.b (Off.IBR_SEM k) 0 && d.f (Off.IBR_SEM k) 3 1 == p && d.f (Off.IBR_SEM k) 51 6 == a % 2 ^ 52 / 64)

/-- The exclusive load: the semaphore, then the read. -/
def State.exLoad (s : State) (p a n : Nat) (ecc : Ecc) : State := (s.onDev (fun d => (d.takeSem p a).2)).fabricRead (.island p) a n ecc

/-- The exclusive store: made where the semaphore is VALID; released either way. Whether it was made. -/
def State.exStore (s : State) (p a : Nat) (bs : List Byte) : Bool × State :=
  if s.dev.semValid p a then (true, (s.busWrite (.island p) a bs).onDev (fun d => d.releaseSems p))
  else (false, s.onDev (fun d => d.releaseSems p))

/-- `f` where the range is of memory type, an error response without access otherwise (R400). -/
def State.onMemType (s : State) (p a n : Nat) (f : Host.Outcome State Fault Refusal) : Host.Outcome State Fault Refusal :=
  if !s.dev.islandRuns p then .next s
  else if s.dev.memType a n && (setupOff a).isNone then f
  else .next (s.onDev (fun d => d.answer .error))

/-- EXCLUSIVE_LOAD (R396, R400). -/
def execExclusiveLoad (p addr len : Nat) (h : Hold) (s : State) : Host.Outcome State Fault Refusal :=
  s.onMemType p addr len (s.holding h.ns (fun d => d.readLate p addr) (fun t => .next (t.exLoad p addr len h.ecc)))

/-- EXCLUSIVE_STORE (R400): answers 1 for success and 0 for failure. -/
def execExclusiveStore (p addr : Nat) (bytes : List Byte) (s : State) : Host.Outcome State Fault Refusal :=
  s.onMemType p addr bytes.length (andThen s.drainAll (fun t =>
    match t.exStore p addr bytes with
    | (true, u) => .next (u.onDev (fun d => d.when (d.resp == .ok) (fun e => e.answer (.data 1))))
    | (false, u) => .next (u.onDev (fun d => d.answer (.data 0)))))

/-- The semaphore of a master loses VALID: a main-side write has come between. -/
def Dev.loseSem (d : Dev) (p : Nat) : Dev :=
  d.forEach 16 (fun k e => e.when (e.b Off.IBR_STATUS (16 + k) && e.f (Off.IBR_SEM k) 3 1 == p) (fun f => f.setB (Off.IBR_SEM k) 0 false))

/-- The write of a locked sequence, after its read: a failed store gets an error response and is counted (R400). -/
def State.lockedStore (s : State) (p a : Nat) (bs : List Byte) : State :=
  match s.dev.resp with
  | .bytes _ =>
    match s.exStore p a bs with
    | (true, v) => v
    | (false, v) => v.onDev (fun d => d.lockFail.answer .error)
  | _ => s.onDev (fun d => d.releaseSems p)

/-- LOCKED_READ_WRITE (R396, R400): an exclusive load and an exclusive store; a failed store gets an error response. -/
def execLockedReadWrite (p addr : Nat) (bytes : List Byte) (h : Hold) (s : State) : Host.Outcome State Fault Refusal :=
  s.onMemType p addr bytes.length (s.holding h.ns (fun d => d.readLate p addr) (fun t =>
    .next (((t.exLoad p addr bytes.length h.ecc).onDev (fun d => d.when (decide (0 < h.lost)) (fun e => e.loseSem p))).lockedStore p addr bytes)))

/-- The new value of an atomic operation on `w` bytes. -/
def atomicValue (op : AtomicOp) (w old x : Nat) : Nat :=
  let b := 8 * w
  let o := old % 2 ^ b
  let y := x % 2 ^ b
  match op with
  | .swap => y
  | .add => (o + y) % 2 ^ b
  | .and => Nat.land o y
  | .or => Nat.lor o y
  | .xor => Nat.xor o y
  | .min => if signedOf b o ≤ signedOf b y then o else y
  | .max => if signedOf b o ≤ signedOf b y then y else o
  | .minu => min o y
  | .maxu => max o y

/-- Up to so many attempts at an atomic operation, the first `fails` of them lost (R400). It answers the value read. -/
def State.atomicTry (p a w : Nat) (op : AtomicOp) (x : W64) (ecc : Ecc) : Nat → Nat → State → State
  | 0, _, s => s.onDev (fun d => d.lockFail.answer .error)
  | n + 1, fails, s =>
    let t := (s.exLoad p a w ecc).onDev (fun d => d.when (decide (0 < fails)) (fun e => e.loseSem p))
    match t.dev.resp with
    | .bytes bs =>
      match t.exStore p a (leBytes w (atomicValue op w (leNat bs) x.toNat)) with
      | (true, u) => u.onDev (fun d => d.when (d.resp == .ok) (fun e => e.answer (.data (leNat bs))))
      | (false, u) => u.atomicTry p a w op x ecc n (fails - 1)
    | _ => t.onDev (fun d => d.releaseSems p)

/-- An atomic operation that is not made within its hold of 10 µs: an error response (R400). -/
def Dev.atomicLate (d : Dev) (p : Nat) : Dev := ((d.lockFail.held 10000).releaseSems p).answer .error

/-- ATOMIC_OPERATION (R400): run inside the bridge, at most 4 attempts within one hold. -/
def execAtomicOperation (p addr width : Nat) (op : AtomicOp) (operand : W64) (h : Hold) (s : State) :
    Host.Outcome State Fault Refusal :=
  s.onMemType p addr width (s.holding h.ns (fun d => d.atomicLate p) (fun t => .next (State.atomicTry p addr width op operand h.ecc 4 h.lost t)))

/-- SEMAPHORE_CLEAR (R369, R400): a main-side write to a watched line. -/
def execSemaphoreClear (m : Master) (addr : Nat) (bytes : List Byte) (s : State) : Host.Outcome State Fault Refusal :=
  .next (if isIsland m then s else s.busWrite m addr bytes)

/-! ### Main-side accesses to the island windows (R395, R398, R399) -/

/-- Pieces of `n` bytes from `a` that do not cross a 64-byte line (R398). -/
def pieceCount (a n : Nat) : Nat := (a + n - 1) / 64 - a / 64 + 1

/-- Grants to island masters that a piece waits through before it takes the next one (R398). -/
def pieceWaits : Nat := 16

/-- The pieces granted within `limit` ns of the first issue, and whether a grant lies past it, over the grants of the island bus: an island
master takes the bus first, but for a piece that has waited through 16 of their grants. `made` pieces are granted, the next one has waited
through `waited` grants. -/
def grantPieces (limit : Nat) (made waited : Nat) : List (Nat × Bool) → Nat × Bool
  | [] => (made, false)
  | (ns, asks) :: l =>
    if limit < ns then (made, true)
    else if asks && decide (waited < pieceWaits) then grantPieces limit made (waited + 1) l
    else grantPieces limit (made + 1) 0 l

/-- IBR_CTRL.MAIN_TIMEOUT_US in ns. -/
def Dev.mainLimit (d : Dev) : Nat := d.f Off.IBR_CTRL 23 16 * 1000

/-- The bytes of the first `k` pieces of `n` bytes from `a`. -/
def pieceBytes (a n k : Nat) : Nat := min n ((a / 64 + k) * 64 - a)

/-- A main-side access to an island window of which `k` pieces are made in time: those stay; the access gets an error response (R398). -/
def State.mainLate (s : State) (m : Master) (addr : Nat) (k : AccessKind) (bytes : List Byte) (len made : Nat) : State :=
  let n := match k with | .read => len | .write => bytes.length
  match s.dev.verdict m (s.dev.world m) k addr n with
  | .ok =>
    let t := match k with
      | .read => s
      | .write => (s.storeAs m addr (bytes.take (pieceBytes addr n made))).2
    t.onDev (fun d => (d.setB Off.IBR_EVENTS 5 true).answer .error)
  | v => s.onDev (fun d => (d.refuse v addr).answer .error)

/-- MAIN_ISLAND_ACCESS (R395, R398, R399): exclusive and atomic accesses always get an error response; one with a piece that is not granted
in time is late. -/
def execMainIslandAccess (m : Master) (addr : Nat) (k : AccessKind) (bytes : List Byte) (len : Nat) (exclusive : Bool)
    (bus : BusGrants) (ecc : Ecc) (s : State) : Host.Outcome State Fault Refusal :=
  .next (
    if !s.dev.masterRuns m then s
    else if !islandOwn addr || exclusive then s.onDev (fun d => d.answer .error)
    else
      let t := s.onDev (fun d => d.crossed bus.crossing)
      let g := grantPieces s.dev.mainLimit 0 0 bus.grants
      let n := match k with | .read => len | .write => bytes.length
      if g.2 && decide (g.1 < pieceCount addr n) then t.mainLate m addr k bytes len g.1
      else match k with
        | .read => t.busRead m addr len ecc
        | .write => t.busWrite m addr bytes)

/-- MAIN_TIMEOUT (R398): a piece of an access is not granted in time; one whose pieces are all granted is not late. -/
def execMainTimeout (m : Master) (addr : Nat) (k : AccessKind) (bytes : List Byte) (len : Nat) (bus : List (Nat × Bool)) (s : State) :
    Host.Outcome State Fault Refusal :=
  .next (
    let g := grantPieces s.dev.mainLimit 0 0 bus
    let n := match k with | .read => len | .write => bytes.length
    if s.dev.masterRuns m && islandOwn addr && decide (g.1 < pieceCount addr n) then s.mainLate m addr k bytes len g.1 else s)

end Sys2Proof.Machine
end

