-- ==== Sys2Proof/Machine/ServicePort.lean ====
section
/-! DEFINITION. Machine/ServicePort.lean: the service port's commands (R88 to R94). -/

namespace Sys2Proof.Machine

/-- Status codes (R131). -/
def stOk : Nat := 0x0000
def stVoidRows : Nat := 0x0001
def stCheckFail : Nat := 0x0002
def stKilledRerun : Nat := 0x0010
def stAborted : Nat := 0x0011
def stPartReset : Nat := 0x0012
def stTimeout : Nat := 0x0013
def stInvalid : Nat := 0x0020
def stAlias : Nat := 0x0021
def stDenied : Nat := 0x0022
def stNotResident : Nat := 0x0023
def stWcetReject : Nat := 0x0024
def stKvExhausted : Nat := 0x0030
def stBusy : Nat := 0x0031
def stEcc : Nat := 0x0032

/-- `d` with the service port changed. -/
def Dev.onSp (d : Dev) (g : ServicePort → ServicePort) : Dev := { d with sp := g d.sp }

/-- A response frame (R89): the header with TAG echoed, then the payload. -/
def spFrame (op tag status : Nat) (payload : List Byte) : List Byte :=
  leBytes 1 op ++ leBytes 1 1 ++ leBytes 2 tag ++ leBytes 4 payload.length ++ leBytes 2 status ++ zeros 6 ++ payload

/-- The response is written, the state becomes response ready, and DAT1 signals it (R88). -/
def Dev.spAnswer (d : Dev) (op tag status : Nat) (payload : List Byte) : Dev :=
  (d.onSp (fun p => { p with state := 2, response := spFrame op tag status payload })).emit .sdioIrq

/-- The port answers: 5 ms after power good (R54, R66). -/
def Dev.spUp (d : Dev) : Bool := d.runs && decide (5000000 ≤ d.now)

/-- A command whose opcode, LENGTH or fields are out of range (R90, R91). -/
def Dev.spInvalid (d : Dev) (op tag : Nat) : Dev := d.spAnswer op tag stInvalid []

/-- The command window (R88). -/
def ServicePort.window (p : ServicePort) : List Byte := p.command ++ zeros (4096 - p.command.length)

/-- A frame is written at the start of the command window, which keeps the bytes after it (R88, R89). -/
def Dev.spFill (d : Dev) (frame : List Byte) : Dev := d.onSp (fun p => { p with command := frame.take 4096 ++ p.command.drop frame.length })

/-- The opcodes of R90. -/
def spOpcodes : List Nat := [1, 2, 3, 4, 5, 0x10, 0x11, 0x12, 0x13]

/-- The header of the window's frame is that of a command (R89, R90): a known opcode, VERSION 1, at most 4,080 bytes of payload, STATUS 0 and
nothing in the reserved bytes. Every other header is answered with INVALID_DESCRIPTOR (DEDUCED, log 58). -/
def spHeaderOk (w : List Byte) : Bool :=
  spOpcodes.contains (leAt w 0 1) && leAt w 1 1 == 1 && decide (leAt w 4 4 ≤ 4080) && leAt w 8 8 == 0

/-- A frame is written to the command window, and then `bell` to the doorbell (R88, R89): 1 starts the command, and another value starts none
(DEDUCED, log 58); a busy port ignores the doorbell; a bad header is answered; `f` is the effect of the command of opcode `op` with its tag and
payload. A frame of another opcode is no command of this row (log 58). -/
def State.spCommand (s : State) (op : Nat) (frame : List Byte) (bell : Nat) (f : Nat → List Byte → State → State) : State :=
  if !s.dev.spUp then s
  else
    let t := s.onDev (fun d => d.spFill frame)
    let w := t.dev.sp.window
    if t.dev.sp.state = 1 ∨ bell ≠ 1 then t
    else if !spHeaderOk w then t.onDev (fun d => d.spInvalid (leAt w 0 1) (leAt w 2 2))
    else if leAt w 0 1 ≠ op then t
    else f (leAt w 2 2) (slice w 16 (leAt w 4 4)) t

/-- The flash range `n` bytes from `off` ends inside the 32 MiB (R91). -/
def flashRange (off n : Nat) : Bool := decide (off + n ≤ 32 * 2 ^ 20)

/-- SP_IDENT (R91). -/
def execSpIdent (frame : List Byte) (bell : Nat) (s : State) : Host.Outcome State Fault Refusal :=
  .next (s.spCommand 1 frame bell (fun tag payload t => t.onDev (fun d =>
    if payload ≠ [] then d.spInvalid 1 tag
    else d.spAnswer 1 tag stOk (leBytes 4 d.lsIdent ++ (List.range 8).map Config.deviceIdent))))

/-- The eight status registers of SP_STATUS (R91). -/
def Dev.spStatus (d : Dev) : List Byte :=
  [Off.START_STAGE, Off.START_FAIL, Off.START_STRAPS, Off.CFG_REC_STATUS, Off.OVER_COUNT, Off.OVER_STATUS, Off.KPR_STATUS,
    Off.KPR_DOUBT].flatMap (fun o => leBytes 4 (d.n o))

/-- SP_STATUS (R91). -/
def execSpStatus (frame : List Byte) (bell : Nat) (s : State) : Host.Outcome State Fault Refusal :=
  .next (s.spCommand 2 frame bell (fun tag payload t => t.onDev (fun d =>
    if payload ≠ [] then d.spInvalid 2 tag else d.spAnswer 2 tag stOk d.spStatus)))

/-- How far index `x` lies behind CLAMP_PROD, on 32 bits. -/
def Dev.clampBack (d : Dev) (x : Nat) : Nat := (d.n Off.CLAMP_PROD + 2 ^ 32 - x % 2 ^ 32) % 2 ^ 32

/-- The first index SP_CLAMP_READ returns (R92): an index older than CLAMP_PROD − CLAMP_RING_SIZE gives that oldest one. DESIGN CHOICE (log 58):
an index ahead of CLAMP_PROD is, on free-running 32 bits, older than the oldest. -/
def Dev.clampFirst (d : Dev) (index : Nat) : Nat :=
  if d.n Off.CLAMP_RING_SIZE < d.clampBack index then (d.n Off.CLAMP_PROD + 2 ^ 32 - d.n Off.CLAMP_RING_SIZE) % 2 ^ 32 else index % 2 ^ 32

/-- Where the entry of an index lies: in the ring in use, or in the internal ring where it is from before the ring base was applied (R82, R92). -/
def Dev.clampEntryAt (d : Dev) (x : Nat) : Nat :=
  if !d.clampInternal && decide (d.clampBack d.clampFrom < d.clampBack x) then 0x1FFE000 + x % 512 * 16
  else d.clampBase + x % d.clampSize * 16

/-- The entries SP_CLAMP_READ returns; none passes CLAMP_PROD (R91, R92). -/
def State.clampRead (s : State) (index count : Nat) : List Byte :=
  let first := s.dev.clampFirst index
  let n := min count (s.dev.clampBack first)
  leBytes 4 (s.dev.n Off.CLAMP_PROD) ++ leBytes 4 first ++ leBytes 4 n ++ zeros 4 ++
    (List.range n).flatMap (fun i => s.bytes (s.dev.clampEntryAt ((first + i) % 2 ^ 32)) 16)

/-- SP_CLAMP_READ (R91, R92); CLAMP_CONS does not move. A byte that R91 does not name and is not zero is a field out of range (DEDUCED, log 58). -/
def execSpClampRead (frame : List Byte) (bell : Nat) (s : State) : Host.Outcome State Fault Refusal :=
  .next (s.spCommand 3 frame bell (fun tag payload t =>
    let count := leAt payload 4 1
    if payload.length ≠ 8 ∨ count = 0 ∨ 32 < count ∨ leAt payload 5 3 ≠ 0 then t.onDev (fun d => d.spInvalid 3 tag)
    else t.onDev (fun d => d.spAnswer 3 tag stOk (t.clampRead (leAt payload 0 4) count))))

/-- The loop a keeper command names, if it is enabled. -/
def Dev.spLoop (d : Dev) (l : Nat) : Option LoopCfg := if l < 32 then KMap.find d.keeper.table.loops l else none

/-- SP_KEEPER_GET (R91). A byte that R91 does not name and is not zero is a field out of range (DEDUCED, log 58). -/
def execSpKeeperGet (frame : List Byte) (bell : Nat) (s : State) : Host.Outcome State Fault Refusal :=
  .next (s.spCommand 4 frame bell (fun tag payload t => t.onDev (fun d =>
    let l := leAt payload 0 1
    match (if payload.length = 4 ∧ leAt payload 1 3 = 0 then d.spLoop l else none) with
    | none => d.spInvalid 4 tag
    | some c =>
      d.spAnswer 4 tag stOk
        (leBytes 1 l ++ leBytes 1 (1 + cond (nbit c.flags 2) 2 0 + cond (d.loopStale c) 4 0) ++ zeros 2 ++
          leBytes 4 (d.n (Off.KPR_LOOP_SP l)) ++ leBytes 4 c.spMin.toNat ++ leBytes 4 c.spMax.toNat ++
          leBytes 4 (d.loopOut l c).toNat ++ zeros 4))))

/-- SP_KEEPER_SET (R91, R93): clamped, reported with SOURCE 2, in force from the next Over edge. DESIGN CHOICE (log 58): the report names
KPR_LOOP_SP of the loop, LSB 0, WIDTH 32; a byte that R91 does not name and is not zero is a field out of range (DEDUCED). -/
def execSpKeeperSet (frame : List Byte) (bell : Nat) (s : State) : Host.Outcome State Fault Refusal :=
  .next (s.spCommand 5 frame bell (fun tag payload t =>
    let l := leAt payload 0 1
    let v := f32At payload 4
    match (if payload.length = 8 ∧ leAt payload 1 3 = 0 ∧ f32IsNan v = false then t.dev.spLoop l else none) with
    | none => t.onDev (fun d => d.spInvalid 5 tag)
    | some c =>
      if !nbit c.flags 2 then t.onDev (fun d => d.spAnswer 5 tag stDenied [])
      else
        let a := f32Clamp c.spMin c.spMax v
        ((t.onDev (fun d => d.onSp (fun p => { p with setpoints := KMap.put p.setpoints l a }))).when (a != v) (fun u =>
          u.clampPush 2 { off := Off.KPR_LOOP_SP l, lsb := 0, width := 32, rejected := false, reserved := false,
                          written := v.toNat, applied := a.toNat })).onDev
          (fun d => d.spAnswer 5 tag stOk (leBytes 1 l ++ zeros 3 ++ leBytes 4 a.toNat))))

/-- A flash command is permitted: BOOT_MODE is provisioning (R94). -/
def Dev.flashOpen (d : Dev) : Bool := d.bootMode == 1

/-- Before flash changes in S0: the Keeper table's region is kept as it was, since a provisioned one is checked at the next start only (R94). -/
def State.keepTable (s : State) : State :=
  if s.dev.stage = 0 ∧ s.dev.start.tableKept = none then s.onDev (fun d => d.onStart (fun x => { x with tableKept := some s.tableBytes })) else s

/-- SP_FLASH_ERASE (R91, R94): busy until SP_FLASH_ERASE_DONE. DESIGN CHOICE (log 58), here and below: a malformed request is answered
INVALID_DESCRIPTOR whatever its permission. -/
def execSpFlashErase (frame : List Byte) (bell : Nat) (s : State) : Host.Outcome State Fault Refusal :=
  .next (s.spCommand 0x10 frame bell (fun tag payload t =>
    let off := leAt payload 0 4
    let n := leAt payload 4 4
    if payload.length ≠ 8 ∨ off % 65536 ≠ 0 ∨ n = 0 ∨ 512 < n ∨ flashRange off (n * 65536) = false then t.onDev (fun d => d.spInvalid 0x10 tag)
    else if !t.dev.flashOpen then t.onDev (fun d => d.spAnswer 0x10 tag stDenied [])
    else (t.keepTable.flashErase off (n * 65536)).onDev (fun d => d.onSp (fun p => { p with state := 1, erasing := some (0x10, tag) }))))

/-- SP_FLASH_ERASE_DONE (R91): the response is written and the busy state ends. -/
def execSpFlashEraseDone (s : State) : Host.Outcome State Fault Refusal :=
  .next (s.onDev (fun d =>
    match d.sp.erasing with
    | none => d
    | some (op, tag) => (d.onSp (fun p => { p with erasing := none })).spAnswer op tag stOk []))

/-- SP_FLASH_WRITE (R91, R94). -/
def execSpFlashWrite (frame : List Byte) (bell : Nat) (s : State) : Host.Outcome State Fault Refusal :=
  .next (s.spCommand 0x11 frame bell (fun tag payload t =>
    let off := leAt payload 0 4
    let n := leAt payload 4 4
    if payload.length ≠ 8 + n ∨ n = 0 ∨ 4064 < n ∨ flashRange off n = false then t.onDev (fun d => d.spInvalid 0x11 tag)
    else if !t.dev.flashOpen then t.onDev (fun d => d.spAnswer 0x11 tag stDenied [])
    else (t.keepTable.flashProgram off (payload.drop 8)).onDev (fun d => d.spAnswer 0x11 tag stOk [])))

/-- The range touches the wrapped-key region (R61, R94). -/
def wrappedKeys (off n : Nat) : Bool := decide (off < 0x900000) && decide (0x800000 < off + n)

/-- SP_FLASH_READ (R91, R94). -/
def execSpFlashRead (frame : List Byte) (bell : Nat) (s : State) : Host.Outcome State Fault Refusal :=
  .next (s.spCommand 0x12 frame bell (fun tag payload t =>
    let off := leAt payload 0 4
    let n := leAt payload 4 4
    if payload.length ≠ 8 ∨ n = 0 ∨ 4064 < n ∨ flashRange off n = false then t.onDev (fun d => d.spInvalid 0x12 tag)
    else if !t.dev.flashOpen || wrappedKeys off n then t.onDev (fun d => d.spAnswer 0x12 tag stDenied [])
    else t.onDev (fun d => d.spAnswer 0x12 tag stOk (t.flashBytes off n))))

/-- SP_FLASH_VERIFY (R91, R94): the computed CRC-32C, with CHECK_FAIL on a mismatch. -/
def execSpFlashVerify (frame : List Byte) (bell : Nat) (s : State) : Host.Outcome State Fault Refusal :=
  .next (s.spCommand 0x13 frame bell (fun tag payload t =>
    let off := leAt payload 0 4
    let n := leAt payload 4 4
    if payload.length ≠ 12 ∨ n = 0 ∨ 32 * 2 ^ 20 < n ∨ flashRange off n = false then t.onDev (fun d => d.spInvalid 0x13 tag)
    else if !t.dev.flashOpen then t.onDev (fun d => d.spAnswer 0x13 tag stDenied [])
    else
      let c := crcOf 0 (t.flashBytes off n)
      t.onDev (fun d => d.spAnswer 0x13 tag (if c = leAt payload 8 4 then stOk else stCheckFail) (leBytes 4 c))))

end Sys2Proof.Machine
end

