-- ==== Sys2Proof/Machine/StartRecord.lean ====
section
/-! DEFINITION. Machine/StartRecord.lean: the configuration record, the end of HBM training and the release of the loader (R59, R68 to R71, R83, R85, R439, R440, R501, R551). -/

namespace Sys2Proof.Machine

/-! ### The configuration record (R68 to R71) -/

/-- Where the record lies in flash (R61). -/
def recordAt : Nat := 0x200000

/-- No record: the region's first word holds no MAGIC because it is erased. -/
def recordAbsent (h : List Byte) : Bool := (h.take 4).all (fun b => b == 0xFF)

/-- The header's fields are within R68. -/
def recordFormat (h : List Byte) : Bool :=
  decide (leAt h 0 4 = 0x4746434C ∧ leAt h 4 2 = 1 ∧ leAt h 6 2 < 16 ∧ leAt h 8 4 ≤ 16384 ∧ 1 ≤ leAt h 0x1C 2 ∧ leAt h 0x1C 2 ≤ 4094) &&
    (slice h 0x30 16).all (fun b => b == 0)

/-- The record is for this part: (LS_IDENT and IDENT_MASK) = (IDENT_MATCH and IDENT_MASK) (R71). -/
def Dev.recordIdent (d : Dev) (h : List Byte) : Bool :=
  BitVec.ofNat 32 d.lsIdent &&& BitVec.ofNat 32 (leAt h 0x14 4) == BitVec.ofNat 32 (leAt h 0x10 4) &&& BitVec.ofNat 32 (leAt h 0x14 4)

/-- An access of a record entry that R70 admits: every byte on a register that is neither RO nor WO, of a legal size and place. -/
def Dev.recEntryOk (d : Dev) (off size : Nat) : Bool :=
  d.setupThere off && setupForm off size && decide (((regParts off size 0).map (fun p => if p.mask = maskOf 63 0 then 8 else 4)).sum = size) &&
    (regParts off size 0).all (fun p => decide (p.reg.acc ≠ .ro ∧ p.reg.acc ≠ .wo))

/-- The block that an offset names, when it names one. -/
def blockNamed (off : Nat) : Option Nat :=
  if blocks.any (fun b => decide (b.base ≤ off) && decide (off < b.base + b.n * b.stride)) then some (blockLo off) else none

/-- The record's entries being written: the machine, the block written last, and the entries applied (R69). -/
structure RecordRun where
  s : State
  block : Option Nat
  count : Nat

/-- The block written last is applied. -/
def RecordRun.leave (x : RecordRun) : RecordRun :=
  match x.block with
  | none => x
  | some lo => { x with s := x.s.applyAt .mgmtRom 1 lo, block := none }

/-- One entry is written, or rejected and reported; the previous block is applied when it names another (R69, R70). -/
def RecordRun.entry (x : RecordRun) (e : List Byte) : RecordRun :=
  let off := leAt e 0 4
  let size := leAt e 4 1
  let value := if size = 8 then leAt e 8 8 else leAt e 8 4
  let y := match blockNamed off with
    | none => x
    | some lo => if x.block = some lo then x else { x.leave with block := some lo }
  if y.s.dev.recEntryOk off size then
    { y with s := y.s.forAll (regParts off size value) (fun p t => t.plainWrite .mgmtRom p), count := y.count + 1 }
  else
    { y with s := y.s.clampPush 1 { off := off, lsb := 0, width := 32, rejected := true, reserved := false, written := leAt e 8 4, applied := 0 } }

/-- A record that is not applied: the failure, KEEPER_ONLY and the fetch's defaults (R71). -/
def Dev.recordFails (d : Dev) (bit state : Nat) : Dev :=
  ((d.startFail bit).keeperOnly.setF Off.CFG_REC_STATUS 1 0 state).onStart (fun x =>
    { x with recordRead := true, vlan := 4001, port := 47410, server := [], minFw := 0, phyMaster := false })

/-- FLAGS and the fetch's fields of an applied record (R60, R68, R71, R439, R440). -/
def Dev.takeHeader (d : Dev) (h : List Byte) : Dev :=
  let flags := leAt h 6 2
  let dflt := d.b Off.START_STRAPS 2
  let server := slice h 0x20 16
  let e := (d.wn Off.CFG_REC_SEQ (leAt h 0x0C 4)).onStart (fun x =>
    { x with recordRead := true, flags := flags, minFw := leAt h 0x18 4
             vlan := if dflt then 4001 else leAt h 0x1C 2
             port := if leAt h 0x1E 2 = 0 then 47410 else leAt h 0x1E 2
             server := if dflt || server.all (fun b => b == 0) then [] else server
             phyMaster := nbit flags 3 })
  let f := e.when (nbit flags 0) (fun y =>
    (y.setB Off.ISL_STATUS 0 true).forEach 2 (fun p z => z.onPair p (fun q => { q with xChecker := [], retiredChecker := 0 })))
  (f.when (nbit flags 1) Dev.keeperOnly).setB Off.ISL_STATUS 5 (d.b Off.START_STRAPS 3 && nbit flags 2)

/-- The record in flash is read, verified and applied (R68 to R71). -/
def State.applyRecord (s : State) (sigs : Bool) : State :=
  let h := s.flashBytes recordAt 64
  if recordAbsent h then s.onDev (fun d => d.recordFails 2 0)
  else if !recordFormat h then s.onDev (fun d => d.recordFails 4 3)
  else if !sigs then s.onDev (fun d => d.recordFails 3 2)
  else if !s.dev.recordIdent h then s.onDev (fun d => d.recordFails 4 3)
  else
    let t := s.onDev (fun d => d.takeHeader h)
    let es := (List.range (leAt h 8 4)).map (fun i => s.flashBytes (recordAt + 64 + 16 * i) 16)
    let x := (es.foldl RecordRun.entry { s := t, block := none, count := 0 }).leave
    x.s.onDev (fun d => d.wn Off.CFG_REC_STATUS (1 + x.count * 2 ^ 16))

/-- CONFIG_RECORD_APPLY (R68 to R71). -/
def execConfigRecordApply (rsaOk mldsaOk : Bool) (s : State) : Host.Outcome State Fault Refusal :=
  .next (if s.dev.stage = 2 ∧ s.dev.start.recordRead = false then s.applyRecord (rsaOk && mldsaOk) else s)

/-! ### HBM training (R83, R501) -/

/-- Populated sites that failed, as bits. -/
def Dev.failedSites (d : Dev) (failed : Nat) : List Nat := d.sites.filter (fun k => nbit failed k)

/-- Every populated site is trained: S4 begins, and loads of the gateway's tables that waited run. -/
def Dev.trained (d : Dev) : Dev :=
  (((d.forAll d.sites (fun k e => e.setB (Off.UMP_STATUS k) 0 true)).onStart (fun x => { x with hbmUp := true })).setStage 4).when (!d.gw.load.isEmpty) (fun e =>
    e.setB Off.GW_STATUS 1 true)

/-- HBM_TRAINING_DONE (R83): new results are stored; a failed site stops the start at S3 for good. -/
def execHbmTrainingDone (failed : Nat) (results : List (Nat × List Byte)) (s : State) : Host.Outcome State Fault Refusal :=
  .next (if s.dev.stage = 3 ∧ s.dev.start.voxsar = true ∧ s.dev.start.hbmUp = false ∧ s.dev.b Off.START_FAIL 8 = false then
    let bad := s.dev.failedSites failed
    let t := s.forAll (results.filter (fun x => !bad.contains x.1)) (fun x u => u.storeTraining x)
    if bad.isEmpty then t.onDev Dev.trained
    else t.onDev (fun d => ((d.startFail 8).forAll bad (fun k e => e.startFail (16 + k))).keeperOnly)
  else s)

/-! ### The loader (R85, R550, R551) -/

/-- Core 0 starts in the secure world, in machine mode at the loader's entry, with a0 at the firmware identity record (R551). -/
def Dev.startCore0 (d : Dev) (entry : Nat) : Dev :=
  (d.onCore 0 (fun c => { c.setX 10 0xF0C00800 with secure := true, priv := 3, pc := BitVec.ofNat 64 entry })).onStart (fun x => { x with loader := true })

/-- Voxsar enables the watchdog (R550). -/
def Dev.startWatchdog (d : Dev) : Dev :=
  ((d.setF Off.WDG_CTRL 29 16 2000).setB Off.WDG_CTRL 0 true |>.wn Off.WDG_WARN_US 10000).wdgServiced

/-- LOADER_RELEASE (R85, R550, R551): the loader is copied to hub SRAM and core 0 released, or the failure keeps the Keeper in place. -/
def execLoaderRelease (sigOk : Bool) (image : List Byte) (entry : Nat) (s : State) : Host.Outcome State Fault Refusal :=
  .next (if s.dev.stage = 4 ∧ s.dev.start.loader = false then
    if sigOk then (s.put 0x1000000 (image.take 0x200000)).onDev (fun d => (d.startCore0 entry).startWatchdog)
    else s.onDev (fun d => (d.startFail 9).keeperOnly)
  else s)

end Sys2Proof.Machine
end

