-- ==== Sys2Proof/Machine/Dispatch.lean ====
section
/-! DEFINITION. Machine/Dispatch.lean: one arm per constructor of Instr, each a direct call of the command's meaning. -/

namespace Sys2Proof.Machine

/-- The effect of one command on everything but the queue of waiting commands. -/
def exec (i : Instr) (s : State) : Host.Outcome State Fault Refusal :=
  match i with
  | .powerGood straps modId modCnt islandOk => Sys2Proof.Machine.execPowerGood straps modId modCnt islandOk s
  | .keeperTableLoad rsaOk mldsaOk => Sys2Proof.Machine.execKeeperTableLoad rsaOk mldsaOk s
  | .warmupComplete failStep w => Sys2Proof.Machine.execWarmupComplete failStep w s
  | .configRecordApply rsaOk mldsaOk => Sys2Proof.Machine.execConfigRecordApply rsaOk mldsaOk s
  | .mgmtLinkUp => Sys2Proof.Machine.execMgmtLinkUp s
  | .fetchOffer m imageLen version blockSize => Sys2Proof.Machine.execFetchOffer m imageLen version blockSize s
  | .fetchData h bytes rsaOk mldsaOk lengthOk opp => Sys2Proof.Machine.execFetchData h bytes rsaOk mldsaOk lengthOk opp s
  | .fetchError m reason => Sys2Proof.Machine.execFetchError m reason s
  | .solicitRetry => Sys2Proof.Machine.execSolicitRetry s
  | .bootDataTimeout block => Sys2Proof.Machine.execBootDataTimeout block s
  | .hbmTrainingDone failed results => Sys2Proof.Machine.execHbmTrainingDone failed results s
  | .loaderRelease sigOk image entry => Sys2Proof.Machine.execLoaderRelease sigOk image entry s
  | .startCtrlReady m value => Sys2Proof.Machine.execStartCtrlReady m value s
  | .pcieConfigRequest port => Sys2Proof.Machine.execPcieConfigRequest port s
  | .spIdent frame bell => Sys2Proof.Machine.execSpIdent frame bell s
  | .spStatus frame bell => Sys2Proof.Machine.execSpStatus frame bell s
  | .spClampRead frame bell => Sys2Proof.Machine.execSpClampRead frame bell s
  | .spKeeperGet frame bell => Sys2Proof.Machine.execSpKeeperGet frame bell s
  | .spKeeperSet frame bell => Sys2Proof.Machine.execSpKeeperSet frame bell s
  | .spFlashErase frame bell => Sys2Proof.Machine.execSpFlashErase frame bell s
  | .spFlashEraseDone => Sys2Proof.Machine.execSpFlashEraseDone s
  | .spFlashWrite frame bell => Sys2Proof.Machine.execSpFlashWrite frame bell s
  | .spFlashRead frame bell => Sys2Proof.Machine.execSpFlashRead frame bell s
  | .spFlashVerify frame bell => Sys2Proof.Machine.execSpFlashVerify frame bell s
  | .overEdge sbDelayPs r => Sys2Proof.Machine.execOverEdge sbDelayPs r s
  | .ballEdge => Sys2Proof.Machine.execBallEdge s
  | .edgeMissed => Sys2Proof.Machine.execEdgeMissed s
  | .holdoverExpired => Sys2Proof.Machine.execHoldoverExpired s
  | .freeRunWithoutReference => Sys2Proof.Machine.execFreeRunWithoutReference s
  | .referenceLost => Sys2Proof.Machine.execReferenceLost s
  | .slewDone => Sys2Proof.Machine.execSlewDone s
  | .sidebandAligned count err steps balls phase => Sys2Proof.Machine.execSidebandAligned count err steps balls phase s
  | .alignLost => Sys2Proof.Machine.execAlignLost s
  | .timeAdjRate m value => Sys2Proof.Machine.execTimeAdjRate m value s
  | .timeAdjOffset m value => Sys2Proof.Machine.execTimeAdjOffset m value s
  | .timeSet m ns => Sys2Proof.Machine.execTimeSet m ns s
  | .timeNowRead m => Sys2Proof.Machine.execTimeNowRead m s
  | .registerWrite m off size value => Sys2Proof.Machine.execRegisterWrite m off size value s
  | .glbCfgApply m value => Sys2Proof.Machine.execGlbCfgApply m value s
  | .cfgApply m value => Sys2Proof.Machine.execCfgApply m value s
  | .qeCfgApply m inst value => Sys2Proof.Machine.execQeCfgApply m inst value s
  | .tileCfgApply m t value => Sys2Proof.Machine.execTileCfgApply m t value s
  | .umpCfgApply m k value => Sys2Proof.Machine.execUmpCfgApply m k value s
  | .kvCfgApply m value => Sys2Proof.Machine.execKvCfgApply m value s
  | .kvInitDone => Sys2Proof.Machine.execKvInitDone s
  | .gfxCfgApply m page value => Sys2Proof.Machine.execGfxCfgApply m page value s
  | .gwCfgApply m page value => Sys2Proof.Machine.execGwCfgApply m page value s
  | .ibrCfgApply m value => Sys2Proof.Machine.execIbrCfgApply m value s
  | .islCfgApply m value => Sys2Proof.Machine.execIslCfgApply m value s
  | .ljCfgApply m value => Sys2Proof.Machine.execLjCfgApply m value s
  | .ljShadowChange => Sys2Proof.Machine.execLjShadowChange s
  | .kprCfgApply m value => Sys2Proof.Machine.execKprCfgApply m value s
  | .stestCfgApply m value => Sys2Proof.Machine.execStestCfgApply m value s
  | .wldCfgApply m value => Sys2Proof.Machine.execWldCfgApply m value s
  | .pwrCfgApply m value => Sys2Proof.Machine.execPwrCfgApply m value s
  | .mbxCfgApply m c value => Sys2Proof.Machine.execMbxCfgApply m c value s
  | .ivmCfgApply m value => Sys2Proof.Machine.execIvmCfgApply m value s
  | .doorbellWrite m db w => Sys2Proof.Machine.execDoorbellWrite m db w s
  | .commandPickup inst r => Sys2Proof.Machine.execCommandPickup inst r s
  | .qeCplConsWrite m inst c value => Sys2Proof.Machine.execQeCplConsWrite m inst c value s
  | .runPlan id ops => Sys2Proof.Machine.execRunPlan id ops s
  | .loadPlan id code ecc => Sys2Proof.Machine.execLoadPlan id code ecc s
  | .evictPlan id => Sys2Proof.Machine.execEvictPlan id s
  | .copy id ecc => Sys2Proof.Machine.execCopy id ecc s
  | .fill id => Sys2Proof.Machine.execFill id s
  | .check id ecc => Sys2Proof.Machine.execCheck id ecc s
  | .kvAlloc id => Sys2Proof.Machine.execKvAlloc id s
  | .kvFree id => Sys2Proof.Machine.execKvFree id s
  | .kvFork id => Sys2Proof.Machine.execKvFork id s
  | .drawList id ops => Sys2Proof.Machine.execDrawList id ops s
  | .fence id => Sys2Proof.Machine.execFence id s
  | .timestamp id => Sys2Proof.Machine.execTimestamp id s
  | .send id ecc => Sys2Proof.Machine.execSend id ecc s
  | .commandStart id => Sys2Proof.Machine.execCommandStart id s
  | .planLoadStart l => Sys2Proof.Machine.execPlanLoadStart l s
  | .planLoadDone l => Sys2Proof.Machine.execPlanLoadDone l s
  | .commitPoint id => Sys2Proof.Machine.execCommitPoint id s
  | .tileKill id => Sys2Proof.Machine.execTileKill id s
  | .runaheadDiscard addr => Sys2Proof.Machine.execRunaheadDiscard addr s
  | .budgetOverrunKill id => Sys2Proof.Machine.execBudgetOverrunKill id s
  | .safetyBudgetElapsed id => Sys2Proof.Machine.execSafetyBudgetElapsed id s
  | .teardownComplete inst => Sys2Proof.Machine.execTeardownComplete inst s
  | .schPartReset m p value => Sys2Proof.Machine.execSchPartReset m p value s
  | .partitionResetEnd p => Sys2Proof.Machine.execPartitionResetEnd p s
  | .instancePartitionChange inst => Sys2Proof.Machine.execInstancePartitionChange inst s
  | .freeze m inst => Sys2Proof.Machine.execFreeze m inst s
  | .freezeDone inst => Sys2Proof.Machine.execFreezeDone inst s
  | .save m inst => Sys2Proof.Machine.execSave m inst s
  | .saveDone inst => Sys2Proof.Machine.execSaveDone inst s
  | .restore m inst => Sys2Proof.Machine.execRestore m inst s
  | .restoreDone inst ecc codes => Sys2Proof.Machine.execRestoreDone inst ecc codes s
  | .thaw m inst => Sys2Proof.Machine.execThaw m inst s
  | .discard m inst => Sys2Proof.Machine.execDiscard m inst s
  | .kvRsvSeqChange r => Sys2Proof.Machine.execKvRsvSeqChange r s
  | .bankHandover t b => Sys2Proof.Machine.execBankHandover t b s
  | .scratchpadMainAccess m addr k bytes len ecc => Sys2Proof.Machine.execScratchpadMainAccess m addr k bytes len ecc s
  | .btestRegion t cycles failWord => Sys2Proof.Machine.execBtestRegion t cycles failWord s
  | .thermalDerate t temp => Sys2Proof.Machine.execThermalDerate t temp s
  | .derateRelease t temp => Sys2Proof.Machine.execDerateRelease t temp s
  | .routerLinkFail t link ids => Sys2Proof.Machine.execRouterLinkFail t link ids s
  | .umpireWindow k p traffic => Sys2Proof.Machine.execUmpireWindow k p traffic s
  | .hpRequest m dirty addr bursts => Sys2Proof.Machine.execHpRequest m dirty addr bursts s
  | .umpCntClear m k value => Sys2Proof.Machine.execUmpCntClear m k value s
  | .refresh2x k hot => Sys2Proof.Machine.execRefresh2x k hot s
  | .islandRead p addr len ns crossing ecc => Sys2Proof.Machine.execIslandRead p addr len ns crossing ecc s
  | .readTimeout p addr => Sys2Proof.Machine.execReadTimeout p addr s
  | .islandWrite p addr bytes drained ns => Sys2Proof.Machine.execIslandWrite p addr bytes drained ns s
  | .writeError => Sys2Proof.Machine.execWriteError s
  | .mainIslandAccess m addr k bytes len exclusive bus ecc => Sys2Proof.Machine.execMainIslandAccess m addr k bytes len exclusive bus ecc s
  | .mainTimeout m addr k bytes len bus => Sys2Proof.Machine.execMainTimeout m addr k bytes len bus s
  | .exclusiveLoad p addr len h => Sys2Proof.Machine.execExclusiveLoad p addr len h s
  | .exclusiveStore p addr bytes => Sys2Proof.Machine.execExclusiveStore p addr bytes s
  | .lockedReadWrite p addr bytes h => Sys2Proof.Machine.execLockedReadWrite p addr bytes h s
  | .atomicOperation p addr width op operand h => Sys2Proof.Machine.execAtomicOperation p addr width op operand h s
  | .semaphoreClear m addr bytes => Sys2Proof.Machine.execSemaphoreClear m addr bytes s
  | .lineJudgeCompare id => Sys2Proof.Machine.execLineJudgeCompare id s
  | .kprRelease m value => Sys2Proof.Machine.execKprRelease m value s
  | .lockstepMismatch p what retired => Sys2Proof.Machine.execLockstepMismatch p what retired s
  | .pairRestart p => Sys2Proof.Machine.execPairRestart p s
  | .keeperSelfMismatch => Sys2Proof.Machine.execKeeperSelfMismatch s
  | .keeperLoopStep l code => Sys2Proof.Machine.execKeeperLoopStep l code s
  | .keeperCanReceive ch id ext payload => Sys2Proof.Machine.execKeeperCanReceive ch id ext payload s
  | .inputStale j => Sys2Proof.Machine.execInputStale j s
  | .keeperFrameTx n => Sys2Proof.Machine.execKeeperFrameTx n s
  | .debugHalt p run => Sys2Proof.Machine.execDebugHalt p run s
  | .debugRegisterWrite p reg value => Sys2Proof.Machine.execDebugRegisterWrite p reg value s
  | .debugMemoryWrite p addr bytes => Sys2Proof.Machine.execDebugMemoryWrite p addr bytes s
  | .debugSingleStep p => Sys2Proof.Machine.execDebugSingleStep p s
  | .selftestPieceDone t ok => Sys2Proof.Machine.execSelftestPieceDone t ok s
  | .latent t logic scratch => Sys2Proof.Machine.execLatent t logic scratch s
  | .displayLatch p => Sys2Proof.Machine.execDisplayLatch p s
  | .displayFrameEnd p late => Sys2Proof.Machine.execDisplayFrameEnd p late s
  | .cameraFrameStart c prev => Sys2Proof.Machine.execCameraFrameStart c prev s
  | .cameraFrameEnd c e => Sys2Proof.Machine.execCameraFrameEnd c e s
  | .cameraFrameTimeout c e => Sys2Proof.Machine.execCameraFrameTimeout c e s
  | .decodeJob j => Sys2Proof.Machine.execDecodeJob j s
  | .encodeJob j => Sys2Proof.Machine.execEncodeJob j s
  | .codecJobDone v supported picture key concealed pts out ecc => Sys2Proof.Machine.execCodecJobDone v supported picture key concealed pts out ecc s
  | .frameReceive p frame fcsOk sec skew => Sys2Proof.Machine.execFrameReceive p frame fcsOk sec skew s
  | .frameTransmit p secured skew => Sys2Proof.Machine.execFrameTransmit p secured skew s
  | .gclEntry l => Sys2Proof.Machine.execGclEntry l s
  | .loadDone => Sys2Proof.Machine.execLoadDone s
  | .recoveryReset f => Sys2Proof.Machine.execRecoveryReset f s
  | .flowCounterWrite f => Sys2Proof.Machine.execFlowCounterWrite f s
  | .canFrameReceive ch id ext marks payload => Sys2Proof.Machine.execCanFrameReceive ch id ext marks payload s
  | .busOff ch => Sys2Proof.Machine.execBusOff ch s
  | .busOffRecovery ch => Sys2Proof.Machine.execBusOffRecovery ch s
  | .linSlot ch => Sys2Proof.Machine.execLinSlot ch s
  | .linResponse ch payload checksum => Sys2Proof.Machine.execLinResponse ch payload checksum s
  | .noResponse ch => Sys2Proof.Machine.execNoResponse ch s
  | .rxTimeout n => Sys2Proof.Machine.execRxTimeout n s
  | .pduDue n begun => Sys2Proof.Machine.execPduDue n begun s
  | .timeCapture n rising => Sys2Proof.Machine.execTimeCapture n rising s
  | .capPop m n value => Sys2Proof.Machine.execCapPop m n value s
  | .txtsPop m p value => Sys2Proof.Machine.execTxtsPop m p value s
  | .pulse o => Sys2Proof.Machine.execPulse o s
  | .gate n => Sys2Proof.Machine.execGate n s
  | .wgate n rd rs1 => Sys2Proof.Machine.execWgate n rd rs1 s
  | .wret n rs1 => Sys2Proof.Machine.execWret n rs1 s
  | .secureInterrupt n cause => Sys2Proof.Machine.execSecureInterrupt n cause s
  | .wsaveWrite n value => Sys2Proof.Machine.execWsaveWrite n value s
  | .dmaStart m c value => Sys2Proof.Machine.execDmaStart m c value s
  | .dmaAbort m c value done => Sys2Proof.Machine.execDmaAbort m c value done s
  | .dmaDone c done ecc => Sys2Proof.Machine.execDmaDone c done ecc s
  | .wdgService m value => Sys2Proof.Machine.execWdgService m value s
  | .preWarning => Sys2Proof.Machine.execPreWarning s
  | .watchdogExpiry => Sys2Proof.Machine.execWatchdogExpiry s
  | .watchdogRestart straps modId modCnt => Sys2Proof.Machine.execWatchdogRestart straps modId modCnt s
  | .voxHeartbeat m value => Sys2Proof.Machine.execVoxHeartbeat m value s
  | .mbxSubmit m c value => Sys2Proof.Machine.execMbxSubmit m c value s
  | .mbxResponse c k => Sys2Proof.Machine.execMbxResponse c k s
  | .mbxTimeout c k => Sys2Proof.Machine.execMbxTimeout c k s
  | .pwrGet c k temps => Sys2Proof.Machine.execPwrGet c k temps s
  | .pwrSetCap c k => Sys2Proof.Machine.execPwrSetCap c k s
  | .thermSetTarget c k => Sys2Proof.Machine.execThermSetTarget c k s
  | .domSet c k halted => Sys2Proof.Machine.execDomSet c k halted s
  | .domGet c k => Sys2Proof.Machine.execDomGet c k s
  | .oppStore c k points => Sys2Proof.Machine.execOppStore c k points s
  | .attest c k report => Sys2Proof.Machine.execAttest c k report s
  | .domainOn m dom tag => Sys2Proof.Machine.execDomainOn m dom tag s
  | .domainGate m dom tag halted => Sys2Proof.Machine.execDomainGate m dom tag halted s
  | .domainOff m dom tag halted => Sys2Proof.Machine.execDomainOff m dom tag halted s
  | .domainWakeDone dom => Sys2Proof.Machine.execDomainWakeDone dom s
  | .oppStoreTimer points => Sys2Proof.Machine.execOppStoreTimer points s
  | .supplyLimitFall mv => Sys2Proof.Machine.execSupplyLimitFall mv s
  | .supplyLimitRise mv => Sys2Proof.Machine.execSupplyLimitRise mv s
  | .powerLimitExceeded mw => Sys2Proof.Machine.execPowerLimitExceeded mw s
  | .thermalCrit r => Sys2Proof.Machine.execThermalCrit r s
  | .thermalTrip temp => Sys2Proof.Machine.execThermalTrip temp s
  | .portUp p peer peerPort peerHalf lanes known => Sys2Proof.Machine.execPortUp p peer peerPort peerHalf lanes known s
  | .flitRetry f => Sys2Proof.Machine.execFlitRetry f s
  | .portDown p ids => Sys2Proof.Machine.execPortDown p ids s
  | .moduleStart => Sys2Proof.Machine.execModuleStart s
  | .moduleTurnOff overcurrent => Sys2Proof.Machine.execModuleTurnOff overcurrent s
  | .overcurrentHoldoff => Sys2Proof.Machine.execOvercurrentHoldoff s
  | .tapReset => Sys2Proof.Machine.execTapReset s
  | .idcode => Sys2Proof.Machine.execIdcode s
  | .samplePreload pins cells => Sys2Proof.Machine.execSamplePreload pins cells s
  | .extest pins cells => Sys2Proof.Machine.execExtest pins cells s
  | .highz => Sys2Proof.Machine.execHighz s
  | .clamp => Sys2Proof.Machine.execClamp s
  | .extestPulse => Sys2Proof.Machine.execExtestPulse s
  | .extestTrain => Sys2Proof.Machine.execExtestTrain s
  | .debug => Sys2Proof.Machine.execDebug s
  | .bypass => Sys2Proof.Machine.execBypass s
  | .controlTransfer n target priv => Sys2Proof.Machine.execControlTransfer n target priv s
  | .mainFabricAccess m addr k bytes len ecc => Sys2Proof.Machine.execMainFabricAccess m addr k bytes len ecc s
  | .linkDown p => Sys2Proof.Machine.execLinkDown p s
  | .linkUp p => Sys2Proof.Machine.execLinkUp p s
  | .displayLinkDown p => Sys2Proof.Machine.execDisplayLinkDown p s
  | .displayLinkTrained p => Sys2Proof.Machine.execDisplayLinkTrained p s
  | .cameraLinkDown c => Sys2Proof.Machine.execCameraLinkDown c s
  | .cameraLinkUp c => Sys2Proof.Machine.execCameraLinkUp c s

end Sys2Proof.Machine
end

