-- ==== Sys2Proof/Safety.lean ====
section
/-! DEFINITION. Safety.lean: what a safe run keeps, and what it is for a command to complete, in the terms the claims use. -/

namespace Sys2Proof.Machine

/-- Main memory and flash are in their canonical form: addresses strictly rising, no entry equal to what an unlisted address reads as. -/
def State.MemOk (s : State) : Prop := Memory.wf memDefault s.mem = true ∧ Memory.wf flashDefault s.flash = true

/-- The queue of waiting commands is `q`, and where `r` holds the memories are canonical. -/
def State.Good (q : List Instr) (r : Prop) (s : State) : Prop := s.pending = q ∧ (r → s.MemOk)

/-- The outcome is a next state of which `p` holds. -/
def Completes (o : Host.Outcome State Fault Refusal) (p : State → Prop) : Prop := ∃ t, o = .next t ∧ p t

/-- The outcome, where it is a next state, satisfies `p`. -/
def Keeps (o : Host.Outcome State Fault Refusal) (p : State → Prop) : Prop := ∀ t, o = .next t → p t

/-- Every register but those of a list holds what it held. -/
def RegsSameBut (s t : State) (offs : List Nat) : Prop := ∀ o, o ∉ offs → t.dev.r o = s.dev.r o

/-- Every byte of main memory outside `n` bytes from `a` reads as it did. -/
def BytesSameBut (s t : State) (a n : Nat) : Prop := ∀ x, x < a ∨ a + n ≤ x → cellGet t.mem memDefault x = cellGet s.mem memDefault x

/-- No fault and no refusal in `n` steps. -/
def SafeRun : Nat → State → Prop
  | 0, _ => True
  | n + 1, s => ∃ t, step s = .next t ∧ SafeRun n t

end Sys2Proof.Machine
end

