-- ==== Sys2Proof/Certificates/Slice0/Obligations.lean ====
section
/-! DEFINITION. Certificates/Slice0/Obligations.lean: the statements for the provers, each citing the rules of the spec it rests on. -/

open Sys2Proof Sys2Proof.Machine

/-- POWER_GOOD: S0 begins with every register at its reset value but the latched straps and module pins, nothing in flight (R51, R53, R60, R66). -/
def Obligations.PowerGoodStartsS0 : Prop :=
  ∀ (s : State) (straps modId modCnt : Nat) (islandOk : Bool), ∃ t, exec (.powerGood straps modId modCnt islandOk) s = .next t ∧
    t.dev.stage = 0 ∧ t.dev.srcState = 0 ∧ t.dev.n Off.START_STRAPS = straps % 16 ∧
    (∀ o, o ∉ [Off.START_STRAPS, Off.GLB_MODULE, Off.START_FAIL, Off.START_STAGE] → t.dev.r o = resetOf o) ∧
    t.dev.cmds = [] ∧ t.dev.insts = [] ∧ t.dev.plans = [] ∧ t.dev.tiles = [] ∧ t.dev.banks = [] ∧ t.dev.kv.recs = [] ∧ t.dev.staged = [] ∧
    t.dev.hbmStacks = s.dev.hbmStacks ∧ t.dev.ioDies = s.dev.ioDies ∧ t.dev.stepping = s.dev.stepping ∧ t.flash = s.flash ∧ t.pending = s.pending ∧
    t.dev.b Off.START_STAGE 3 = decide (2 ≤ straps % 4) ∧ t.dev.b Off.START_FAIL 10 = (straps % 4 == 3) ∧
    t.dev.start.powered = true ∧ t.dev.start.halted = !islandOk

/-- KEEPER_TABLE_LOAD ends S0 and WARMUP_COMPLETE ends S1, each with the failure bits the rules name (R51, R52, R53, R60, R64, R67). -/
def Obligations.KeeperTableAndWarmup : Prop :=
  (∀ (s : State) (rsaOk mldsaOk : Bool), s.dev.start.powered = true → s.dev.start.halted = false → s.dev.stage = 0 →
    ∃ t, exec (.keeperTableLoad rsaOk mldsaOk) s = .next t ∧ t = { s with dev := t.dev } ∧ t.dev.stage = 1 ∧ t.dev.n Off.WUP_STATUS = 2 ^ 8 ∧ t.dev.start.modFault = false ∧
      (match s.flashTable rsaOk mldsaOk with
       | some k => t.dev.keeper.table = k ∧ t.dev.b Off.START_FAIL 0 = s.dev.b Off.START_FAIL 0
       | none => t.dev.keeper.table = Dev.reset.keeper.table ∧ t.dev.b Off.START_FAIL 0 = true)) ∧
  (∀ (s : State) (failStep micros : Nat) (untrained : List (Nat × Nat)), s.dev.start.powered = true → s.dev.start.halted = false → s.dev.stage = 1 →
    s.dev.start.released = false → s.dev.warmupRuns failStep = true →
    ∃ t, exec (.warmupComplete failStep ⟨micros, untrained⟩) s = .next t ∧ t = { s with dev := t.dev } ∧ t.dev.start.released = true ∧ t.dev.start.monitor = true ∧
      t.dev.stage = (if s.dev.f Off.START_STRAPS 1 0 = 1 then 1 else 2) ∧
      (∀ k, k < 64 → t.dev.f (Off.TILE_STATUS k) 2 0 = 1) ∧ (untrained = [] → ∀ k, k < 64 → t.dev.n (Off.TILE_ROUTER_STATUS k) = routerLinks k) ∧
      (if failStep = 0 then t.dev.b Off.START_FAIL 1 = s.dev.b Off.START_FAIL 1 ∧ t.dev.b Off.START_STAGE 3 = s.dev.b Off.START_STAGE 3
       else t.dev.b Off.START_FAIL 1 = true ∧ t.dev.b Off.START_STAGE 3 = true))

/-- CONFIG_RECORD_APPLY: an absent, unsigned or ill-formed record is not applied and sets KEEPER_ONLY; a good one sets CFG_REC_STATUS (R58, R59, R71). -/
def Obligations.ConfigRecordAppliedOrRefused : Prop :=
  ∀ (s : State) (rsaOk mldsaOk : Bool), s.dev.stage = 2 → s.dev.start.recordRead = false →
    ∃ t, exec (.configRecordApply rsaOk mldsaOk) s = .next t ∧ t.flash = s.flash ∧ t.pending = s.pending ∧
      (let h := s.flashBytes recordAt 64
       let fails := fun (bit state : Nat) =>
         t.dev.b Off.START_FAIL bit = true ∧ t.dev.b Off.START_STAGE 3 = true ∧ t.dev.f Off.CFG_REC_STATUS 1 0 = state ∧ t.mem = s.mem ∧
         t.dev.start.vlan = 4001 ∧ t.dev.start.port = 47410 ∧ t.dev.start.server = [] ∧ t.dev.start.minFw = 0 ∧
         RegsSameBut s t [Off.START_FAIL, Off.START_STAGE, Off.CFG_REC_STATUS]
       if recordAbsent h then fails 2 0
       else if recordFormat h = false then fails 4 3
       else if (rsaOk && mldsaOk) = false then fails 3 2
       else if s.dev.recordIdent h = false then fails 4 3
       else t.dev.f Off.CFG_REC_STATUS 1 0 = 1)

/-- The boot fetch: SOLICIT, OFFER, lost blocks and server errors; DATA fills the image region and the last block starts Voxsar or not (R58, R63, R72, R73, R74, R75, R76) Which reason a repeated SOLICIT carries and what the module's own ERROR holds are the model's choice (log 57). -/
def Obligations.BootFetch : Prop :=
  let msg := fun (s : State) (dst : List Byte) (type session block : Nat) (p : List Byte) (st : Nat) =>
    Emit.udp s.dev.start.vlan 6 linkLocal dst 47411 s.dev.start.port (fetchFrame type session block p st)
  (∀ (s : State), s.dev.runs = true → s.dev.stage = 2 → s.dev.start.recordRead = true → s.dev.start.voxsar = false → s.dev.start.fetch.active = false →
    s.dev.start.fetch.failed = false →
    ∃ t, exec .mgmtLinkUp s = .next t ∧ t = { s with dev := { s.dev with start := t.dev.start, out := t.dev.out } } ∧ t.dev.start.fetch.active = true ∧
      t.dev.start.fetch.offer = none ∧ t.dev.out = msg s s.dev.fetchServer 1 0 0 s.dev.solicitPayload 0 :: s.dev.out) ∧
  (∀ (s : State) (src : List Byte) (h : FetchHdr) (payload len version size : Nat), s.dev.runs = true → s.dev.stage = 2 → s.dev.start.fetch.active = true →
    s.dev.start.fetch.offer = none → fetchHdrOk h payload = true → h.block = 0 →
    ∃ t, exec (.fetchOffer ⟨src, h, payload⟩ len version size) s = .next t ∧
      (if 12 * 2 ^ 20 < len ∨ size < 512 ∨ 1408 < size then
        t = { s with dev := { s.dev with start := t.dev.start, out := t.dev.out } } ∧ t.dev.out = msg s src 6 h.session 0 [] 0 :: s.dev.out ∧
        t.dev.start.fetch.reason = 4 ∧ t.dev.start.fetch.offer = none ∧ t.dev.start.fetch.failed = true ∧ t.dev.start.fetch.waitMs = 1000
       else if len = 0 then
        t = { s with dev := { s.dev with regs := t.dev.regs, start := t.dev.start } } ∧ RegsSameBut s t [Off.START_FAIL] ∧ t.dev.b Off.START_FAIL 6 = true ∧
        t.dev.start.fetch.reason = 4 ∧ t.dev.start.fetch.offer = none ∧ t.dev.start.fetch.failed = true
       else
        t = { s with dev := { s.dev with start := t.dev.start, out := t.dev.out } } ∧ t.dev.start.fetch.offer = some (h.session, len, version, size) ∧
        t.dev.start.fetch.peer = src ∧
        ∀ n, n = min 16 (blockCount len size) → t.dev.out = msg s src 3 h.session ((n - 1) * 2 ^ 28) [] 0 :: s.dev.out ∧
          t.dev.start.fetch.outstanding = s.dev.start.fetch.outstanding ++ (List.range n).map (fun i => 0 + i))) ∧
  (∀ (s : State) (src : List Byte) (h : FetchHdr) (payload reason : Nat), s.dev.runs = true → s.dev.stage = 2 → fetchHdrOk h payload = true → h.block = 0 →
    s.dev.start.fetch.ofSession h.session = true →
    ∃ t, exec (.fetchError ⟨src, h, payload⟩ reason) s = .next t ∧ t = { s with dev := { s.dev with regs := t.dev.regs, start := t.dev.start, out := t.dev.out } } ∧
      RegsSameBut s t [Off.START_FAIL] ∧ t.dev.b Off.START_FAIL 5 = true ∧ t.dev.start.fetch.offer = none ∧
      t.dev.out = msg s s.dev.fetchServer 1 0 0 s.dev.solicitPayload 0 :: s.dev.out) ∧
  (∀ (s : State), s.dev.runs = true → s.dev.stage = 2 → s.dev.start.fetch.failed = true ∨ (s.dev.start.fetch.active = true ∧ s.dev.start.fetch.offer = none) →
    (s.dev.now < s.dev.start.fetch.since + s.dev.start.fetch.waitMs * 1000000 → exec .solicitRetry s = .next s) ∧
    (s.dev.start.fetch.since + s.dev.start.fetch.waitMs * 1000000 ≤ s.dev.now →
      ∃ t, exec .solicitRetry s = .next t ∧ t = { s with dev := { s.dev with regs := t.dev.regs, start := t.dev.start, out := t.dev.out } } ∧
        RegsSameBut s t [Off.START_FAIL] ∧ t.dev.b Off.START_FAIL 5 = true ∧
        t.dev.start.fetch.waitMs = (if s.dev.start.fetch.failed = true then 100 else min 2000 (s.dev.start.fetch.waitMs * 2)) ∧
        t.dev.out = msg s s.dev.fetchServer 1 0 0 s.dev.solicitPayload s.dev.start.fetch.reason :: s.dev.out)) ∧
  (∀ (s : State) (block session len version size : Nat), s.dev.runs = true → s.dev.stage = 2 → s.dev.start.fetch.offer = some (session, len, version, size) →
    block ∈ s.dev.start.fetch.outstanding → KMap.getD s.dev.start.fetch.asked block 0 + 20000000 ≤ s.dev.now →
    ∃ t, exec (.bootDataTimeout block) s = .next t ∧ t = { s with dev := { s.dev with regs := t.dev.regs, start := t.dev.start, out := t.dev.out } } ∧
      RegsSameBut s t [Off.START_FAIL] ∧
      (if KMap.getD s.dev.start.fetch.retries block 0 < 5 then
        t.dev.out = msg s s.dev.start.fetch.peer 3 session block [] 0 :: s.dev.out ∧
        KMap.getD t.dev.start.fetch.retries block 0 = KMap.getD s.dev.start.fetch.retries block 0 + 1 ∧ KMap.getD t.dev.start.fetch.asked block 0 = s.dev.now
       else t.dev.b Off.START_FAIL 5 = true ∧ t.dev.start.fetch.offer = none ∧
        t.dev.out = msg s s.dev.fetchServer 1 0 0 s.dev.solicitPayload 1 :: s.dev.out)) ∧
  (∀ (s : State) (h : FetchHdr) (len version size : Nat) (bytes : List Byte) (rsaOk mldsaOk lengthOk : Bool) (opp : Option Points), s.dev.runs = true →
    s.dev.stage = 2 → s.dev.start.fetch.offer = some (h.session, len, version, size) → fetchHdrOk h bytes.length = true → h.block ∈ s.dev.start.fetch.outstanding →
    bytes.length = blockLen len size h.block → h.block * size + bytes.length ≤ 12 * 2 ^ 20 →
    ∃ t, exec (.fetchData h bytes rsaOk mldsaOk lengthOk opp) s = .next t ∧ t.flash = s.flash ∧ t.pending = s.pending ∧
      BytesSameBut s t (0x1200000 + h.block * size) bytes.length ∧
      (∀ k (hk : k < bytes.length), cellGet t.mem memDefault (0x1200000 + h.block * size + k) = bytes[k]) ∧
      (if s.dev.start.fetch.received.length + 1 = blockCount len size then
        (if rsaOk = true ∧ mldsaOk = true ∧ s.dev.start.minFw ≤ version ∧ lengthOk = true then
          t.dev.stage = 3 ∧ t.dev.start.voxsar = true ∧ msg s s.dev.start.fetch.peer 5 h.session 0 [] 0 ∈ t.dev.out
         else t.dev.stage = 2 ∧ t.dev.b Off.START_FAIL 6 = true ∧ RegsSameBut s t [Off.START_FAIL] ∧ t.dev.start.fetch.offer = none ∧
          t.dev.start.fetch.reason = if (rsaOk && mldsaOk) = false then 2 else if version < s.dev.start.minFw then 3 else 4)
       else if s.dev.start.fetch.nextBlock < blockCount len size then
        RegsSameBut s t [] ∧ t.dev.out = msg s s.dev.start.fetch.peer 3 h.session s.dev.start.fetch.nextBlock [] 0 :: s.dev.out
       else RegsSameBut s t [] ∧ t.dev.out = s.dev.out))

/-- HBM_TRAINING_DONE, LOADER_RELEASE, START_CTRL_READY and PCIE_CONFIG_REQUEST: S3 to S5 (R55, R83, R85). -/
def Obligations.LateStartStages : Prop :=
  (∀ (s : State) (failed : Nat) (results : List (Nat × List Byte)), s.dev.stage = 3 → s.dev.start.voxsar = true → s.dev.start.hbmUp = false →
    s.dev.b Off.START_FAIL 8 = false →
    ∃ t, exec (.hbmTrainingDone failed results) s = .next t ∧ t.mem = s.mem ∧ t.pending = s.pending ∧
      ((∀ k ∈ s.dev.sites, nbit failed k = false) → t.dev.stage = 4 ∧ t.dev.start.hbmUp = true ∧ ∀ k ∈ s.dev.sites, t.dev.b (Off.UMP_STATUS k) 0 = true) ∧
      ((∃ k ∈ s.dev.sites, nbit failed k = true) → t.dev.stage = 3 ∧ t.dev.b Off.START_FAIL 8 = true ∧ t.dev.b Off.START_STAGE 3 = true ∧
        (∀ k ∈ s.dev.sites, nbit failed k = true → t.dev.b Off.START_FAIL (16 + k) = true) ∧ RegsSameBut s t [Off.START_FAIL, Off.START_STAGE])) ∧
  (∀ (s : State) (failed : Nat) (results : List (Nat × List Byte)), s.dev.b Off.START_FAIL 8 = true → exec (.hbmTrainingDone failed results) s = .next s) ∧
  (∀ (s : State) (image : List Byte) (entry : Nat), s.dev.stage = 4 → s.dev.start.loader = false →
    ∃ t, exec (.loaderRelease true image entry) s = .next t ∧ t.flash = s.flash ∧ t.pending = s.pending ∧ t.dev.start.loader = true ∧
      (t.dev.core 0).secure = true ∧ (t.dev.core 0).pc = BitVec.ofNat 64 entry ∧ BytesSameBut s t 0x1000000 0x200000) ∧
  (∀ (s : State) (image : List Byte) (entry : Nat), s.dev.stage = 4 → s.dev.start.loader = false →
    ∃ t, exec (.loaderRelease false image entry) s = .next t ∧ t.dev.b Off.START_FAIL 9 = true ∧ t.dev.b Off.START_STAGE 3 = true ∧
      RegsSameBut s t [Off.START_FAIL, Off.START_STAGE] ∧ t = { s with dev := { s.dev with regs := t.dev.regs } }) ∧
  (∀ (s : State) (m : Master) (value : Nat), s.dev.setupRefused m Off.START_CTRL 4 = none →
    ∃ t, exec (.startCtrlReady m value) s = .next t ∧ t = { s with dev := { s.dev with resp := .ok, start := t.dev.start } } ∧
      t.dev.start = { s.dev.start with ready := s.dev.start.ready || (value % 2 == 1 && s.dev.stage == 4) }) ∧
  (∀ (s : State) (port : Nat), port < s.dev.ioDies → s.dev.start.voxsar = true →
    exec (.pcieConfigRequest port) s = .next { s with dev := { s.dev with resp := if s.dev.stage < 5 then .retry else .ok } }) ∧
  (∀ (s : State) (port : Nat), s.dev.ioDies ≤ port ∨ s.dev.start.voxsar = false → exec (.pcieConfigRequest port) s = .next { s with dev := { s.dev with resp := .none } })

/-- The service port reports what R91 gives and changes only the port; SP_KEEPER_SET keeps a clamped setpoint for the next edge or is denied (R81, R88, R89, R90, R91, R92, R93) That a bad header is answered with INVALID_DESCRIPTOR, what a doorbell byte other than 1 does, and which register the report names, is the model's reading (log 58). -/
def Obligations.ServicePortReportsAndSetpoint : Prop :=
  let up := fun (s : State) (tag : Nat) => s.dev.spUp = true ∧ s.dev.sp.state ≠ 1 ∧ tag < 2 ^ 16
  let ready := fun (s : State) (frame : List Byte) (op tag status : Nat) (p : List Byte) =>
    { s with dev := { s.dev with out := .sdioIrq :: s.dev.out, sp := { s.dev.sp with state := 2, response := spFrame op tag status p, command := frame.take 4096 ++ s.dev.sp.command.drop frame.length } } }
  (∀ (s : State) (tag : Nat) (f : List Byte), up s tag →
    (f = spFrame 1 tag 0 [] → exec (.spIdent f 1) s = .next (ready s f 1 tag 0 (leBytes 4 s.dev.lsIdent ++ (List.range 8).map Config.deviceIdent))) ∧
    (f = spFrame 2 tag 0 [] → exec (.spStatus f 1) s = .next (ready s f 2 tag 0 (leBytes 4 (s.dev.n Off.START_STAGE) ++ leBytes 4 (s.dev.n Off.START_FAIL) ++
      leBytes 4 (s.dev.n Off.START_STRAPS) ++ leBytes 4 (s.dev.n Off.CFG_REC_STATUS) ++ leBytes 4 (s.dev.n Off.OVER_COUNT) ++
      leBytes 4 (s.dev.n Off.OVER_STATUS) ++ leBytes 4 (s.dev.n Off.KPR_STATUS) ++ leBytes 4 (s.dev.n Off.KPR_DOUBT))))) ∧
  (∀ (s : State) (tag : Nat) (p f : List Byte), up s tag → p ≠ [] → p.length ≤ 4080 →
    (f = spFrame 1 tag 0 p → exec (.spIdent f 1) s = .next (ready s f 1 tag 0x20 [])) ∧
    (f = spFrame 2 tag 0 p → exec (.spStatus f 1) s = .next (ready s f 2 tag 0x20 []))) ∧
  (∀ (s : State) (tag index count : Nat) (f : List Byte), up s tag → index < 2 ^ 32 → 1 ≤ count → count ≤ 32 →
    f = spFrame 3 tag 0 (leBytes 4 index ++ leBytes 1 count ++ [0, 0, 0]) →
    exec (.spClampRead f 1) s = .next (ready s f 3 tag 0 (s.clampRead index count))) ∧
  (∀ (s : State) (tag count : Nat) (p f : List Byte), up s tag → p.length = 4 → count < 256 → count = 0 ∨ 32 < count →
    f = spFrame 3 tag 0 (p ++ leBytes 1 count ++ [0, 0, 0]) → exec (.spClampRead f 1) s = .next (ready s f 3 tag 0x20 [])) ∧
  (∀ (s : State) (tag l : Nat) (c : LoopCfg) (f : List Byte), up s tag → l < 32 → KMap.find s.dev.keeper.table.loops l = some c →
    f = spFrame 4 tag 0 (leBytes 1 l ++ [0, 0, 0]) →
    exec (.spKeeperGet f 1) s = .next (ready s f 4 tag 0
      (leBytes 1 l ++ leBytes 1 (1 + (if nbit c.flags 2 then 2 else 0) + (if s.dev.loopStale c then 4 else 0)) ++ [0, 0] ++
        leBytes 4 (s.dev.n (Off.KPR_LOOP_SP l)) ++ leBytes 4 c.spMin.toNat ++ leBytes 4 c.spMax.toNat ++ leBytes 4 (s.dev.loopOut l c).toNat ++ [0, 0, 0, 0]))) ∧
  (∀ (s : State) (tag l : Nat) (f : List Byte), up s tag → l < 256 → (32 ≤ l ∨ KMap.find s.dev.keeper.table.loops l = none) →
    f = spFrame 4 tag 0 (leBytes 1 l ++ [0, 0, 0]) → exec (.spKeeperGet f 1) s = .next (ready s f 4 tag 0x20 [])) ∧
  (∀ (s : State) (f : List Byte) (bell : Nat), s.dev.spUp = true → s.dev.sp.state = 1 ∨ bell ≠ 1 → 16 ≤ f.length →
    exec (.spStatus f bell) s = .next { s with dev := { s.dev with sp := { s.dev.sp with command := f.take 4096 ++ s.dev.sp.command.drop f.length } } }) ∧
  (∀ (s : State) (tag op version : Nat) (f : List Byte), up s tag → op < 256 → version < 256 → op ∉ [1, 2, 3, 4, 5, 0x10, 0x11, 0x12, 0x13] ∨ version ≠ 1 →
    f = leBytes 1 op ++ leBytes 1 version ++ leBytes 2 tag ++ zeros 12 → exec (.spStatus f 1) s = .next (ready s f op tag 0x20 [])) ∧
  (∀ (s : State) (tag l : Nat) (v : W32) (c : LoopCfg) (f : List Byte), up s tag → l < 32 → f32IsNan v = false → KMap.find s.dev.keeper.table.loops l = some c →
    nbit c.flags 2 = true → f = spFrame 5 tag 0 (leBytes 1 l ++ [0, 0, 0] ++ leBytes 4 v.toNat) →
    ∃ t, exec (.spKeeperSet f 1) s = .next t ∧
      t.dev.sp.state = 2 ∧ t.dev.sp.response = spFrame 5 tag 0 (leBytes 1 l ++ [0, 0, 0] ++ leBytes 4 (f32Clamp c.spMin c.spMax v).toNat) ∧
      t.dev.sp.setpoints = KMap.put s.dev.sp.setpoints l (f32Clamp c.spMin c.spMax v) ∧ t.dev.keeper = s.dev.keeper ∧ t.flash = s.flash ∧ t.pending = s.pending ∧
      RegsSameBut s t [Off.CLAMP_PROD, Off.CLAMP_DROPPED] ∧ (f32Clamp c.spMin c.spMax v = v → t.mem = s.mem ∧ RegsSameBut s t [])) ∧
  (∀ (s : State) (tag l : Nat) (v : W32) (c : LoopCfg) (f : List Byte), up s tag → l < 32 → f32IsNan v = false → KMap.find s.dev.keeper.table.loops l = some c →
    nbit c.flags 2 = false → f = spFrame 5 tag 0 (leBytes 1 l ++ [0, 0, 0] ++ leBytes 4 v.toNat) →
    exec (.spKeeperSet f 1) s = .next (ready s f 5 tag 0x22 []))

/-- The flash commands under provisioning: erase reads 0xFF and busy until it ends, write ANDs, read returns, verify compares (R61, R88, R91, R94). -/
def Obligations.ServicePortFlashCommands : Prop :=
  let up := fun (s : State) (tag : Nat) => s.dev.spUp = true ∧ s.dev.sp.state ≠ 1 ∧ tag < 2 ^ 16 ∧ s.dev.f Off.START_STRAPS 1 0 = 1
  let filled := fun (s : State) (frame : List Byte) => frame.take 4096 ++ s.dev.sp.command.drop frame.length
  let ready := fun (s : State) (frame : List Byte) (op tag status : Nat) (p : List Byte) =>
    { s with dev := { s.dev with out := .sdioIrq :: s.dev.out, sp := { s.dev.sp with state := 2, response := spFrame op tag status p, command := filled s frame } } }
  let sameTable := fun (s t : State) => t.dev.start = { s.dev.start with tableKept := t.dev.start.tableKept } ∧
    (s.dev.stage ≠ 0 → t.dev.start = s.dev.start) ∧ (s.dev.stage = 0 → ∀ r m, t.flashTable r m = s.flashTable r m)
  (∀ (s : State) (tag off n : Nat) (f : List Byte), up s tag → off < 2 ^ 32 → off % 65536 = 0 → 1 ≤ n → n ≤ 512 →
    off + n * 65536 ≤ 33554432 → f = spFrame 0x10 tag 0 (leBytes 4 off ++ leBytes 4 n) →
    ∃ t, exec (.spFlashErase f 1) s = .next t ∧
      t = { s with dev := { s.dev with sp := { s.dev.sp with state := 1, erasing := some (0x10, tag), command := filled s f }, start := t.dev.start }, flash := t.flash } ∧
      sameTable s t ∧ ∀ a, t.flashByte a = if off ≤ a ∧ a < off + n * 65536 then 0xFF else s.flashByte a) ∧
  (∀ (s : State) (op tag : Nat), s.dev.sp.erasing = some (op, tag) →
    exec .spFlashEraseDone s = .next { s with dev := { s.dev with out := .sdioIrq :: s.dev.out, sp := { s.dev.sp with state := 2, erasing := none, response := spFrame op tag 0 [] } } }) ∧
  (∀ (s : State) (tag off : Nat) (bs f : List Byte), up s tag → off < 2 ^ 32 → 1 ≤ bs.length →
    bs.length ≤ 4064 → off + bs.length ≤ 33554432 → f = spFrame 0x11 tag 0 (leBytes 4 off ++ leBytes 4 bs.length ++ bs) →
    ∃ t, exec (.spFlashWrite f 1) s = .next t ∧
      t = { ready s f 0x11 tag 0 [] with dev := { (ready s f 0x11 tag 0 []).dev with start := t.dev.start }, flash := t.flash } ∧ sameTable s t ∧
      (∀ a, a < off ∨ off + bs.length ≤ a → t.flashByte a = s.flashByte a) ∧
      ∀ k (h : k < bs.length), t.flashByte (off + k) = s.flashByte (off + k) &&& bs[k]) ∧
  (∀ (s : State) (tag off n : Nat) (f : List Byte), up s tag → off < 2 ^ 32 → 1 ≤ n → n ≤ 4064 → off + n ≤ 33554432 →
    off + n ≤ 0x800000 ∨ 0x900000 ≤ off → f = spFrame 0x12 tag 0 (leBytes 4 off ++ leBytes 4 n) →
    exec (.spFlashRead f 1) s = .next (ready s f 0x12 tag 0 (s.flashBytes off n))) ∧
  (∀ (s : State) (tag off n crc : Nat) (f : List Byte), up s tag → off < 2 ^ 32 → 1 ≤ n → off + n ≤ 33554432 → crc < 2 ^ 32 →
    f = spFrame 0x13 tag 0 (leBytes 4 off ++ leBytes 4 n ++ leBytes 4 crc) →
    exec (.spFlashVerify f 1) s =
      .next (ready s f 0x13 tag (if crcOf 0 (s.flashBytes off n) = crc then 0 else 2) (leBytes 4 (crcOf 0 (s.flashBytes off n)))))

/-- The flash commands return DENIED unless BOOT_MODE is provisioning, and the wrapped-key region is never read (R94). -/
def Obligations.FlashDeniedOutsideProvisioning : Prop :=
  let up := fun (s : State) (tag : Nat) => s.dev.spUp = true ∧ s.dev.sp.state ≠ 1 ∧ tag < 2 ^ 16
  let denied := fun (s : State) (frame : List Byte) (op tag : Nat) =>
    { s with dev := { s.dev with out := .sdioIrq :: s.dev.out, sp := { s.dev.sp with state := 2, response := spFrame op tag 0x22 [], command := frame.take 4096 ++ s.dev.sp.command.drop frame.length } } }
  (∀ (s : State) (tag off n : Nat) (f : List Byte), up s tag → s.dev.f Off.START_STRAPS 1 0 ≠ 1 → off < 2 ^ 32 → off % 65536 = 0 → 1 ≤ n → n ≤ 512 →
    off + n * 65536 ≤ 33554432 → f = spFrame 0x10 tag 0 (leBytes 4 off ++ leBytes 4 n) → exec (.spFlashErase f 1) s = .next (denied s f 0x10 tag)) ∧
  (∀ (s : State) (tag off : Nat) (bs f : List Byte), up s tag → s.dev.f Off.START_STRAPS 1 0 ≠ 1 → off < 2 ^ 32 → 1 ≤ bs.length →
    bs.length ≤ 4064 → off + bs.length ≤ 33554432 → f = spFrame 0x11 tag 0 (leBytes 4 off ++ leBytes 4 bs.length ++ bs) →
    exec (.spFlashWrite f 1) s = .next (denied s f 0x11 tag)) ∧
  (∀ (s : State) (tag off n : Nat) (f : List Byte), up s tag → off < 2 ^ 32 → 1 ≤ n → n ≤ 4064 → off + n ≤ 33554432 →
    (s.dev.f Off.START_STRAPS 1 0 ≠ 1 ∨ (off < 0x900000 ∧ 0x800000 < off + n)) → f = spFrame 0x12 tag 0 (leBytes 4 off ++ leBytes 4 n) →
    exec (.spFlashRead f 1) s = .next (denied s f 0x12 tag)) ∧
  (∀ (s : State) (tag off n crc : Nat) (f : List Byte), up s tag → s.dev.f Off.START_STRAPS 1 0 ≠ 1 → off < 2 ^ 32 → 1 ≤ n → off + n ≤ 33554432 → crc < 2 ^ 32 →
    f = spFrame 0x13 tag 0 (leBytes 4 off ++ leBytes 4 n ++ leBytes 4 crc) → exec (.spFlashVerify f 1) s = .next (denied s f 0x13 tag)) ∧
  (∀ (s t : State) (f : List Byte) (bell : Nat),
    (exec (.spFlashErase f bell) s = .next t ∨ exec (.spFlashWrite f bell) s = .next t ∨ exec (.spFlashRead f bell) s = .next t ∨
      exec (.spFlashVerify f bell) s = .next t ∨ exec .spFlashEraseDone s = .next t) →
    RegsSameBut s t [] ∧ t.dev.keeper = s.dev.keeper ∧ t.mem = s.mem ∧ t.pending = s.pending ∧
      t.dev.start = { s.dev.start with tableKept := t.dev.start.tableKept } ∧ (s.dev.stage = 0 → ∀ r m, t.flashTable r m = s.flashTable r m))

/-- Ball k begins floor(k × L / B) ns after the Over edge, and Ball lengths differ by at most 1 ns (R17). -/
def Obligations.BallsDivideTheOver : Prop :=
  ∀ (s : State), (∀ k, s.dev.ballStart k = k * s.dev.overNs / s.dev.balls) ∧ s.dev.ballStart 0 = 0 ∧
    (0 < s.dev.balls → ∀ j k, j < s.dev.balls → k < s.dev.balls →
      s.dev.ballStart (j + 1) - s.dev.ballStart j ≤ s.dev.ballStart (k + 1) - s.dev.ballStart k + 1)

/-- OVER_EDGE counts the Over by one, latches its time and ends READY's wait; BALL_EDGE numbers the Ball; neither comes early (R16, R17, R24, R26, R31, R34, R86, R599). -/
def Obligations.EdgesNumberOversAndBalls : Prop :=
  (∀ (s : State) (ps : Nat) (retrained : List (Nat × Nat)) (temps : List (Nat × Int)) (bad : List (Nat × DbTarget)), s.dev.runs = true →
    s.dev.time.overLen ≤ s.dev.time.run → s.dev.nextBall = none →
    ∃ t, exec (.overEdge ps ⟨retrained, temps, bad⟩) s = .next t ∧ t.flash = s.flash ∧ t.pending = s.pending ∧
      t.dev.over = (s.dev.over + 1) % 2 ^ 32 ∧ t.dev.f Off.OVER_BALL 5 0 = 0 ∧
      (t.dev.deadOver = true ↔ s.dev.geomTakes = true ∨ s.dev.time.stepAtEdge.isSome = true) ∧
      t.dev.n Off.OVER_EDGE_NS = edgeNs (t.dev.time.sub - t.dev.time.run) ∧ t.dev.n Off.OVER_EDGE_SEC = edgeSec (t.dev.time.sub - t.dev.time.run) ∧
      t.dev.time.edgeAt = s.dev.now ∧ (s.dev.over = 2 ^ 32 - 1 → t.dev.b Off.OVER_EVENTS 4 = true) ∧
      t.dev.stage = (if s.dev.start.ready = true ∧ s.dev.stage = 4 then 5 else s.dev.stage)) ∧
  (∀ (s : State) (k : Nat), s.dev.runs = true → s.dev.nextBall = some k → ((s.dev.ballStart k : Nat) : Int) * subPerNs ≤ s.dev.time.run →
    ∃ t, exec .ballEdge s = .next t ∧ t.flash = s.flash ∧ t.pending = s.pending ∧
      t.dev.n Off.OVER_BALL = k ∧ k = s.dev.f Off.OVER_BALL 5 0 + 1 ∧ t.dev.over = s.dev.over ∧ t.dev.stage = s.dev.stage ∧ t.dev.time = s.dev.time) ∧
  (∀ (s : State) (ps : Nat) (retrained : List (Nat × Nat)) (temps : List (Nat × Int)) (bad : List (Nat × DbTarget)),
    s.dev.time.run < s.dev.time.overLen ∨ s.dev.nextBall ≠ none → exec (.overEdge ps ⟨retrained, temps, bad⟩) s = .next s) ∧
  (∀ (s : State),
    s.dev.balls ≤ s.dev.f Off.OVER_BALL 5 0 + 1 ∨ s.dev.time.run < ((s.dev.ballStart (s.dev.f Off.OVER_BALL 5 0 + 1) : Nat) : Int) * subPerNs ∨
      s.dev.time.overLen ≤ ((s.dev.ballStart (s.dev.f Off.OVER_BALL 5 0 + 1) : Nat) : Int) * subPerNs →
    exec .ballEdge s = .next s)

/-- Source states: loss and expiry of the reference and what each sets; a follower aligns to the sideband and loads OVER_COUNT once before S5 (R20, R21, R22, R23, R24, R26, R27, R28, R29, R404, R522, R579). -/
def Obligations.SourceStateChanges : Prop :=
  (∀ (s : State), s.dev.srcState = 1 → s.dev.follower = false →
    (s.dev.now < s.dev.time.refAt + 250000000 → exec .referenceLost s = .next s) ∧
    (s.dev.time.refAt + 250000000 ≤ s.dev.now →
      ∃ t, exec .referenceLost s = .next t ∧ t = { s with dev := { s.dev with regs := t.dev.regs, time := { s.dev.time with holdSince := s.dev.now } } } ∧
        t.dev.srcState = 2 ∧ t.dev.b Off.OVER_STATUS 2 = false ∧ RegsSameBut s t [Off.OVER_STATUS])) ∧
  (∀ (s : State), s.dev.srcState = 2 →
    (s.dev.now < s.dev.time.holdSince + s.dev.f Off.OVER_HOLDOVER 15 0 * 1000000 → exec .holdoverExpired s = .next s) ∧
    (s.dev.time.holdSince + s.dev.f Off.OVER_HOLDOVER 15 0 * 1000000 ≤ s.dev.now →
      ∃ t, exec .holdoverExpired s = .next t ∧ t = { s with dev := t.dev } ∧ t.dev.srcState = 3 ∧ t.dev.b Off.OVER_STATUS 2 = true ∧
        t.dev.b Off.OVER_EVENTS 1 = true ∧ t.dev.b Off.KPR_DOUBT 6 = true)) ∧
  (∀ (s : State), s.dev.srcState = 0 →
    (s.dev.now < s.dev.f Off.OVER_HOLDOVER 15 0 * 1000000 → exec .freeRunWithoutReference s = .next s) ∧
    (s.dev.f Off.OVER_HOLDOVER 15 0 * 1000000 ≤ s.dev.now →
      ∃ t, exec .freeRunWithoutReference s = .next t ∧ t = { s with dev := { s.dev with regs := t.dev.regs } } ∧ t.dev.srcState = 3 ∧
        t.dev.b Off.OVER_STATUS 2 = true ∧ RegsSameBut s t [Off.OVER_STATUS])) ∧
  (∀ (s : State), s.dev.follower = true → s.dev.b Off.OVER_STATUS 5 = true → s.dev.sidebandUp = false → s.dev.srcState = 1 →
    ∃ t, exec .alignLost s = .next t ∧ t = { s with dev := { s.dev with regs := t.dev.regs, time := { s.dev.time with holdSince := s.dev.now } } } ∧
      t.dev.srcState = 2 ∧ t.dev.b Off.OVER_STATUS 5 = false ∧ t.dev.b Off.OVER_EVENTS 5 = true ∧ RegsSameBut s t [Off.OVER_STATUS, Off.OVER_EVENTS]) ∧
  (∀ (s : State), s.dev.start.monitor = true →
    s.dev.time.edgeAt + (if s.dev.deadOver = true then s.dev.overNs * 3 / 2 else s.dev.overNs) + s.dev.overNs / 1000 + 2000 < s.dev.now →
    ∃ t, exec .edgeMissed s = .next t ∧ t = { s with dev := t.dev } ∧ t.dev.b Off.OVER_EVENTS 0 = true ∧ t.dev.b Off.KPR_DOUBT 5 = true) ∧
  (∀ (s : State),
    (s.dev.time.slew ≠ 0 → exec .slewDone s = .next s) ∧
    (s.dev.time.slew = 0 → ∃ t, exec .slewDone s = .next t ∧ t = { s with dev := { s.dev with regs := t.dev.regs } } ∧ t.dev.b Off.OVER_STATUS 4 = false ∧
      RegsSameBut s t [Off.OVER_STATUS])) ∧
  (∀ (s : State) (count : Nat) (err : Int) (steps balls phase : Nat), s.dev.follower = true → s.dev.sidebandUp = true → s.dev.f Off.OVER_CTRL 26 25 = 0 →
    5 ≤ steps → steps ≤ 400 → 4 ≤ balls → balls ≤ 64 →
    ∃ t, exec (.sidebandAligned count err steps balls phase) s = .next t ∧ t = { s with dev := { s.dev with regs := t.dev.regs, time := t.dev.time, gw := { s.dev.gw with pulses := t.dev.gw.pulses, pdus := t.dev.gw.pdus, linSlots := t.dev.gw.linSlots }, out := t.dev.out } } ∧
      t.dev.b Off.OVER_STATUS 5 = true ∧ t.dev.srcState = 1 ∧ (s.dev.srcState ≠ 1 → t.dev.time.refSeen = true) ∧ t.dev.time.refAt = s.dev.now ∧
      t.dev.f Off.OVER_CTRL 8 0 = steps ∧ t.dev.f Off.OVER_CTRL 22 16 = balls ∧
      t.dev.over = (if s.dev.time.counted = false ∧ s.dev.stage < 5 then count % 2 ^ 32 else s.dev.over)) ∧
  (∀ (s : State) (count : Nat) (err : Int) (steps balls phase : Nat), s.dev.follower = false →
    ∃ t, exec (.sidebandAligned count err steps balls phase) s = .next t ∧ t.dev.time = s.dev.time ∧ (∀ o, o < Off.GW_CTRL → t.dev.r o = s.dev.r o))

/-- TIME_ADJ_RATE saturates at ±200 ppm, TIME_ADJ_OFFSET and TIME_SET hand over a phase error, TIME_NOW_NS latches the seconds (R19, R24, R38, R521, R522, R533). -/
def Obligations.TimeRegisters : Prop :=
  (∀ (s : State) (m : Master) (value : Nat), s.dev.setupRefused m Off.TIME_ADJ_RATE 4 = none → -204800000 ≤ signedOf 32 value → signedOf 32 value ≤ 204800000 →
    exec (.timeAdjRate m value) s = .next { s with dev := { s.dev with resp := .ok, time := { s.dev.time with rate := signedOf 32 value } } }) ∧
  (∀ (s : State) (m : Master) (value : Nat), s.dev.setupRefused m Off.TIME_ADJ_RATE 4 = none →
    ∃ t, exec (.timeAdjRate m value) s = .next t ∧ t.dev.resp = .ok ∧ t.flash = s.flash ∧ t.pending = s.pending ∧
      t.dev.time = { s.dev.time with rate := clampInt (-204800000) 204800000 (signedOf 32 value) } ∧
      RegsSameBut s t [Off.CLAMP_PROD, Off.CLAMP_DROPPED]) ∧
  (∀ (s : State) (m : Master) (value : Nat), s.dev.setupRefused m Off.TIME_ADJ_OFFSET 8 = none → s.dev.follower = false → s.dev.f Off.OVER_CTRL 26 25 = 0 →
    ∃ t, exec (.timeAdjOffset m value) s = .next t ∧ t = { s with dev := { s.dev with regs := t.dev.regs, time := t.dev.time, gw := { s.dev.gw with pulses := t.dev.gw.pulses, pdus := t.dev.gw.pdus, linSlots := t.dev.gw.linSlots }, out := t.dev.out, resp := .ok } } ∧
      t.dev.srcState = 1 ∧ t.dev.n Off.OVER_PHASE_ERR = unsignedOf 32 (clampInt (-2147483647) 2147483647 (signedOf 64 value)) ∧
      (∃ r : Int, t.dev.time.sub = s.dev.time.sub + signedOf 64 value * subPerNs - r ∧ (r = 0 ∨ t.dev.time.slew = r ∨ t.dev.time.stepAtEdge = some r) ∧
        (0 < s.dev.overNs → -(s.dev.overNs * subPerNs) ≤ 2 * r ∧ 2 * r < s.dev.overNs * subPerNs ∧
          (s.dev.time.sub - s.dev.time.run + (signedOf 64 value - s.dev.time.geom.phase) * subPerNs - r) % (s.dev.overNs * subPerNs) = 0)) ∧
      (∀ o, o < Off.GW_CTRL → o ∉ [Off.OVER_STATUS, Off.OVER_EVENTS, Off.OVER_PHASE_ERR] → t.dev.r o = s.dev.r o)) ∧
  (∀ (s : State) (m : Master) (ns : Nat), s.dev.setupRefused m Off.TIME_SET_NS 4 = none → s.dev.follower = false → s.dev.f Off.OVER_CTRL 26 25 = 0 →
    ∃ t, exec (.timeSet m ns) s = .next t ∧ t = { s with dev := { s.dev with regs := t.dev.regs, time := t.dev.time, gw := { s.dev.gw with pulses := t.dev.gw.pulses, pdus := t.dev.gw.pdus, linSlots := t.dev.gw.linSlots }, out := t.dev.out, resp := .ok } } ∧
      t.dev.srcState = 1 ∧ t.dev.n Off.OVER_PHASE_ERR = unsignedOf 32 (clampInt (-2147483647) 2147483647
        (((s.dev.time.setSecLo + s.dev.time.setSecHi * 2 ^ 32) * 1000000000 + ns % 2 ^ 32 : Nat) - s.dev.hwNs)) ∧
      (∀ o, o < Off.GW_CTRL → o ∉ [Off.OVER_STATUS, Off.OVER_EVENTS, Off.OVER_PHASE_ERR] → t.dev.r o = s.dev.r o)) ∧
  (∀ (s : State) (m : Master), s.dev.masterRuns m = true → s.dev.rtAdmits (0xF0000000 + Off.TIME_NOW_NS) 4 (s.dev.world m) = true →
    ∃ t, exec (.timeNowRead m) s = .next t ∧ t = { s with dev := { s.dev with regs := t.dev.regs, resp := .data s.dev.nsField } } ∧
      t.dev.n Off.TIME_LATCH_SEC_LO = s.dev.secField % 2 ^ 32 ∧ t.dev.n Off.TIME_LATCH_SEC_HI = s.dev.secField / 2 ^ 32 ∧
      RegsSameBut s t [Off.TIME_LATCH_SEC_LO, Off.TIME_LATCH_SEC_HI])

/-- Set-up registers take naturally aligned 32-bit and 64-bit accesses; other accesses get an error response and have no effect (R49). -/
def Obligations.SetupAccessForms : Prop :=
  (∀ (s : State) (m : Master) (off size value : Nat), s.dev.masterRuns m = true → (size ≠ 4 ∧ size ≠ 8) ∨ off % size ≠ 0 →
    exec (.registerWrite m off size value) s = .next { s with dev := { s.dev with resp := .error } } ∧
    s.dev.setupRead m off size = { s.dev with resp := .error }) ∧
  (∀ (s : State) (m : Master) (off value : Nat) (a b : RegDesc), s.dev.setupRefused m off 8 = none → s.dev.mbxByte off = none →
    locate off = some (a, off) → a.wide = false → a.acc = .rw → locate (off + 4) = some (b, off + 4) → b.acc = .rw →
    exec (.registerWrite m off 8 value) s = .next { s with dev := { (s.dev.stageBits (s.dev.world m) off (BitVec.ofNat 64 (value % 2 ^ 32)) (maskOf 31 0)).stageBits
      (s.dev.world m) (off + 4) (BitVec.ofNat 64 (value / 2 ^ 32 % 2 ^ 32)) (maskOf 31 0) with resp := .ok } }) ∧
  (∀ (s : State) (m : Master) (off : Nat), s.dev.masterRuns m = true → s.dev.setupThere off = true → off % 8 = 0 → s.dev.rtAdmits (0xF0000000 + off) 8 (s.dev.world m) = true →
    off ≠ Off.TIME_NOW_NS → off + 4 ≠ Off.TIME_NOW_NS →
    (s.dev.setupRead m off 8).resp = .data (s.dev.viewWord off + s.dev.viewWord (off + 4) * 2 ^ 32))

/-- REGISTER_WRITE: RW writes change only the staging copy, RO writes are ignored, a 1 clears a W1C bit (R9, R50, R78, R545, R546, R568). -/
def Obligations.RegisterWriteByAccessType : Prop :=
  (∀ (s : State) (m : Master) (off value : Nat) (r : RegDesc), s.dev.setupRefused m off 4 = none → s.dev.mbxByte off = none →
    locate off = some (r, off) → r.acc = .rw →
    ∃ t x, exec (.registerWrite m off 4 value) s = .next t ∧ t = { s with dev := { s.dev with staged := t.dev.staged, resp := .ok } } ∧
      KMap.find t.dev.staged off = some x ∧ fld x.value 31 0 = value % 2 ^ 32 ∧ fld x.written 31 0 = 2 ^ 32 - 1 ∧
      fld x.normal 31 0 = (if s.dev.world m = true then 0 else 2 ^ 32 - 1) ∧
      ∀ o, o ≠ off → KMap.find t.dev.staged o = KMap.find s.dev.staged o) ∧
  (∀ (s : State) (m : Master) (off value : Nat), s.dev.setupRefused m off 4 = none → s.dev.mbxByte off = none →
    (locate off = none ∨ ∃ r, locate off = some (r, off) ∧ r.acc = .ro) →
    exec (.registerWrite m off 4 value) s = .next { s with dev := { s.dev with resp := .ok } }) ∧
  (∀ (s : State) (m : Master) (off value : Nat) (r : RegDesc), s.dev.setupRefused m off 4 = none → s.dev.mbxByte off = none →
    locate off = some (r, off) → r.acc = .w1c → off ≠ Off.PWR_EVENTS →
    ∃ t, exec (.registerWrite m off 4 value) s = .next t ∧ t = { s with dev := { s.dev with regs := t.dev.regs, resp := .ok } } ∧ RegsSameBut s t [off] ∧
      ∀ k, k < 64 → t.dev.b off k = (s.dev.b off k && !(nbit value k && decide (k < 32)))) ∧
  (∀ (s : State) (m : Master) (off value : Nat), s.dev.masterRuns m = true → s.dev.setupThere off = true → off % 4 = 0 → s.dev.setupAdmits m off = false →
    ∃ t, exec (.registerWrite m off 4 value) s = .next t ∧ t = { s with dev := { s.dev with regs := t.dev.regs, resp := .error } } ∧
      t.dev.n Off.WLD_CNT_DENIED = satInc 32 (s.dev.n Off.WLD_CNT_DENIED) ∧ t.dev.b Off.WLD_EVENTS 0 = true ∧
      fld (t.dev.r (Off.WLD_LOG_B (s.dev.n Off.WLD_LOG_PROD % 32))) 7 0 = 1 ∧
      RegsSameBut s t [Off.WLD_CNT_DENIED, Off.WLD_EVENTS, Off.WLD_LOG_PROD, Off.WLD_LOG_A (s.dev.n Off.WLD_LOG_PROD % 32),
        Off.WLD_LOG_B (s.dev.n Off.WLD_LOG_PROD % 32)])

/-- An illegal value is replaced by the nearest legal value, the lower of two equally near; an empty range gives its lower bound (R79). -/
def Obligations.NearestLegalValue : Prop :=
  ∀ lo hi step x : Nat, 0 < step →
    (hi < lo → nearest lo hi step x = lo) ∧
    (lo ≤ hi → lo ≤ nearest lo hi step x ∧ nearest lo hi step x ≤ hi ∧ (nearest lo hi step x - lo) % step = 0 ∧
      ∀ y, lo ≤ y → y ≤ hi → (y - lo) % step = 0 →
        (let dist := fun z : Nat => (z - x) + (x - z)
         dist (nearest lo hi step x) ≤ dist y ∧ (dist y = dist (nearest lo hi step x) → nearest lo hi step x ≤ y)))

/-- At apply each staged field of a secure writer takes its value, its nearest legal value or its replacement code; a reserved field stays (R10, R78, R79, R81). -/
def Obligations.ApplyChecksEachField : Prop :=
  ∀ (d : Dev) (m : Master) (lo hi o : Nat) (r : RegDesc) (g : Seg) (st : Staged), lo ≤ o → o < hi → locate o = some (r, o) → r.acc = .rw → g ∈ r.segs →
    KMap.find d.staged o = some st → (∀ k, g.lo ≤ k → k ≤ g.hi → bitOf st.written k = true ∧ bitOf st.normal k = false) →
    (let e := (d.applyRange m lo hi).1
     let x := fld st.value g.hi g.lo
     (g.legal = some .any → e.f o g.hi g.lo = x) ∧
     (∀ a b step, g.legal = some (.range a b step) → e.f o g.hi g.lo = nearest a b step x % 2 ^ (g.hi + 1 - g.lo)) ∧
     (∀ mx repl also, g.legal = some (.codes mx repl also) → e.f o g.hi g.lo = (if x ≤ mx ∨ x = also then x else repl % 2 ^ (g.hi + 1 - g.lo))) ∧
     (g.legal = none → e.f o g.hi g.lo = d.f o g.hi g.lo ∧ (x ≠ 0 → ∃ p ∈ (d.applyRange m lo hi).2,
       p.off = o ∧ p.lsb = g.lo ∧ p.width = g.hi + 1 - g.lo ∧ p.reserved = true ∧ p.written = x ∧ p.applied = 0)) ∧
     (∀ k, lo ≤ k → k < hi → KMap.find e.staged k = none) ∧
     (∀ k, k < lo ∨ hi ≤ k → KMap.find e.staged k = KMap.find d.staged k))

/-- Each apply register: a value other than 1 applies nothing; 1 applies the whole staging copy of its block and of no other (R34, R78, R80). -/
def Obligations.ApplyOfABlock : Prop :=
  let blockGone := fun (s t : State) (lo size : Nat) => t.dev.resp = .ok ∧ t.flash = s.flash ∧ t.pending = s.pending ∧
    (∀ o, lo ≤ o → o < lo + size → KMap.find t.dev.staged o = none) ∧
    (∀ o, o < lo ∨ lo + size ≤ o → KMap.find t.dev.staged o = KMap.find s.dev.staged o)
  let answered := fun (s : State) => ({ s with dev := { s.dev with resp := .ok } } : State)
  (∀ (s : State) (m : Master) (n : Nat), s.dev.setupRefused m (0x600000 + n % 8 * 0x10000 + 0xFFC) 4 = none →
    (∀ v, v % 2 ^ 32 ≠ 1 → exec (.umpCfgApply m n v) s = .next (answered s)) ∧ ∃ t, exec (.umpCfgApply m n 1) s = .next t ∧ blockGone s t (0x600000 + n % 8 * 0x10000) 0x10000) ∧
  (∀ (s : State) (m : Master), s.dev.setupRefused m (0x800000 + 0xFFC) 4 = none →
    (∀ v, v % 2 ^ 32 ≠ 1 → exec (.kvCfgApply m v) s = .next (answered s)) ∧ ∃ t, exec (.kvCfgApply m 1) s = .next t ∧ blockGone s t (0x800000) 0x10000) ∧
  (∀ (s : State) (m : Master) (n : Nat), s.dev.setupRefused m (0x900000 + n % 4 * 0x10000 + 0xFFC) 4 = none →
    (∀ v, v % 2 ^ 32 ≠ 1 → exec (.gfxCfgApply m n v) s = .next (answered s)) ∧ ∃ t, exec (.gfxCfgApply m n 1) s = .next t ∧ blockGone s t (0x900000 + n % 4 * 0x10000) 0x10000) ∧
  (∀ (s : State) (m : Master) (n : Nat), s.dev.setupRefused m (0xA00000 + n % 4 * 0x10000 + 0xFFC) 4 = none →
    (∀ v, v % 2 ^ 32 ≠ 1 → exec (.gwCfgApply m n v) s = .next (answered s)) ∧ ∃ t, exec (.gwCfgApply m n 1) s = .next t ∧ blockGone s t (0xA00000 + n % 4 * 0x10000) 0x10000) ∧
  (∀ (s : State) (m : Master), s.dev.setupRefused m (0xB00000 + 0xFFC) 4 = none →
    (∀ v, v % 2 ^ 32 ≠ 1 → exec (.islCfgApply m v) s = .next (answered s)) ∧ ∃ t, exec (.islCfgApply m 1) s = .next t ∧ blockGone s t (0xB00000) 0x10000) ∧
  (∀ (s : State) (m : Master), s.dev.setupRefused m (0xB10000 + 0xFFC) 4 = none →
    (∀ v, v % 2 ^ 32 ≠ 1 → exec (.ljCfgApply m v) s = .next (answered s)) ∧ ∃ t, exec (.ljCfgApply m 1) s = .next t ∧ blockGone s t (0xB10000) 0x10000) ∧
  (∀ (s : State) (m : Master), s.dev.setupRefused m (0xB20000 + 0xFFC) 4 = none →
    (∀ v, v % 2 ^ 32 ≠ 1 → exec (.kprCfgApply m v) s = .next (answered s)) ∧ ∃ t, exec (.kprCfgApply m 1) s = .next t ∧ blockGone s t (0xB20000) 0x10000) ∧
  (∀ (s : State) (m : Master), s.dev.setupRefused m (0xB30000 + 0xFFC) 4 = none →
    (∀ v, v % 2 ^ 32 ≠ 1 → exec (.stestCfgApply m v) s = .next (answered s)) ∧ ∃ t, exec (.stestCfgApply m 1) s = .next t ∧ blockGone s t (0xB30000) 0x10000) ∧
  (∀ (s : State) (m : Master), s.dev.setupRefused m (0xBF0000 + 0xFFC) 4 = none →
    (∀ v, v % 2 ^ 32 ≠ 1 → exec (.ibrCfgApply m v) s = .next (answered s)) ∧ ∃ t, exec (.ibrCfgApply m 1) s = .next t ∧ blockGone s t (0xBF0000) 0x10000) ∧
  (∀ (s : State) (m : Master) (n : Nat), s.dev.setupRefused m (0xC10000 + n % 16 * 0x4000 + 0xFFC) 4 = none →
    (∀ v, v % 2 ^ 32 ≠ 1 → exec (.mbxCfgApply m n v) s = .next (answered s)) ∧ ∃ t, exec (.mbxCfgApply m n 1) s = .next t ∧ blockGone s t (0xC10000 + n % 16 * 0x4000) 0x4000) ∧
  (∀ (s : State) (m : Master), s.dev.setupRefused m (0xD00000 + 0xFFC) 4 = none →
    (∀ v, v % 2 ^ 32 ≠ 1 → exec (.pwrCfgApply m v) s = .next (answered s)) ∧ ∃ t, exec (.pwrCfgApply m 1) s = .next t ∧ blockGone s t (0xD00000) 0x10000) ∧
  (∀ (s : State) (m : Master), s.dev.setupRefused m (0xE00000 + 0xFFC) 4 = none →
    (∀ v, v % 2 ^ 32 ≠ 1 → exec (.ivmCfgApply m v) s = .next (answered s)) ∧ ∃ t, exec (.ivmCfgApply m 1) s = .next t ∧ blockGone s t (0xE00000) 0x10000) ∧
  (∀ (s : State) (m : Master), s.dev.setupRefused m (0xF00000 + 0xFFC) 4 = none →
    (∀ v, v % 2 ^ 32 ≠ 1 → exec (.wldCfgApply m v) s = .next (answered s)) ∧ ∃ t, exec (.wldCfgApply m 1) s = .next t ∧ blockGone s t (0xF00000) 0x10000) ∧
  (∀ (s : State) (m : Master), s.dev.setupRefused m (0 + 0xFFC) 4 = none →
    (∀ v, v % 2 ^ 32 ≠ 1 → exec (.glbCfgApply m v) s = .next (answered s)) ∧ ∃ t, exec (.glbCfgApply m 1) s = .next t ∧ blockGone s t (0) 0x10000) ∧
  (∀ (s : State) (m : Master), s.dev.setupRefused m (0x10000 + 0xFFC) 4 = none →
    (∀ v, v % 2 ^ 32 ≠ 1 → exec (.cfgApply m v) s = .next (answered s)) ∧ ∃ t, exec (.cfgApply m 1) s = .next t ∧ blockGone s t (0x10000) 0x10000) ∧
  (∀ (s : State) (m : Master) (n : Nat), s.dev.setupRefused m (0x100000 + n % 64 * 0x10000 + 0xFFC) 4 = none →
    (∀ v, v % 2 ^ 32 ≠ 1 → exec (.tileCfgApply m n v) s = .next (answered s)) ∧ ∃ t, exec (.tileCfgApply m n 1) s = .next t ∧ blockGone s t (0x100000 + n % 64 * 0x10000) 0x10000) ∧
  (∀ (s : State) (m : Master) (n : Nat), s.dev.setupRefused m (0x700000 + n % 256 * 0x1000 + 0xFFC) 4 = none →
    (∀ v, v % 2 ^ 32 ≠ 1 → exec (.qeCfgApply m n v) s = .next (answered s)) ∧ ∃ t, exec (.qeCfgApply m n 1) s = .next t ∧ blockGone s t (0x700000 + n % 256 * 0x1000) 0x1000) ∧
  (∀ (s : State) (m : Master), s.dev.setupRefused m Off.GLB_CFG_APPLY 4 = none →
    ∃ t, exec (.glbCfgApply m 1) s = .next t ∧ t.dev.time.geom = s.dev.time.geom ∧
      (let geom := fun (d : Dev) => ({ steps := d.f Off.OVER_CTRL 8 0, balls := d.f Off.OVER_CTRL 22 16, phase := d.n Off.OVER_PHASE } : Geometry)
       geom t.dev ≠ geom s.dev → geom t.dev ≠ s.dev.time.geom →
        t.dev.b Off.OVER_STATUS 6 = true ∧ t.dev.time.geomDue = some (s.dev.now + (s.dev.overNs + s.dev.balls - 1) / s.dev.balls)))

/-- KV_INIT_DONE, KV_RSV_SEQ_CHANGE and LJ_SHADOW_CHANGE: applied settings that waited take effect (R305, R311, R448). -/
def Obligations.LateRegisterEffects : Prop :=
  (∀ (s : State), s.dev.b Off.KV_STATUS 1 = true → s.dev.b Off.KV_CTRL 0 = true →
    ∃ t, exec .kvInitDone s = .next t ∧ t = { s with dev := { s.dev with regs := t.dev.regs } } ∧ t.dev.n Off.KV_STATUS = 1 ∧
      t.dev.n Off.KV_FREE_PAGES = s.dev.kvFree % 2 ^ 64) ∧
  (∀ (s : State) (r : Nat), (KMap.find s.dev.kv.rsvOld r).isSome = true →
    (∀ x ∈ s.dev.cmds, ∀ h ∈ x.2.handles, ¬ (isReserved h = true ∧ rsvNum h = r)) →
    ∃ t, exec (.kvRsvSeqChange r) s = .next t ∧ t = { s with dev := t.dev } ∧ KMap.find t.dev.kv.rsvOld r = none ∧ t.dev.cmds = s.dev.cmds) ∧
  (∀ (s : State), s.dev.judge.shadowPending = true → s.dev.safetyRuns = false →
    ∃ t, exec .ljShadowChange s = .next t ∧ t = { s with dev := { s.dev with regs := t.dev.regs, judge := t.dev.judge } } ∧ t.dev.judge.shadowPending = false)

/-- A doorbell of matching generation: nothing, 1 to the ring size descriptors become pending, anything else stops the ring (R100). -/
def Obligations.DoorbellIndexRange : Prop :=
  ∀ (d : Dev) (i r p : Nat), p < 2 ^ 32 →
    (let e := d.takeDoorbell i r (p + d.n (Off.QE_DB_GEN i r) % 2 ^ 32 * 2 ^ 32)
     let n := (p + 2 ^ 32 - d.n (Off.QE_CMD_CONS i r) % 2 ^ 32) % 2 ^ 32
     (n = 0 → e = d) ∧
     (1 ≤ n → n ≤ d.ringSize i r → e.ringPending i r = n ∧ e.regs = d.regs) ∧
     (d.ringSize i r < n → e.ringState i r = 2 ∧ e.f (Off.QE_CMD_STATUS i r) 7 4 = 1 ∧ e.b (Off.QE_INST_EVENTS i) 1 = true ∧
        e.readsDoorbell i r = false ∧ e.canPickup i r = false))

/-- A stale doorbell is counted and starts nothing; doorbell, scratchpad and consumer-index writes land where they are admitted (R98, R99, R101, R103, R110, R233, R374). -/
def Obligations.StaleDoorbellsAndBusWrites : Prop :=
  (∀ (d : Dev) (i r v : Nat), v / 2 ^ 32 % 2 ^ 32 ≠ d.n (Off.QE_DB_GEN i r) % 2 ^ 32 →
    (let e := d.takeDoorbell i r v
     e = { d with regs := e.regs } ∧ e.n (Off.QE_STALE_DB i) = satInc 32 (d.n (Off.QE_STALE_DB i)) ∧ e.b (Off.QE_INST_EVENTS i) 3 = true ∧
       ∀ o, o ∉ [Off.QE_STALE_DB i, Off.QE_INST_EVENTS i] → e.r o = d.r o)) ∧
  (∀ (old d : Dev) (i r : Nat), old.b (Off.QE_CMD_CTRL i r) 0 = false → d.b (Off.QE_CMD_CTRL i r) 0 = true →
    (let e := Dev.ringApplied old i r d
     e.n (Off.QE_DB_GEN i r) = (d.n (Off.QE_DB_GEN i r) + 1) % 2 ^ 32 ∧ e.n (Off.QE_CMD_CONS i r) = 0 ∧ e.ringPending i r = 0 ∧ e.ringState i r = 1 ∧
       e.f (Off.QE_CMD_STATUS i r) 7 4 = 0)) ∧
  (∀ (s : State) (m : Master) (db : DbTarget) (value a : Nat), s.dev.masterRuns m = true → s.dev.safetyReset = false →
    a = (match db with | .ring i r => s.dev.dbAddr i r | .session v => s.dev.vcDbAddr v) → s.dev.verdict m (s.dev.world m) .write a 8 = .ok →
    ∃ t, exec (.doorbellWrite m db ⟨value, false⟩) s = .next t ∧ t.mem = (s.put a (leBytes 8 value)).mem ∧ t.dev.resp = .ok ∧ t.flash = s.flash ∧ t.pending = s.pending) ∧
  (∀ (s : State) (m : Master) (db : DbTarget) (value : Nat) (bad : Bool), s.dev.masterRuns m = true → s.dev.safetyReset = false →
    s.dev.verdict m (s.dev.world m) .write (match db with | .ring i r => s.dev.dbAddr i r | .session v => s.dev.vcDbAddr v) 8 ≠ .ok →
    ∃ t, exec (.doorbellWrite m db ⟨value, bad⟩) s = .next t ∧ t = { s with dev := { s.dev with regs := t.dev.regs, resp := .error, badDb := [] } }) ∧
  (∀ (s : State) (m : Master) (a len e k : Nat) (bs : List Byte) (ecc : Ecc), s.dev.masterRuns m = true → s.dev.region a = some (.scratch k, e) →
    s.dev.verdict m (s.dev.world m) .write a bs.length = .ok →
    ∃ t, exec (.scratchpadMainAccess m a .write bs len ecc) s = .next t ∧ t.mem = (s.put a bs).mem ∧ t.dev.resp = .ok ∧ t.flash = s.flash ∧ t.pending = s.pending) ∧
  (∀ (s : State) (m : Master) (a len e k : Nat) (bs : List Byte), s.dev.masterRuns m = true → s.dev.safetyReset = false →
    s.dev.region a = some (.scratch k, e) → s.dev.verdict m (s.dev.world m) .read a len = .ok →
    exec (.scratchpadMainAccess m a .read bs len .clean) s = .next { s with dev := { s.dev with resp := .bytes (s.bytes a len) } }) ∧
  (∀ (s : State) (m : Master) (a len e k : Nat) (kind : AccessKind) (bs : List Byte) (ecc : Ecc), s.dev.masterRuns m = true →
    s.dev.region a = some (.scratch k, e) → s.dev.verdict m (s.dev.world m) kind a (match kind with | .read => len | .write => bs.length) ≠ .ok →
    ∃ t, exec (.scratchpadMainAccess m a kind bs len ecc) s = .next t ∧ t = { s with dev := { s.dev with regs := t.dev.regs, resp := .error } }) ∧
  (∀ (s : State) (m : Master) (i c value : Nat), i < 256 → c < 16 → s.dev.setupRefused m (Off.QE_CPL_CONS i c) 4 = none → s.dev.world m = true →
    ∃ t, exec (.qeCplConsWrite m i c value) s = .next t ∧ t = { s with dev := { s.dev with regs := t.dev.regs, resp := .ok } } ∧
      t.dev.f (Off.QE_CPL_CONS i c) 31 0 = value % 2 ^ 32 ∧ RegsSameBut s t [Off.QE_CPL_CONS i c])

/-- COMMAND_PICKUP copies the next descriptor into flight, reserves its completion slot, advances the consumer index and checks it (R97, R102, R103, R111, R117, R123, R336). -/
def Obligations.PickupTakesADescriptor : Prop :=
  (∀ (s : State) (i r cpl a : Nat) (desc : List Byte), s.dev.canPickup i r = true →
    a = s.dev.addr (Off.QE_CMD_BASE_LO i r) (Off.QE_CMD_BASE_HI i r) + s.dev.n (Off.QE_CMD_CONS i r) % s.dev.ringSize i r * 64 →
    s.dev.verdict (.qe i) (s.dev.world (.qe i)) .read a 64 = .ok → desc = s.bytes a 64 → s.dev.cplOf i desc = some cpl → 0 < s.dev.cplFree i cpl →
    (∀ p n, argBlock desc = some (p, n) → s.dev.verdict (.qe i) (s.dev.world (.qe i)) .read p (16 * n) = .ok) →
    ∃ (v : State) (c : Cmd) (raw : List Byte), exec (.commandPickup i ⟨r, .clean, .clean⟩) s = .next (match v.dev.pickupChecks c raw with
        | some x => v.finish s.dev.nextCmd x.1 x.2
        | none => if v.dev.late c = true then v.finish s.dev.nextCmd 0x13 0 else v.admitAll).serveReset ∧
      v = { s with dev := { s.dev with regs := v.dev.regs, cmds := v.dev.cmds, nextCmd := s.dev.nextCmd + 1 } } ∧
      RegsSameBut s v [Off.QE_CMD_CONS i r] ∧ v.dev.n (Off.QE_CMD_CONS i r) = (s.dev.n (Off.QE_CMD_CONS i r) + 1) % 2 ^ 32 ∧
      v.dev.cmd s.dev.nextCmd = some c ∧ (∀ k, k ≠ s.dev.nextCmd → v.dev.cmd k = s.dev.cmd k) ∧
      c.inst = i ∧ c.ring = r ∧ c.seq = s.dev.n (Off.QE_CMD_CONS i r) ∧ c.desc = desc ∧ c.cpl = cpl ∧ c.phase = .waiting ∧ c.kills = 0 ∧
      raw = (match argBlock desc with | none => [] | some x => s.bytes x.1 (16 * x.2))) ∧
  (∀ (s : State) (i r : Nat) (descEcc argsEcc : Ecc), s.dev.canPickup i r = true → s.dev.safetyReset = false →
    s.dev.verdict (.qe i) (s.dev.world (.qe i)) .read
      (s.dev.addr (Off.QE_CMD_BASE_LO i r) (Off.QE_CMD_BASE_HI i r) + s.dev.n (Off.QE_CMD_CONS i r) % s.dev.ringSize i r * 64) 64 ≠ .ok →
    ∃ t, exec (.commandPickup i ⟨r, descEcc, argsEcc⟩) s = .next t ∧ t = { s with dev := { s.dev with regs := t.dev.regs } } ∧ t.dev.ringState i r = 2 ∧
      t.dev.f (Off.QE_CMD_STATUS i r) 7 4 = 2) ∧
  (∀ (s : State) (i r : Nat) (argsEcc : Ecc), s.dev.canPickup i r = true → s.dev.safetyReset = false →
    s.dev.safetyNow = none →
    ∃ t, exec (.commandPickup i ⟨r, .uncorrectable, argsEcc⟩) s = .next t ∧ t.dev.cmds = s.dev.cmds ∧ t.mem = s.mem ∧ t.dev.ringState i r = 2 ∧
      t.dev.f (Off.QE_CMD_STATUS i r) 7 4 = 2) ∧
  (∀ (s : State) (i r : Nat) (descEcc argsEcc : Ecc), s.dev.canPickup i r = false → exec (.commandPickup i ⟨r, descEcc, argsEcc⟩) s = .next s)

/-- A command that completes without commit leaves flight with one record of its final status, laid out as R124 and R127 give (R103, R121, R124, R127, R131). -/
def Obligations.FinishWritesOneRecord : Prop :=
  (∀ (s : State) (id : Nat) (c : Cmd) (status detail a x : Nat), s.dev.cmd id = some c → c.inst < 256 → c.cpl < 16 → s.dev.tilesOf id = [] → c.kv = [] → c.kvNew = none →
    x = s.dev.n (Off.QE_CPL_PROD c.inst c.cpl) →
    a = s.dev.addr (Off.QE_CPL_BASE_LO c.inst c.cpl) (Off.QE_CPL_BASE_HI c.inst c.cpl) + x % s.dev.cplSize c.inst c.cpl * 32 →
    s.dev.verdict (.qe c.inst) (s.dev.world (.qe c.inst)) .write a 32 = .ok → status ≠ 0x24 → status ≠ 0x30 → c.isRun = false → c.isDraw = false →
    (let t := s.finish id status detail
     t.dev.cmd id = none ∧ (∀ k, k ≠ id → t.dev.cmd k = s.dev.cmd k) ∧ t.dev.n (Off.QE_CPL_PROD c.inst c.cpl) = (x + 1) % 2 ^ 32 ∧
     t.mem = (s.put a (recordBytes c status detail s.dev.nsField (s.dev.over % 2 ^ 32) (phaseBit x (s.dev.cplSize c.inst c.cpl)))).mem ∧
     t.flash = s.flash ∧ t.pending = s.pending ∧
     t.dev.out = (if c.irq = true then .cplIrq c.inst (s.dev.f (Off.QE_CPL_CTRL c.inst c.cpl) 20 16) :: s.dev.out else s.dev.out))) ∧
  (∀ (c : Cmd) (status detail ns ovr phase : Nat), phase < 2 → (let b := recordBytes c status detail ns ovr phase
    b.length = 32 ∧ leAt b 0x00 4 = c.seq % 2 ^ 32 ∧ leAt b 0x04 2 = status % 2 ^ 16 ∧ leAt b 0x06 1 = c.ring % 16 + phase * 128 ∧ leAt b 0x07 1 = min c.kills 255 ∧
    leAt b 0x08 4 = c.gen % 2 ^ 32 ∧ leAt b 0x0C 4 = c.startNs % 2 ^ 32 ∧ leAt b 0x10 4 = ns % 2 ^ 32 ∧ leAt b 0x14 4 = c.startOver % 2 ^ 32 ∧
    leAt b 0x18 4 = ovr % 2 ^ 32 ∧ leAt b 0x1C 2 = min c.clamps 0xFFFF ∧ leAt b 0x1E 2 = detail % 2 ^ 16)) ∧
  (∀ x size : Nat, phaseBit x size = 1 ↔ x / size % 2 = 0) ∧
  (∀ (c : Cmd) (status ns ovr len : Nat), c.inst < 256 → (let b := headerBytes c status ns ovr len
    b.length = 32 ∧ leAt b 0x00 4 = c.gen % 2 ^ 32 ∧ leAt b 0x04 2 = status % 2 ^ 16 ∧ leAt b 0x06 1 = c.ring % 16 ∧ leAt b 0x07 1 = c.inst ∧
    leAt b 0x08 4 = c.seq % 2 ^ 32 ∧ leAt b 0x0C 4 = len % 2 ^ 32 ∧ leAt b 0x10 4 = ns % 2 ^ 32 ∧ leAt b 0x14 4 = ovr % 2 ^ 32 ∧ leAt b 0x18 4 = 0 ∧
    leAt b 0x1C 4 = c.gen % 2 ^ 32))

/-- COMMAND_START: an admitted command starts, takes its tiles, and records START_NS and START_OVER (R104, R123, R124, R184, R297, R333, R350, R508). -/
def Obligations.CommandsStart : Prop :=
  (∀ (s : State) (id : Nat) (c : Cmd), s.dev.cmd id = some c → c.phase = .admitted → s.dev.late c = false → s.dev.instHeld c.inst = false →
    (c.ordered && s.dev.earlierOpen id c false) = false →
    c.isRun = false → c.isDraw = false → s.dev.kvWaits id c = false → (c.copies = true → s.dev.copiesRunning < 4 ∧ s.dev.f (Off.PWR_DOM_STATE 45) 2 0 = 1) →
    (c.op = 0x50 → s.dev.sendCheck c.inst (c.at 0x1C 4) (c.at 0x18 2) = none) →
    exec (.commandStart id) s = .next { s with dev := { s.dev with
      cmds := KMap.put s.dev.cmds id { c with phase := .running, startNs := s.dev.nsField, startOver := s.dev.over % 2 ^ 32, startAt := s.dev.now } } }) ∧
  (∀ (s : State) (id : Nat) (c : Cmd) (x : Plan) (us : List KvUse) (e : Dev), s.dev.cmd id = some c → c.phase = .admitted → s.dev.late c = false →
    s.dev.instHeld c.inst = false →
    (c.ordered && s.dev.earlierOpen id c false) = false → c.isRun = true → s.dev.cmdPlan c = some x → s.dev.mayBegin (s.dev.instPart c.inst) = true →
    s.dev.headOf (s.dev.instPart c.inst) c.stream id = true → c.load = none → x.residentIn c.stream = true → s.dev.tilesIdle (c.tiles ++ c.tilesB) = true →
    s.dev.kvWaits id c = false → s.dev.kvStartAll c x.image ((List.range c.args.length).zip c.args) = .ok (us, e) →
    ∃ t y, exec (.commandStart id) s = .next t ∧ t = { s with dev := t.dev } ∧ t.dev.cmd id = some y ∧ y.phase = .running ∧ y.kv = us ∧
      y.startNs = s.dev.nsField ∧ y.startOver = s.dev.over % 2 ^ 32 ∧
      ∀ k ∈ c.tiles ++ c.tilesB, (t.dev.tile k).cmd = some id ∧ t.dev.f (Off.TILE_STATUS k) 2 0 = 2) ∧
  (∀ (s : State) (id : Nat) (c : Cmd) (st detail : Nat), s.dev.cmd id = some c → c.phase = .admitted → s.dev.late c = false → s.dev.instHeld c.inst = false →
    (c.ordered && s.dev.earlierOpen id c false) = false → c.op = 0x50 → s.dev.kvWaits id c = false →
    s.dev.sendCheck c.inst (c.at 0x1C 4) (c.at 0x18 2) = some (st, detail) →
    exec (.commandStart id) s = .next (s.finish id st detail).admitAll) ∧
  (∀ (s : State) (id : Nat) (c : Cmd), s.dev.cmd id = some c → c.phase = .admitted → s.dev.late c = true →
    exec (.commandStart id) s = .next (s.endCmd id 0x13))

/-- COPY, FILL and CHECK while they run: the destination takes the source or the pattern, the check value is kept for publication (R115, R116, R120, R131, R528, R529, R604). -/
def Obligations.CopyFillCheckExecute : Prop :=
  (∀ (s : State) (id : Nat) (c : Cmd) (ecc : Ecc) (n dst : Nat) (d : Dev), s.dev.cmd id = some c → c.op = 0x10 → c.phase = .running → ecc ≠ .uncorrectable →
    n = c.at 0x20 4 → 0 < n → dst = c.at 0x18 8 + 32 * (c.at 0x24 1 % 2) → d = s.dev.memEcc (c.at 0x10 8) ecc →
    s.dev.reach (.qe c.inst) (s.dev.world (.qe c.inst)) .read (c.at 0x10 8) n = n → d.reach (.qe c.inst) (d.world (.qe c.inst)) .write dst n = n →
    d.verdict (.qe c.inst) (d.world (.qe c.inst)) .write dst n = .ok →
    ∃ t, exec (.copy id ecc) s = .next t ∧ t.mem = (s.put dst (s.bytes (c.at 0x10 8) n)).mem ∧ t.flash = s.flash ∧ t.pending = s.pending ∧
      t.dev.cmd id = some { c with phase := .ended }) ∧
  (∀ (s : State) (id : Nat) (c : Cmd) (n dst r k : Nat), s.dev.cmd id = some c → c.op = 0x10 → c.phase = .running → n = c.at 0x20 4 →
    dst = c.at 0x18 8 + 32 * (c.at 0x24 1 % 2) → r = s.dev.reach (.qe c.inst) (s.dev.world (.qe c.inst)) .read (c.at 0x10 8) n →
    k = min r (s.dev.reach (.qe c.inst) (s.dev.world (.qe c.inst)) .write dst n) → k < n →
    (0 < k → s.dev.verdict (.qe c.inst) (s.dev.world (.qe c.inst)) .write dst k = .ok) →
    ∃ u : State, exec (.copy id .clean) s = .next (u.inputEnd id 0x22) ∧ u.mem = (if k = 0 then s.mem else (s.put dst (s.bytes (c.at 0x10 8) k)).mem) ∧
      u.dev.cmd id = some c) ∧
  (∀ (s : State) (id : Nat) (c : Cmd), s.dev.cmd id = some c → c.op = 0x10 → c.phase = .running →
    s.dev.reach (.qe c.inst) (s.dev.world (.qe c.inst)) .read (c.at 0x10 8) (c.at 0x20 4) ≠ 0 →
    exec (.copy id .uncorrectable) s = .next ((s.onDev (fun d => d.memEcc (c.at 0x10 8) .uncorrectable)).inputEnd id 0x32)) ∧
  (∀ (s : State) (id : Nat) (c : Cmd) (k : Nat), s.dev.cmd id = some c → c.op = 0x11 → c.phase = .running → c.desc.length = 64 → c.at 0x18 4 = 8 * k → 0 < k →
    s.dev.reach (.qe c.inst) (s.dev.world (.qe c.inst)) .write (c.at 0x10 8) (8 * k) = 8 * k →
    s.dev.verdict (.qe c.inst) (s.dev.world (.qe c.inst)) .write (c.at 0x10 8) (8 * k) = .ok →
    ∃ t bs, exec (.fill id) s = .next t ∧ t.mem = (s.put (c.at 0x10 8) bs).mem ∧ bs.length = 8 * k ∧ (∀ j, j < 8 * k → bs[j]? = c.desc[0x20 + j % 8]?) ∧
      t.flash = s.flash ∧ t.pending = s.pending ∧ t.dev.cmd id = some { c with phase := .ended }) ∧
  (∀ (s : State) (id : Nat) (c : Cmd) (n v : Nat), s.dev.cmd id = some c → c.op = 0x12 → c.phase = .running → n = c.at 0x18 4 → 0 < n →
    s.dev.verdict (.qe c.inst) (s.dev.world (.qe c.inst)) .read (c.at 0x10 8) n = .ok →
    v = crcOf (c.at 0x1C 1) (if c.at 0x30 4 ≠ 0 ∨ c.at 0x34 4 ≠ 0 then leBytes 4 (c.at 0x30 4) ++ leBytes 4 (c.at 0x34 4) ++ s.bytes (c.at 0x10 8) n
      else s.bytes (c.at 0x10 8) n) →
    (∃ t, exec (.check id .clean) s = .next t ∧ t = { s with dev := { s.dev with cmds := t.dev.cmds } } ∧
      t.dev.cmd id = some { c with phase := .ended, result := v, status := if c.at 0x1D 1 = 1 ∧ v ≠ c.at 0x20 8 then 2 else c.status }) ∧
    exec (.check id .uncorrectable) s = .next ((s.onDev (fun d => d.memEcc (c.at 0x10 8) .uncorrectable)).inputEnd id 0x32))

/-- KV_ALLOC, KV_FORK and KV_FREE: what each takes or checks before its commit point, and the status each fails with (R294, R295, R296, R297, R131). -/
def Obligations.SequenceCommandsExecute : Prop :=
  (∀ (s : State) (id : Nat) (c : Cmd) (x : Nat) (k : KvRec) (d : Dev), s.dev.cmd id = some c → c.op = 0x20 → c.phase = .running → s.dev.kvAlloc c = .ok (x, k, d) →
    ∃ t y, exec (.kvAlloc id) s = .next t ∧ t = { s with dev := t.dev } ∧ t.dev.cmd id = some y ∧ y.phase = .ended ∧ y.kvNew = some (x, k) ∧
      k.st = 1 ∧ k.inst = c.inst ∧ k.maxPages = c.at 0x18 4 ∧ k.slots = [] ∧ k.tag = nextTag (s.dev.kvRec x).tag ∧ (s.dev.kvRec x).st = 0) ∧
  (∀ (s : State) (id : Nat) (c : Cmd) (st : Nat), s.dev.cmd id = some c → c.op = 0x20 → c.phase = .running → s.dev.kvAlloc c = .error st →
    exec (.kvAlloc id) s = .next (s.finish id st 0).admitAll ∧ (st = 0x30 ∨ st = 0x31)) ∧
  (∀ (s : State) (id : Nat) (c : Cmd), s.dev.cmd id = some c → c.op = 0x22 → c.phase = .running →
    (∃ st, s.dev.kvFork c = .error st ∧ exec (.kvFork id) s = .next (s.finish id st 0).admitAll ∧
      (s.dev.kvLive (c.at 0x10 4) = false → st = 0x20) ∧
      (isReserved (c.at 0x10 4) = false → s.dev.kvLive (c.at 0x10 4) = true → s.dev.kvMine (c.at 0x10 4) c.inst = false → st = 0x22)) ∨
    (∃ t y x k, exec (.kvFork id) s = .next t ∧ t = { s with dev := t.dev } ∧ t.dev.cmd id = some y ∧ y.phase = .ended ∧ y.kvNew = some (x, k) ∧
      k.inst = (s.dev.kvRec (handleRec (c.at 0x10 4))).inst ∧ s.dev.kvLive (c.at 0x10 4) = true ∧ s.dev.kvMine (c.at 0x10 4) c.inst = true ∧
      k.length = (if c.at 0x14 4 = 0 then (s.dev.kvRec (handleRec (c.at 0x10 4))).length else c.at 0x14 4) ∧
      k.length ≤ (s.dev.kvRec (handleRec (c.at 0x10 4))).length)) ∧
  (∀ (s : State) (id : Nat) (c : Cmd), s.dev.cmd id = some c → c.op = 0x21 → c.phase = .running → s.dev.kvLive (c.at 0x10 4) = true →
    s.dev.kvMine (c.at 0x10 4) c.inst = true →
    exec (.kvFree id) s = .next { s with dev := { s.dev with cmds := KMap.put s.dev.cmds id { c with phase := .ended } } }) ∧
  (∀ (s : State) (id : Nat) (c : Cmd), s.dev.cmd id = some c → c.op = 0x21 → c.phase = .running →
    s.dev.kvLive (c.at 0x10 4) = false ∨ s.dev.kvMine (c.at 0x10 4) c.inst = false →
    exec (.kvFree id) s = .next (s.finish id (if s.dev.kvLive (c.at 0x10 4) = true then 0x22 else 0x20) 0).admitAll)

/-- FENCE waits for its scope, TIMESTAMP ends at once, SEND reads its frame; at the commit point TIMESTAMP's value is written (R115, R116, R119, R120, R121, R123). -/
def Obligations.FenceTimestampSendCommit : Prop :=
  (∀ (s : State) (id : Nat) (c : Cmd), s.dev.cmd id = some c → c.op = 0x40 → c.phase = .running → s.dev.earlierOpen id c (c.at 0x10 1 == 1) = false →
    exec (.fence id) s = .next { s with dev := { s.dev with cmds := KMap.put s.dev.cmds id { c with phase := .ended } } }) ∧
  (∀ (s : State) (id : Nat) (c : Cmd), s.dev.cmd id = some c → s.dev.earlierOpen id c (c.at 0x10 1 == 1) = true → exec (.fence id) s = .next s) ∧
  (∀ (s : State) (id : Nat) (c : Cmd), s.dev.cmd id = some c → c.op = 0x41 → c.phase = .running →
    exec (.timestamp id) s = .next { s with dev := { s.dev with cmds := KMap.put s.dev.cmds id { c with phase := .ended } } }) ∧
  (∀ (s : State) (id : Nat) (c : Cmd), s.dev.cmd id = some c → c.op = 0x50 → c.phase = .running → 0 < c.at 0x18 2 →
    s.dev.verdict (.qe c.inst) (s.dev.world (.qe c.inst)) .read (c.at 0x10 8) (c.at 0x18 2) = .ok →
    ∃ t, exec (.send id .clean) s = .next t ∧ t = { s with dev := { s.dev with cmds := t.dev.cmds } } ∧
      t.dev.cmd id = some { c with phase := .ended, frame := some (s.bytes (c.at 0x10 8) (c.at 0x18 2)) }) ∧
  (∀ (s : State) (id : Nat) (c : Cmd), s.dev.cmd id = some c → c.phase = .ended → s.dev.late c = false → s.dev.registerFails c = none →
    ∃ u : State, exec (.commitPoint id) s = .next u.admitAll ∧ u.dev.cmd id = none ∧ u.flash = s.flash ∧ u.pending = s.pending) ∧
  (∀ (s : State) (id : Nat) (c : Cmd), s.dev.cmd id = some c → c.phase = .ended → s.dev.late c = true → exec (.commitPoint id) s = .next (s.endCmd id 0x13)) ∧
  (∀ (s : State) (id : Nat) (c : Cmd), s.dev.cmd id = some c → c.phase = .ended → s.dev.late c = false → c.op = 0x41 → c.kv = [] → c.kvNew = none → c.frame = none → c.args = [] →
    s.dev.tilesOf id = [] → s.dev.verdict (.qe c.inst) (s.dev.world (.qe c.inst)) .write (c.at 0x10 8) 16 = .ok →
    ∃ v u : State, exec (.commitPoint id) s = .next u.admitAll ∧
      v.mem = (s.put (c.at 0x10 8) (leBytes 4 s.dev.nsField ++ leBytes 6 s.dev.secField ++ [0, 0] ++ leBytes 4 (s.dev.over % 2 ^ 32))).mem ∧
      u.mem = (v.writeRecord c c.finalStatus 0).mem)

/-- LOAD_PLAN checks and keeps its image, EVICT_PLAN finds its plan, and RUN_PLAN's tiles end its execution (R116, R131, R176, R324, R339, R600). -/
def Obligations.PlanCommandsExecute : Prop :=
  (∀ (s : State) (id : Nat) (c : Cmd) (code : CodeInfo) (m : List Byte), s.dev.cmd id = some c → c.op = 0x02 → c.phase = .running → c.image = [] → 0 < c.at 0x14 4 →
    s.dev.verdict (.qe c.inst) (s.dev.world (.qe c.inst)) .read (c.at 0x18 8) (c.at 0x14 4) = .ok → m = s.bytes (c.at 0x18 8) (c.at 0x14 4) →
    s.dev.loadPlanCheck c m code = none →
    ∃ u : State, exec (.loadPlan id code .clean) s = .next u.admitAll ∧ u = { s with dev := { s.dev with cmds := u.dev.cmds } } ∧
      u.dev.cmd id = some { c with image := m, code := code, crc := leAt m (m.length - 8) 8, phase := if c.at 0x20 1 % 4 = 0 ∨ imgRes m = 0 then .ended else .running }) ∧
  (∀ (s : State) (id : Nat) (c : Cmd) (code : CodeInfo) (m : List Byte) (st : Nat), s.dev.cmd id = some c → c.op = 0x02 → c.phase = .running → c.image = [] →
    0 < c.at 0x14 4 → s.dev.verdict (.qe c.inst) (s.dev.world (.qe c.inst)) .read (c.at 0x18 8) (c.at 0x14 4) = .ok → m = s.bytes (c.at 0x18 8) (c.at 0x14 4) →
    s.dev.loadPlanCheck c m code = some st → exec (.loadPlan id code .clean) s = .next (s.finish id st 0).admitAll) ∧
  (∀ (s : State) (id : Nat) (c : Cmd), s.dev.cmd id = some c → c.op = 0x03 → c.phase = .running →
    exec (.evictPlan id) s = .next (if (s.dev.plan c.inst c.planId).isSome = true then
        { s with dev := { s.dev with cmds := KMap.put s.dev.cmds id { c with phase := .ended } } }
      else (s.finish id 0x23 0).admitAll)) ∧
  (∀ (s : State) (id : Nat) (c : Cmd) (b : Bool), s.dev.cmd id = some c → c.op = 0x01 → c.phase = .running → s.dev.launchesDone c b = true →
    (∀ t ∈ c.copyTiles b, (s.dev.tile t).flight = []) →
    exec (.runPlan id [.done b]) s = .next { s with dev := { s.dev with cmds := KMap.put s.dev.cmds id (if s.dev.instSafe c.inst = false then { c with endedA := true, phase := .ended } else if b = true then { c with endedB := true } else { c with endedA := true }) } }) ∧
  (∀ (s : State) (id t : Nat) (c : Cmd), s.dev.cmd id = some c → c.op = 0x01 → c.phase = .running → s.dev.onIt id t = true →
    ∃ u v : State, exec (.runPlan id [.eccTile t true]) s = .next v ∧ v = u.ownFault id 0x32 false ∧ u = { s with dev := u.dev } ∧ u.dev.cmd id = some c)

/-- PLAN_LOAD_START takes the banks of a load that heads its stream; PLAN_LOAD_DONE checks the image again and makes the plan resident (R120, R325, R326, R327, R328, R330, R333, R600). -/
def Obligations.LoadsStartAndEnd : Prop :=
  (∀ (s : State) (id : Nat) (c : Cmd) (l : Load) (e : Dev) (taken : List (Nat × Nat)), s.dev.cmd id = some c → c.load = some l → l.started = none →
    s.dev.mayBegin (s.dev.instPart c.inst) = true → s.dev.headOf (s.dev.instPart c.inst) l.stream id = true →
    s.dev.takeBanks (s.dev.instPart c.inst) l.banks l.tiles = some (e, taken) →
    ∃ t, exec (.planLoadStart (.command id)) s = .next t ∧ t = { s with dev := { s.dev with cmds := t.dev.cmds, plans := t.dev.plans } } ∧
      t.dev.cmd id = some { c with load := some { l with started := some s.dev.now, taken := taken } }) ∧
  (∀ (s : State) (id : Nat) (c : Cmd) (l : Load), s.dev.cmd id = some c → c.load = some l → l.started = none →
    s.dev.mayBegin (s.dev.instPart c.inst) = true → s.dev.headOf (s.dev.instPart c.inst) l.stream id = true →
    s.dev.takeBanks (s.dev.instPart c.inst) l.banks l.tiles = none →
    (c.loads = false → ∃ u : State, exec (.planLoadStart (.command id)) s = .next u.admitAll ∧ u.dev.cmd id = some { c with load := none, phase := .waiting }) ∧
    (c.loads = true → s.dev.pinsHold (s.dev.instPart c.inst) l = false →
      ∃ u : State, exec (.planLoadStart (.command id)) s = .next u.admitAll ∧ u.dev.cmd id = some { c with load := none }) ∧
    (c.loads = true → s.dev.pinsHold (s.dev.instPart c.inst) l = true → 2 ≤ c.at 0x20 1 % 4 →
      exec (.planLoadStart (.command id)) s = .next (s.finish id 0x31 0).admitAll)) ∧
  (∀ (s : State) (id : Nat) (c : Cmd) (l : Load) (x : Plan) (m : List Byte), s.dev.cmd id = some c → c.load = some l → l.started ≠ none → c.phase ≠ .ended →
    c.loads = false → s.dev.cmdPlan c = some x → 0 < x.image.length → s.dev.verdict (.qe x.inst) (s.dev.world (.qe x.inst)) .read x.addr x.image.length = .ok →
    m = s.bytes x.addr x.image.length →
    (crcEndOk m = true → leAt m (m.length - 8) 8 = x.crc →
      ∃ u : State, exec (.planLoadDone ⟨.command id, .clean⟩) s = .next u.admitAll ∧ u.flash = s.flash ∧ u.pending = s.pending ∧ u.dev.cmd id = some { c with load := none } ∧
        ∀ y ∈ u.dev.plans, y.inst = x.inst → y.planId = x.planId → y.banks = l.taken ∧ y.reload = none ∧
          y.resident = (if imgSafety x.image = true then [0, 1] else [l.stream])) ∧
    (crcEndOk m = false ∨ leAt m (m.length - 8) 8 ≠ x.crc →
      ∃ u : State, exec (.planLoadDone ⟨.command id, .clean⟩) s = .next (u.inputEnd id 0x20) ∧ u = { s with dev := { s.dev with regs := u.dev.regs } } ∧
        u.dev.b Off.SCH_EVENTS 4 = true ∧ RegsSameBut s u [Off.SCH_EVENTS]) ∧
    (∃ u : State, exec (.planLoadDone ⟨.command id, .uncorrectable⟩) s = .next (u.inputEnd id 0x32) ∧ u.dev.b Off.SCH_EVENTS 4 = true ∧ u.dev.cmd id = some c))

/-- TILE_KILL re-queues a pre-empted command or writes its final record; budgets that elapse end a command or raise code 3 (R130, R173, R338, R339, R341, R353, R379). -/
def Obligations.KillsEndOrRequeue : Prop :=
  (∀ (s : State) (id : Nat) (c : Cmd), s.dev.cmd id = some c → c.phase = .stopping none →
    ∃ (u : State) (y : Cmd), exec (.tileKill id) s = .next u.admitAll ∧ u.dev.cmd id = some y ∧ y.kills = c.kills + 1 ∧ y.desc = c.desc ∧
      y.phase = (if (s.dev.inst c.inst).op = 1 then .held else .waiting) ∧ u.flash = s.flash ∧ u.pending = s.pending) ∧
  (∀ (s : State) (id st : Nat) (c : Cmd), s.dev.cmd id = some c → c.phase = .stopping (some st) → exec (.tileKill id) s = .next (s.finish id st 0).admitAll) ∧
  (∀ (s : State) (id : Nat) (c : Cmd), s.dev.cmd id = some c → c.phase = .running ∨ c.phase = .ended →
    c.startAt + (c.timeBudget + s.dev.graceUs) * 1000 ≤ s.dev.now →
    ∃ u t : State, exec (.budgetOverrunKill id) s = .next t ∧ u = { s with dev := { s.dev with regs := u.dev.regs } } ∧
      u.dev.n Off.SCH_CNT_OVERRUN = satInc 32 (s.dev.n Off.SCH_CNT_OVERRUN) ∧ u.dev.b Off.SCH_EVENTS 1 = true ∧
      RegsSameBut s u [Off.SCH_CNT_OVERRUN, Off.SCH_EVENTS] ∧
      (s.dev.tilesOf id = [] → t = u.finish id 0x13 0) ∧
      (s.dev.tilesOf id ≠ [] → t = { u with dev := { u.dev with regs := t.dev.regs, cmds := t.dev.cmds } } ∧ (∃ x, t.dev.cmd id = some { c with phase := .stopping (some 0x13), decided := some x }) ∧
        ∀ k ∈ s.dev.tilesOf id, t.dev.f (Off.TILE_STATUS k) 2 0 = 3)) ∧
  (∀ (s : State) (id : Nat) (c : Cmd), s.dev.cmd id = some c → c.phase = .running ∨ c.phase = .ended → c.op = 0x01 → s.dev.instSafe c.inst = true → c.overran = false →
    c.startAt + c.timeBudget * 1000 ≤ s.dev.now →
    ∃ t, exec (.safetyBudgetElapsed id) s = .next t ∧ t = { s with dev := t.dev } ∧ t.dev.cmd id = some { c with overran := true } ∧ t.dev.b Off.KPR_DOUBT 2 = true) ∧
  (∀ (s : State) (a n : Nat), a ∈ s.dev.discards → s.dev.rtEntry a = some n →
    ∃ t, exec (.runaheadDiscard a) s = .next t ∧ t = { s with dev := { s.dev with regs := t.dev.regs, discards := s.dev.discards.erase a } } ∧
      t.dev.n (Off.RT_DISCARD_CNT n) = satInc 32 (s.dev.n (Off.RT_DISCARD_CNT n)) ∧
      RegsSameBut s t [Off.RT_DISCARD_CNT n, Off.RT_DISCARD_ADDR_LO n, Off.RT_DISCARD_ADDR_HI n, Off.RT_EVENTS])

/-- TEARDOWN_COMPLETE, SCH_PART_RESET, PARTITION_RESET_END and INSTANCE_PARTITION_CHANGE (R106, R107, R345, R348, R359). -/
def Obligations.TeardownAndPartitionReset : Prop :=
  (∀ (s : State) (i : Nat) (stop : Bool), (s.dev.inst i).teardown = some stop →
    ∃ u : State, exec (.teardownComplete i) s = .next u.admitAll ∧ (u.dev.inst i).teardown = none ∧ u.dev.instState i = (if stop = true then 0 else 3) ∧
      u.dev.b (Off.QE_INST_EVENTS i) 0 = true ∧ u.flash = s.flash ∧ u.pending = s.pending) ∧
  (∀ (s : State) (m : Master) (p : Nat), p < 8 → s.dev.setupRefused m (Off.SCH_PART_RESET p) 4 = none → (s.dev.part p).resetting = false →
    ∃ t, exec (.schPartReset m p 1) s = .next t ∧ t.dev.resp = .ok ∧ (t.dev.part p).resetting = true ∧
      (∀ x ∈ (t.dev.part p).streams, x.admitted = [] ∧ x.moved = []) ∧ (∀ x ∈ t.dev.plans, t.dev.instPart x.inst = p → x.resident = [] ∧ x.banks = []) ∧
      t.flash = s.flash ∧ t.pending = s.pending) ∧
  (∀ (s : State) (p : Nat), (s.dev.part p).resetting = true →
    ∃ t, exec (.partitionResetEnd p) s = .next t ∧ (t.dev.part p).resetting = false ∧ (t.dev.part p).resumeAtEdge = true ∧ t.dev.b Off.SCH_EVENTS 2 = true ∧
      t.flash = s.flash ∧ t.pending = s.pending) ∧
  (∀ (s : State) (i : Nat), (s.dev.inst i).oldPart ≠ none → s.dev.instFlight i = 0 →
    ∃ u : State, exec (.instancePartitionChange i) s = .next u.admitAll ∧ u = { s with dev := { s.dev with insts := u.dev.insts, plans := u.dev.plans } } ∧
      u.dev.instPart i = s.dev.f (Off.QE_INST_SCHED i) 2 0 ∧ ∀ x ∈ u.dev.plans, x.inst = i → x.resident = [] ∧ x.banks = [])

/-- A step runs exec on the front command with the queue's rest; on an empty queue one nanosecond passes (log 3, the model's choice) (opcode_table.json, R24, R521). -/
def Obligations.StepRunsTheFrontCommand : Prop :=
  (∀ (s : State) (c : Instr) (q : List Instr), step { s with pending := c :: q } = exec c { s with pending := q }) ∧
  (∀ s : State, s.pending = [] → ∃ t, step s = .next t ∧ t = { s with dev := { s.dev with now := s.dev.now + 1, time := t.dev.time, regs := t.dev.regs } } ∧
    t.dev.time = { s.dev.time with sub := t.dev.time.sub, slew := t.dev.time.slew, run := t.dev.time.run } ∧
    t.dev.time.sub + t.dev.time.slew = s.dev.time.sub + s.dev.time.slew + 1024000000000 + s.dev.time.rate ∧
    t.dev.time.run - s.dev.time.run = t.dev.time.sub - s.dev.time.sub ∧ (s.dev.time.slew - t.dev.time.slew).natAbs ≤ 512000000 ∧
    RegsSameBut s t [Off.OVER_STATUS] ∧ (s.dev.time.slew ≠ 0 → t.dev.time.slew = 0 → t.dev.b Off.OVER_STATUS 4 = false) ∧
    (s.dev.time.slew = 0 ∨ t.dev.time.slew ≠ 0 → RegsSameBut s t [])) ∧
  (∀ (s : State) (nbits w : Nat), decodeTableWord nbits w = none ∧ s.withFetchWord nbits w = s)

/-- No command's effect touches the queue of waiting commands, and no command but a mailbox submission of another MAJOR stops the machine (R557). -/
def Obligations.EveryCommandLeavesTheQueue : Prop :=
  (∀ (c : Instr) (s t : State), exec c s = .next t → t.pending = s.pending) ∧
  (∀ (c : Instr) (s : State) (r : Refusal), exec c s ≠ .refused r) ∧
  (∀ (c : Instr) (s : State) (f : Fault), exec c s = .fault f → f = .mboxMajorUndefined ∧
    ((∃ m ch v, c = .mbxSubmit m ch v) ∨ (∃ m o n v, c = .registerWrite m o n v) ∨ (∃ m a k bs n e, c = .mainFabricAccess m a k bs n e) ∨
      (∃ p a n l x e, c = .islandRead p a n l x e) ∨ (∃ p a bs n l, c = .islandWrite p a bs n l) ∨ (∃ p a bs, c = .debugMemoryWrite p a bs) ∨
      (∃ p a n h, c = .exclusiveLoad p a n h) ∨ (∃ p a bs, c = .exclusiveStore p a bs) ∨ (∃ p a bs h, c = .lockedReadWrite p a bs h) ∨
      ∃ p a w o x h, c = .atomicOperation p a w o x h))

/-- Every step keeps main memory and flash in their canonical form (R44, R91). -/
def Obligations.MemoryStaysCanonical : Prop :=
  ∀ s t : State, s.MemOk → step s = .next t → t.MemOk

/-- The state after reset: canonical empty memories, an empty queue, no work in flight, and the registers at the reset values the spec gives (R16, R26, R41, R57, R363, R415, R595). -/
def Obligations.ResetState : Prop :=
  State.reset.MemOk ∧ State.reset.mem = [] ∧ State.reset.flash = [] ∧ State.reset.pending = [] ∧
  (let d := State.reset.dev
   d.cmds = [] ∧ d.insts = [] ∧ d.plans = [] ∧ d.kv.recs = [] ∧ d.stage = 0 ∧ d.over = 0 ∧ d.srcState = 0 ∧ d.b Off.OVER_STATUS 2 = true ∧
   d.f Off.OVER_CTRL 8 0 = 20 ∧ d.f Off.OVER_CTRL 22 16 = 16 ∧ d.f Off.SCH_CTRL 3 0 = 15 ∧ d.safetyNow = none ∧ d.f Off.KPR_CARD_CTRL 3 0 = 2 ∧
   d.f Off.KPR_CARD_CTRL 15 8 = 8 ∧ d.tap.ir = 1 ∧ d.overNs = 1000000 ∧ d.balls = 16)

/-- QE_FREEZE: BUSY and DENIED where R352 says so; FREEZE holds commands, FREEZE_DONE is FROZEN, THAW puts them back, DISCARD drops them (R123, R126, R342, R351, R352, R353). -/
def Obligations.FreezeThawDiscard : Prop :=
  (∀ (s : State) (m : Master) (i : Nat) (c : Instr), c ∈ [.freeze m i, .save m i, .restore m i, .thaw m i, .discard m i] →
    s.dev.setupRefused m (Off.QE_FREEZE i) 4 = none →
    (s.dev.inst i).op ≠ 0 ∨ (s.dev.inst i).teardown ≠ none ∨ (s.dev.part (s.dev.instPart i)).resetting = true →
    exec c s = .next { s with dev := (s.dev.setF (Off.QE_FREEZE_STATUS i) 31 16 0x31).answer .ok }) ∧
  (∀ (s : State) (m : Master) (i op : Nat) (c : Instr), s.dev.setupRefused m (Off.QE_FREEZE i) 4 = none →
    (s.dev.inst i).op = 0 → (s.dev.inst i).teardown = none → (s.dev.part (s.dev.instPart i)).resetting = false →
    (c = .freeze m i ∧ op = 1 ∧ (s.dev.instState i ≠ 1 ∨ s.dev.instSafe i = true)) ∨
    ((c, op) ∈ [(.save m i, 2), (.thaw m i, 4), (.discard m i, 5)] ∧ s.dev.instState i ≠ 2) ∨
    (c = .restore m i ∧ op = 3 ∧ (s.dev.instState i ≠ 0 ∨ s.dev.instSafe i = true ∨
      ∃ r < 16, s.dev.b (Off.QE_CMD_CTRL i r) 0 = true ∨ s.dev.b (Off.QE_CPL_CTRL i r) 0 = true)) →
    ∃ t, exec c s = .next t ∧ t = { s with dev := { s.dev with regs := t.dev.regs, insts := t.dev.insts, resp := .ok } } ∧
      t.dev.inst i = s.dev.inst i ∧ t.dev.f (Off.QE_FREEZE_STATUS i) 31 16 = 0x22 ∧ t.dev.f (Off.QE_FREEZE_STATUS i) 2 0 = op ∧
      t.dev.b (Off.QE_FREEZE_STATUS i) 3 = false ∧ RegsSameBut s t [Off.QE_FREEZE_STATUS i]) ∧
  (∀ (s : State) (m : Master) (i : Nat), s.dev.setupRefused m (Off.QE_FREEZE i) 4 = none → (s.dev.inst i).op = 0 → (s.dev.inst i).teardown = none →
    (s.dev.part (s.dev.instPart i)).resetting = false → s.dev.instState i = 1 → s.dev.instSafe i = false →
    ∃ u : State, exec (.freeze m i) s = .next ((u.forAll (u.dev.cmdsOf i) (fun id x => x.holdCmd id)).onDev (fun d => d.answer .ok)) ∧
      u = { s with dev := { s.dev with regs := u.dev.regs, insts := u.dev.insts } } ∧ u.dev.f (Off.QE_FREEZE_STATUS i) 2 0 = 1 ∧
      u.dev.b (Off.QE_FREEZE_STATUS i) 3 = true ∧ RegsSameBut s u [Off.QE_FREEZE_STATUS i] ∧ (u.dev.inst i).op = 1 ∧
      (u.dev.inst i).frozenOver = s.dev.over % 2 ^ 32 ∧ u.dev.instHeld i = true) ∧
  (∀ (s : State) (id : Nat) (c : Cmd), s.dev.cmd id = some c → c.phase = .waiting →
    s.holdCmd id = { s with dev := { s.dev with cmds := KMap.put s.dev.cmds id { c with phase := .held, load := none } } }) ∧
  (∀ (s : State) (id : Nat) (c : Cmd), s.dev.cmd id = some c → c.phase = .admitted →
    ∃ y, (s.holdCmd id).dev.cmd id = some y ∧ y.phase = .held ∧ y.desc = c.desc ∧ y.kills = c.kills ∧ (s.holdCmd id).mem = s.mem) ∧
  (∀ (s : State) (id : Nat) (c : Cmd), s.dev.cmd id = some c → c.phase = .running → s.dev.tilesOf id ≠ [] →
    (∃ x, (s.holdCmd id).dev.cmd id = some { c with phase := .stopping none, decided := some x }) ∧ (s.holdCmd id).mem = s.mem ∧
      ∀ k ∈ s.dev.tilesOf id, (s.holdCmd id).dev.f (Off.TILE_STATUS k) 2 0 = 3) ∧
  (∀ (s : State) (i : Nat), (s.dev.inst i).op = 1 → (∀ id ∈ s.dev.cmdsOf i, ∃ c, s.dev.cmd id = some c ∧ c.phase = .held) →
    ∃ u : State, exec (.freezeDone i) s = .next u.admitAll ∧ u = { s with dev := { s.dev with regs := u.dev.regs, insts := u.dev.insts } } ∧
      u.dev.instState i = 2 ∧ (u.dev.inst i).op = 0 ∧ u.dev.f (Off.QE_FREEZE_STATUS i) 31 16 = 0 ∧ u.dev.b (Off.QE_FREEZE_STATUS i) 3 = false ∧
      RegsSameBut s u [Off.QE_FREEZE_STATUS i, Off.QE_INST_STATUS i]) ∧
  (∀ (s : State) (m : Master) (i : Nat), s.dev.setupRefused m (Off.QE_FREEZE i) 4 = none → (s.dev.inst i).op = 0 → (s.dev.inst i).teardown = none →
    (s.dev.part (s.dev.instPart i)).resetting = false → s.dev.instState i = 2 →
    ∃ u : State, exec (.thaw m i) s = .next (u.deadlines.admitAll.onDev (fun d => d.answer .ok)) ∧
      u = { s with dev := { s.dev with regs := u.dev.regs, insts := u.dev.insts, cmds := u.dev.cmds } } ∧ u.dev.instState i = 1 ∧
      u.dev.f (Off.QE_FREEZE_STATUS i) 31 16 = 0 ∧ RegsSameBut s u [Off.QE_FREEZE_STATUS i, Off.QE_INST_STATUS i] ∧
      ∀ id c, s.dev.cmd id = some c → u.dev.cmd id = some (if c.inst = i ∧ c.phase = .held then { c with phase := .waiting } else c)) ∧
  (∀ (s : State) (m : Master) (i : Nat), i < 256 → s.dev.setupRefused m (Off.QE_FREEZE i) 4 = none → (s.dev.inst i).op = 0 →
    (s.dev.inst i).teardown = none → (s.dev.part (s.dev.instPart i)).resetting = false → s.dev.instState i = 2 →
    ∃ t, exec (.discard m i) s = .next t ∧
      t = { s with dev := { s.dev with regs := t.dev.regs, insts := t.dev.insts, cmds := s.dev.cmds.filter (fun x => x.2.inst != i)
                                       plans := s.dev.plans.filter (fun p => p.inst != i), resp := .ok } } ∧
      t.dev.instState i = 0 ∧ t.dev.b (Off.QE_INST_CTRL i) 0 = false ∧ t.dev.f (Off.QE_FREEZE_STATUS i) 31 16 = 0 ∧
      ∀ r < 16, t.dev.b (Off.QE_CMD_CTRL i r) 0 = false ∧ t.dev.ringState i r = 0 ∧ t.dev.b (Off.QE_CPL_CTRL i r) 0 = false)

/-- SAVE writes the save image or, without room, nothing beyond its space; RESTORE reads and checks it; their ends report the outcome (R352, R354, R355, R356). -/
def Obligations.SaveAndRestore : Prop :=
  (∀ (s : State) (m : Master) (i : Nat) (e : Dev), s.dev.setupRefused m (Off.QE_FREEZE i) 4 = none → (s.dev.inst i).op = 0 → (s.dev.inst i).teardown = none →
    (s.dev.part (s.dev.instPart i)).resetting = false → s.dev.instState i = 2 →
    e = (s.dev.freezeBusy i 2).onInst i (fun x => { x with image := [], opResult := 0x20 }) → (s.dev.saveImage i).length ≤ s.dev.n (Off.QE_SAVE_BYTES i) →
    e.verdict (.qe i) (e.world (.qe i)) .write (s.dev.saveAddr i) (s.dev.saveImage i).length = .ok →
    ∃ t, exec (.save m i) s = .next t ∧ t.mem = (s.put (s.dev.saveAddr i) (s.dev.saveImage i)).mem ∧ t.dev.resp = .ok ∧ t.flash = s.flash ∧ t.pending = s.pending ∧
      (t.dev.inst i).op = 2 ∧ (t.dev.inst i).opResult = 0 ∧ (t.dev.inst i).image = s.dev.saveImage i ∧ t.dev.cmds = s.dev.cmds ∧ t.dev.plans = s.dev.plans) ∧
  (∀ (s : State) (m : Master) (i : Nat), s.dev.setupRefused m (Off.QE_FREEZE i) 4 = none → (s.dev.inst i).op = 0 → (s.dev.inst i).teardown = none →
    (s.dev.part (s.dev.instPart i)).resetting = false → s.dev.instState i = 2 → s.dev.n (Off.QE_SAVE_BYTES i) < (s.dev.saveImage i).length →
    ∃ t, exec (.save m i) s = .next t ∧ BytesSameBut s t (s.dev.localAddr (s.dev.saveAddr i)) (s.dev.n (Off.QE_SAVE_BYTES i)) ∧ t.flash = s.flash ∧
      t.pending = s.pending ∧ (t.dev.inst i).op = 2 ∧ (t.dev.inst i).opResult = 0x20 ∧ t.dev.cmds = s.dev.cmds ∧ t.dev.plans = s.dev.plans) ∧
  (∀ (s : State) (i : Nat), (s.dev.inst i).op = 2 →
    ∃ t, exec (.saveDone i) s = .next t ∧ t = { s with dev := { s.dev with regs := t.dev.regs, insts := t.dev.insts, fresh := t.dev.fresh } } ∧
      t.dev.f (Off.QE_FREEZE_STATUS i) 31 16 = (s.dev.inst i).opResult % 2 ^ 16 ∧ t.dev.b (Off.QE_FREEZE_STATUS i) 3 = false ∧ (t.dev.inst i).op = 0 ∧
      ((s.dev.inst i).opResult = 0 → t.dev.n (Off.QE_SAVE_USED i) = (s.dev.inst i).image.length % 2 ^ 64) ∧
      RegsSameBut s t [Off.QE_FREEZE_STATUS i, Off.QE_SAVE_USED i]) ∧
  (∀ (s : State) (m : Master) (i : Nat) (e : Dev) (head img : List Byte), s.dev.setupRefused m (Off.QE_FREEZE i) 4 = none → (s.dev.inst i).op = 0 →
    (s.dev.inst i).teardown = none → (s.dev.part (s.dev.instPart i)).resetting = false → s.dev.instState i = 0 → s.dev.instSafe i = false →
    (∀ r < 16, s.dev.b (Off.QE_CMD_CTRL i r) 0 = false ∧ s.dev.b (Off.QE_CPL_CTRL i r) 0 = false) →
    e = (s.dev.freezeBusy i 3).onInst i (fun x => { x with image := [], seqs := [], opResult := 0 }) → head = s.bytes (s.dev.saveAddr i) 64 →
    img = s.bytes (s.dev.saveAddr i) (leAt head 0x10 4) → e.verdict (.qe i) (e.world (.qe i)) .read (s.dev.saveAddr i) 64 = .ok →
    e.verdict (.qe i) (e.world (.qe i)) .read (s.dev.saveAddr i) (leAt head 0x10 4) = .ok → (imgSeqs img).1 = [] →
    ∃ t, exec (.restore m i) s = .next t ∧ t.mem = s.mem ∧ t.flash = s.flash ∧ t.pending = s.pending ∧ t.dev.resp = .ok ∧ (t.dev.inst i).op = 3 ∧
      (t.dev.inst i).opResult = e.restoreCheck img ∧ (e.restoreCheck img = 0 → (t.dev.inst i).image = img) ∧ t.dev.cmds = s.dev.cmds ∧ t.dev.plans = s.dev.plans) ∧
  (∀ (s : State) (i : Nat) (ecc : Ecc) (codes : List CodeInfo), i < 256 → (s.dev.inst i).op = 3 → (s.dev.inst i).opResult ≠ 0 → (s.dev.inst i).seqs = [] →
    ∃ t, exec (.restoreDone i ecc codes) s = .next t ∧ t.mem = s.mem ∧ t.flash = s.flash ∧ t.pending = s.pending ∧ (t.dev.inst i).op = 0 ∧
      t.dev.f (Off.QE_FREEZE_STATUS i) 31 16 = (s.dev.inst i).opResult % 2 ^ 16 ∧ t.dev.b (Off.QE_FREEZE_STATUS i) 3 = false ∧
      t.dev.instState i = s.dev.instState i ∧ t.dev.cmds = s.dev.cmds ∧ t.dev.plans = s.dev.plans) ∧
  (∀ (s v : State) (i : Nat) (codes : List CodeInfo) (m : List Byte), i < 256 → m = (s.dev.inst i).image → (s.dev.inst i).op = 3 → (s.dev.inst i).opResult = 0 →
    (s.dev.inst i).seqs = [] → s.restorePlans m i ((List.range (imgPlans m).length).map (fun k => ((imgPlans m).getD k 0, codes.getD k noCode))) = .ok v →
    ∃ u : State, exec (.restoreDone i .clean codes) s = .next u.deadlines.admitAll ∧ u.dev.instState i = 1 ∧ u.dev.b (Off.QE_INST_CTRL i) 0 = true ∧
      u.dev.f (Off.QE_FREEZE_STATUS i) 31 16 = 0 ∧ u.dev.b (Off.QE_FREEZE_STATUS i) 3 = false ∧ (u.dev.inst i).op = 0 ∧ u.mem = v.mem ∧
      ∀ r < 16, u.dev.n (Off.QE_DB_GEN i r) = leAt m (64 + 32 * r + 20) 4 ∧ u.dev.n (Off.QE_CMD_CONS i r) = leAt m (64 + 32 * r + 24) 4)

/-- MAIN_FABRIC_ACCESS reads and writes admitted memory, reaches registers through set-up space, and gets error responses elsewhere (R45, R46, R49, R52, R372, R374). -/
def Obligations.MainFabricAccesses : Prop :=
  (∀ (s : State) (m : Master) (a n : Nat) (bs : List Byte), s.dev.masterRuns m = true → s.dev.safetyReset = false → a < 0xF0000000 ∨ 0x100000000 ≤ a →
    s.dev.verdict m (s.dev.world m) .read a n = .ok →
    exec (.mainFabricAccess m a .read bs n .clean) s = .next { s with dev := { s.dev with resp := .bytes (s.bytes a n) } }) ∧
  (∀ (s : State) (m : Master) (a n : Nat) (bs : List Byte), s.dev.masterRuns m = true → a < 0xF0000000 ∨ 0x100000000 ≤ a → s.dev.verdict m (s.dev.world m) .read a n = .ok →
    ∃ u : State, exec (.mainFabricAccess m a .read bs n .uncorrectable) s = .next u.serveReset ∧ u = { s with dev := u.dev } ∧ u.dev.resp = .error) ∧
  (∀ (s : State) (m : Master) (a n : Nat) (bs : List Byte) (e : Ecc), s.dev.masterRuns m = true → a < 0xF0000000 ∨ 0x100000000 ≤ a →
    s.dev.verdict m (s.dev.world m) .write a bs.length = .ok →
    ∃ t, exec (.mainFabricAccess m a .write bs n e) s = .next t ∧ t.mem = (s.put a bs).mem ∧ t.dev.resp = .ok ∧ t.flash = s.flash ∧ t.pending = s.pending) ∧
  (∀ (s : State) (m : Master) (a n : Nat) (k : AccessKind) (bs : List Byte) (e : Ecc), s.dev.masterRuns m = true → a < 0xF0000000 ∨ 0x100000000 ≤ a →
    s.dev.verdict m (s.dev.world m) k a (match k with | .read => n | .write => bs.length) ≠ .ok →
    ∃ t, exec (.mainFabricAccess m a k bs n e) s = .next t ∧ t = { s with dev := { s.dev with regs := t.dev.regs, resp := .error } }) ∧
  (∀ (s : State) (m : Master) (a n : Nat) (k : AccessKind) (bs : List Byte) (e : Ecc), s.dev.masterRuns m = false →
    exec (.mainFabricAccess m a k bs n e) s = .next s) ∧
  (∀ (s : State) (m : Master) (off n : Nat) (bs : List Byte) (e : Ecc), off < 0x10000000 →
    exec (.mainFabricAccess m (0xF0000000 + off) .write bs n e) s = exec (.registerWrite m off bs.length (leNat bs)) s ∧
    exec (.mainFabricAccess m (0xF0000000 + off) .read bs n e) s = .next { s with dev := s.dev.setupRead m off n }) ∧
  (∀ (s : State) (m : Master) (w : Bool) (k : AccessKind) (a n e x : Nat), s.dev.region a = some (.scratch x, e) ∨ s.dev.region a = some (.hbm, e) →
    a + n ≤ e → s.dev.rtAdmits a n w = false → s.dev.verdict m w k a n = .range) ∧
  (∀ (d : Dev) (a x : Nat), d.rtEntry a = some x ↔ x < 64 ∧ d.b (Off.RT_ATTR x) 0 = true ∧ d.rtBase x ≤ a ∧ a < d.rtLimit x ∧
    ∀ y < x, ¬(d.b (Off.RT_ATTR y) 0 = true ∧ d.rtBase y ≤ a ∧ a < d.rtLimit y)) ∧
  (∀ (s : State) (a : Nat), a < 0x10000000000 → s.byte (0x100000000000 + s.dev.f Off.GLB_MODULE 1 0 * 0x10000000000 + a) = s.byte (0x10000000000 + a))

/-- The island bridge: held reads and their 10 µs limit, posted and held writes, write errors, and main-side accesses to the island windows (R395, R396, R397, R398, R399, R438). -/
def Obligations.IslandBridgeTransfers : Prop :=
  (∀ (s : State) (p a n ns : Nat) (x : Bool), s.dev.islandRuns p = true → s.dev.safetyReset = false → islandOwn a = true → s.dev.verdict (.island p) true .read a n = .ok →
    exec (.islandRead p a n ns x .clean) s = .next { s with dev := { s.dev with resp := .bytes (s.bytes a n) } }) ∧
  (∀ (s : State) (p a n ns : Nat), s.dev.islandRuns p = true → s.dev.safetyReset = false → islandOwn a = false → a < 0xF0000000 ∨ 0x100000000 ≤ a →
    ns ≤ 10000 → s.dev.bridge.posted = [] → (s.dev.held ns).verdict (.island p) true .read a n = .ok →
    ∃ t, exec (.islandRead p a n ns false .clean) s = .next t ∧ t = { s with dev := { s.dev with regs := t.dev.regs, resp := .bytes (s.bytes a n) } } ∧
      t.dev.n Off.IBR_MAX_HOLD = max (s.dev.n Off.IBR_MAX_HOLD) ns ∧ RegsSameBut s t [Off.IBR_MAX_HOLD]) ∧
  (∀ (s : State) (p a : Nat), s.dev.islandRuns p = true →
    (∃ t, exec (.readTimeout p a) s = .next t ∧ t = { s with dev := { s.dev with regs := t.dev.regs, resp := .error } } ∧
      t.dev.n Off.IBR_CNT_TIMEOUT = satInc 32 (s.dev.n Off.IBR_CNT_TIMEOUT) ∧ t.dev.b Off.IBR_EVENTS 0 = true ∧
      t.dev.addr Off.IBR_ERR_ADDR_LO Off.IBR_ERR_ADDR_HI = a % 2 ^ 52) ∧
    ∀ (n ns : Nat) (x : Bool) (e : Ecc), islandOwn a = false → 10000 < ns → exec (.islandRead p a n ns x e) s = exec (.readTimeout p a) s) ∧
  (∀ (s : State) (p a ns : Nat) (bs : List Byte), s.dev.islandRuns p = true → islandOwn a = false → s.dev.memType a bs.length = true →
    s.dev.bridge.posted.length < 8 →
    ∃ t, exec (.islandWrite p a bs 0 ns) s = .next t ∧
      t = { s with dev := { s.dev with regs := t.dev.regs, bridge := { posted := s.dev.bridge.posted ++ [(p, a, bs)] }, resp := .ok } } ∧
      RegsSameBut s t [Off.IBR_MAX_HOLD]) ∧
  (∀ (s : State) (p a ns : Nat) (bs : List Byte), s.dev.islandRuns p = true → islandOwn a = false → s.dev.memType a bs.length = true →
    8 ≤ s.dev.bridge.posted.length → 10000 < ns →
    ∃ t, exec (.islandWrite p a bs 0 ns) s = .next t ∧ t = { s with dev := { s.dev with regs := t.dev.regs, resp := .error } } ∧
      t.dev.n Off.IBR_CNT_TIMEOUT = satInc 32 (s.dev.n Off.IBR_CNT_TIMEOUT)) ∧
  (∀ (s : State) (p a ns q b : Nat) (bs cs : List Byte) (rest : List (Nat × Nat × List Byte)), s.dev.islandRuns p = true → islandOwn a = false →
    s.dev.memType a bs.length = true → s.dev.bridge.posted = (q, b, cs) :: rest → rest.length = 7 → ns ≤ 10000 → b < 0xF0000000 ∨ 0x100000000 ≤ b →
    s.dev.verdict (.island q) true .write b cs.length = .ok →
    ∃ t, exec (.islandWrite p a bs 0 ns) s = .next t ∧ t.mem = (s.put b cs).mem ∧ t.dev.bridge.posted = rest ++ [(p, a, bs)] ∧ t.dev.resp = .ok ∧
      t.flash = s.flash ∧ t.pending = s.pending) ∧
  (∀ (s : State) (p a ns : Nat) (bs : List Byte), s.dev.islandRuns p = true → islandOwn a = false → s.dev.memType a bs.length = false →
    a < 0xF0000000 ∨ 0x100000000 ≤ a → ns ≤ 10000 → s.dev.bridge.posted = [] → (s.dev.held ns).verdict (.island p) true .write a bs.length = .ok →
    ∃ t, exec (.islandWrite p a bs 0 ns) s = .next t ∧ t.mem = (s.put a bs).mem ∧ t.dev.resp = .ok ∧ t.flash = s.flash ∧ t.pending = s.pending) ∧
  (∀ (s : State) (q a : Nat) (bs : List Byte) (rest : List (Nat × Nat × List Byte)), s.dev.bridge.posted = (q, a, bs) :: rest →
    ∃ t, exec .writeError s = .next t ∧ t = { s with dev := { s.dev with regs := t.dev.regs, bridge := { posted := rest } } } ∧
      t.dev.b Off.IBR_EVENTS 1 = true ∧ t.dev.addr Off.IBR_ERR_ADDR_LO Off.IBR_ERR_ADDR_HI = a % 2 ^ 52) ∧
  (∀ (s : State) (m : Master) (a n : Nat) (bs : List Byte) (x : Bool) (bus : List (Nat × Bool)) (g : Nat × Bool), s.dev.masterRuns m = true →
    s.dev.safetyReset = false → islandOwn a = true → g = grantPieces s.dev.mainLimit 0 0 bus → g.2 = false ∨ pieceCount a n ≤ g.1 →
    (s.dev.crossed x).verdict m (s.dev.world m) .read a n = .ok →
    ∃ t, exec (.mainIslandAccess m a .read bs n false ⟨x, bus⟩ .clean) s = .next t ∧
      t = { s with dev := { s.dev with regs := t.dev.regs, resp := .bytes (s.bytes a n) } } ∧
      t.dev.n Off.IBR_CNT_CROSS = (if x then satInc 32 (s.dev.n Off.IBR_CNT_CROSS) else s.dev.n Off.IBR_CNT_CROSS)) ∧
  (∀ (s : State) (m : Master) (a n : Nat) (bs : List Byte) (bus : List (Nat × Bool)) (g : Nat × Bool) (e : Ecc), s.dev.masterRuns m = true →
    islandOwn a = true → g = grantPieces s.dev.mainLimit 0 0 bus → g.2 = false ∨ pieceCount a bs.length ≤ g.1 →
    s.dev.verdict m (s.dev.world m) .write a bs.length = .ok →
    ∃ t, exec (.mainIslandAccess m a .write bs n false ⟨false, bus⟩ e) s = .next t ∧ t.mem = (s.put a bs).mem ∧ t.dev.resp = .ok ∧ t.flash = s.flash ∧
      t.pending = s.pending) ∧
  (∀ (s : State) (m : Master) (a n : Nat) (k : AccessKind) (bs : List Byte) (bus : List (Nat × Bool)) (e : Ecc), s.dev.masterRuns m = true →
    islandOwn a = true → s.dev.verdict m (s.dev.world m) k a (match k with | .read => n | .write => bs.length) = .island →
    ∃ t, exec (.mainIslandAccess m a k bs n false ⟨false, bus⟩ e) s = .next t ∧ t = { s with dev := { s.dev with regs := t.dev.regs, resp := .error } } ∧
      t.dev.n Off.IBR_CNT_DENIED = satInc 32 (s.dev.n Off.IBR_CNT_DENIED) ∧ t.dev.b Off.IBR_EVENTS 4 = true ∧
      RegsSameBut s t [Off.IBR_CNT_DENIED, Off.IBR_EVENTS]) ∧
  (∀ (s : State) (m : Master) (a n : Nat) (k : AccessKind) (bs : List Byte) (x : Bool) (bus : List (Nat × Bool)) (e : Ecc), s.dev.masterRuns m = true →
    exec (.mainIslandAccess m a k bs n true ⟨x, bus⟩ e) s = .next { s with dev := s.dev.answer .error }) ∧
  (∀ (s : State) (m : Master) (a n len : Nat) (k : AccessKind) (bs : List Byte) (bus : List (Nat × Bool)) (g : Nat × Bool) (e : Ecc),
    s.dev.masterRuns m = true → islandOwn a = true → len = (match k with | .read => n | .write => bs.length) →
    g = grantPieces s.dev.mainLimit 0 0 bus → g.1 < pieceCount a len → s.dev.verdict m (s.dev.world m) k a len = .ok →
    (∃ t, exec (.mainTimeout m a k bs n bus) s = .next t ∧ t.dev.resp = .error ∧ t.dev.b Off.IBR_EVENTS 5 = true ∧
      BytesSameBut s t a (match k with | .read => 0 | .write => pieceBytes a len g.1) ∧ t.flash = s.flash ∧ t.pending = s.pending ∧
      (k = .write → s.dev.verdict m (s.dev.world m) .write a (bs.take (pieceBytes a len g.1)).length = .ok →
        t.mem = (s.put a (bs.take (pieceBytes a len g.1))).mem)) ∧
    (g.2 = true → exec (.mainIslandAccess m a k bs n false ⟨false, bus⟩ e) s = exec (.mainTimeout m a k bs n bus) s)) ∧
  (∀ (s : State) (m : Master) (a n : Nat) (k : AccessKind) (bs : List Byte) (bus : List (Nat × Bool)),
    pieceCount a (match k with | .read => n | .write => bs.length) ≤ (grantPieces s.dev.mainLimit 0 0 bus).1 →
    exec (.mainTimeout m a k bs n bus) s = .next s) ∧
  (∀ (s : State) (p a n ns : Nat) (bs : List Byte) (x : Bool) (e : Ecc), s.dev.islandRuns p = false →
    exec (.islandRead p a n ns x e) s = .next s ∧ exec (.readTimeout p a) s = .next s ∧ exec (.islandWrite p a bs 0 ns) s = .next s)

/-- Exclusive, locked and atomic sequences from the island through the bridge's 16 semaphores (R369, R396, R400, R438). -/
def Obligations.IslandBridgeSemaphores : Prop :=
  (∀ (s : State) (p a n ns lost : Nat), s.dev.islandRuns p = true → s.dev.safetyReset = false → s.dev.memType a n = true → a < 0xF0000000 ∨ 0x100000000 ≤ a →
    ns ≤ 10000 → s.dev.bridge.posted = [] →
    ∃ t, exec (.exclusiveLoad p a n ⟨ns, lost, .clean⟩) s = .next t ∧ t.mem = s.mem ∧ t.flash = s.flash ∧ t.pending = s.pending ∧
      (t.dev.b Off.IBR_EVENTS 3 = true ∨ ∃ k < 16, t.dev.b Off.IBR_STATUS (16 + k) = true ∧ t.dev.b (Off.IBR_SEM k) 0 = true ∧
        t.dev.f (Off.IBR_SEM k) 3 1 = p % 8 ∧ t.dev.f (Off.IBR_SEM k) 51 6 = a % 2 ^ 52 / 64)) ∧
  (∀ (s : State) (p a n ns lost : Nat), s.dev.islandRuns p = true → s.dev.safetyReset = false → s.dev.memType a n = true → a < 0xF0000000 ∨ 0x100000000 ≤ a →
    ns ≤ 10000 → s.dev.bridge.posted = [] → ((s.dev.held ns).takeSem p a).2.verdict (.island p) true .read a n = .ok →
    ∃ t, exec (.exclusiveLoad p a n ⟨ns, lost, .clean⟩) s = .next t ∧ t.dev.resp = .bytes (s.bytes a n)) ∧
  (∀ (s : State) (p a : Nat) (bs : List Byte), s.dev.islandRuns p = true → s.dev.memType a bs.length = true → a < 0xF0000000 ∨ 0x100000000 ≤ a →
    s.dev.bridge.posted = [] → s.dev.semValid p a = true → s.dev.verdict (.island p) true .write a bs.length = .ok →
    ∃ t, exec (.exclusiveStore p a bs) s = .next t ∧ t.mem = (s.put a bs).mem ∧ t.dev.resp = .data 1 ∧ t.flash = s.flash ∧ t.pending = s.pending ∧
      ∀ k < 16, ¬(t.dev.b Off.IBR_STATUS (16 + k) = true ∧ t.dev.f (Off.IBR_SEM k) 3 1 = p)) ∧
  (∀ (s : State) (p a : Nat) (bs : List Byte), s.dev.islandRuns p = true → s.dev.memType a bs.length = true → a < 0xF0000000 ∨ 0x100000000 ≤ a →
    s.dev.bridge.posted = [] → s.dev.semValid p a = false →
    ∃ t, exec (.exclusiveStore p a bs) s = .next t ∧ t = { s with dev := { s.dev with regs := t.dev.regs, resp := .data 0 } } ∧
      ∀ k < 16, ¬(t.dev.b Off.IBR_STATUS (16 + k) = true ∧ t.dev.f (Off.IBR_SEM k) 3 1 = p)) ∧
  (∀ (s : State) (m : Master) (a k : Nat) (bs : List Byte), isIsland m = false → s.dev.masterRuns m = true → a < 0x100000000000 → bs ≠ [] → k < 16 →
    s.dev.verdict m (s.dev.world m) .write a bs.length = .ok → s.dev.b Off.IBR_STATUS (16 + k) = true → s.dev.f (Off.IBR_SEM k) 51 6 = a / 64 →
    ∃ t, exec (.semaphoreClear m a bs) s = .next t ∧ t.mem = (s.put a bs).mem ∧ t.dev.resp = .ok ∧ t.dev.b (Off.IBR_SEM k) 0 = false ∧ t.flash = s.flash ∧
      t.pending = s.pending) ∧
  (∀ (s : State) (p a ns : Nat) (bs : List Byte) (e : Dev), p < 8 → a < 2 ^ 52 → s.dev.islandRuns p = true → s.dev.safetyReset = false →
    s.dev.memType a bs.length = true → a < 0xF0000000 ∨ 0x100000000 ≤ a → ns ≤ 10000 → s.dev.bridge.posted = [] → (s.dev.held ns).takeSem p a = (true, e) →
    e.verdict (.island p) true .read a bs.length = .ok → e.verdict (.island p) true .write a bs.length = .ok →
    ∃ t, exec (.lockedReadWrite p a bs ⟨ns, 0, .clean⟩) s = .next t ∧ t.mem = (s.put a bs).mem ∧ t.dev.resp = .ok ∧ t.flash = s.flash ∧
      t.pending = s.pending) ∧
  (∀ (s : State) (p a ns lost : Nat) (bs : List Byte), s.dev.islandRuns p = true → s.dev.safetyReset = false → s.dev.memType a bs.length = true →
    a < 0xF0000000 ∨ 0x100000000 ≤ a → ns ≤ 10000 → s.dev.bridge.posted = [] →
    ((s.dev.held ns).takeSem p a).2.verdict (.island p) true .read a bs.length = .ok →
    ∃ t, exec (.lockedReadWrite p a bs ⟨ns, lost + 1, .clean⟩) s = .next t ∧ t.mem = s.mem ∧ t.dev.resp = .error ∧ t.dev.b Off.IBR_EVENTS 3 = true ∧
      t.flash = s.flash ∧ t.pending = s.pending) ∧
  (∀ (s : State) (p a w ns : Nat) (op : AtomicOp) (x : W64) (e : Dev), p < 8 → a < 2 ^ 52 → s.dev.islandRuns p = true → s.dev.safetyReset = false →
    s.dev.memType a w = true → a < 0xF0000000 ∨ 0x100000000 ≤ a → ns ≤ 10000 → s.dev.bridge.posted = [] → (s.dev.held ns).takeSem p a = (true, e) →
    e.verdict (.island p) true .read a w = .ok → e.verdict (.island p) true .write a w = .ok →
    ∃ t, exec (.atomicOperation p a w op x ⟨ns, 0, .clean⟩) s = .next t ∧ t.dev.resp = .data (leNat (s.bytes a w)) ∧
      t.mem = (s.put a (leBytes w (atomicValue op w (leNat (s.bytes a w)) x.toNat))).mem ∧ t.flash = s.flash ∧ t.pending = s.pending) ∧
  (∀ (s : State) (p a w ns fails : Nat) (op : AtomicOp) (x : W64), 4 ≤ fails ∨ 10000 < ns → s.dev.islandRuns p = true → s.dev.safetyReset = false →
    s.dev.memType a w = true → a < 0xF0000000 ∨ 0x100000000 ≤ a → s.dev.bridge.posted = [] →
    ∃ t, exec (.atomicOperation p a w op x ⟨ns, fails, .clean⟩) s = .next t ∧ t.dev.resp = .error ∧ t.mem = s.mem ∧ t.flash = s.flash ∧ t.pending = s.pending) ∧
  (∀ (s : State) (p a n : Nat) (bs : List Byte) (op : AtomicOp) (x : W64) (h : Hold),
    ∀ c ∈ [Instr.exclusiveLoad p a n h, .exclusiveStore p a bs, .lockedReadWrite p a bs h, .atomicOperation p a n op x h],
    (s.dev.islandRuns p = false → exec c s = .next s) ∧
    (s.dev.islandRuns p = true → s.dev.memType a n = false ∧ s.dev.memType a bs.length = false ∨ 0xF0000000 ≤ a ∧ a < 0x100000000 →
      exec c s = .next { s with dev := s.dev.answer .error }))

/-- GATE, WGATE, WRET, control transfers and wsave on a cluster core, with world faults and illegal-instruction traps (R52, R537, R538, R539, R540, R541, R543). -/
def Obligations.WorldExtension : Prop :=
  (∀ (s : State) (n : Nat), s.dev.coreRuns n = true → (s.dev.attr ((s.dev.core n).pc + 4).toNat).secure = (s.dev.core n).secure →
    exec (.gate n) s = .next (s.onDev (fun d => d.onCore n (fun c => { c with pc := c.pc + 4, virt := c.virt && c.priv != 3 })))) ∧
  (∀ (s : State) (n rd rs1 : Nat) (c : Core), s.dev.coreRuns n = true → c = s.dev.core n → c.secure = false → s.gateAt (c.xr rs1).toNat = true →
    ∃ t x, exec (.wgate n rd rs1) s = .next t ∧ t = { s with dev := { s.dev with cores := t.dev.cores } } ∧ x = t.dev.core n ∧ x.secure = true ∧ x.priv = 3 ∧
      x.pc = c.xr rs1 + 4 ∧ x.virt = false ∧ x.gatePriv = c.priv ∧ x.gateVirt = c.virt ∧ x.wepc.toNat = (c.pc + 4).toNat / 4 * 4 + c.priv % 4 ∧ (rd ≠ 0 → x.xr rd = c.pc + 4) ∧
      (∀ r, r ≠ rd → x.xr r = c.xr r) ∧ x.f = c.f ∧ x.v = c.v ∧ x.mepc = c.mepc ∧ x.wsave = c.wsave ∧ ∀ k, k ≠ n → t.dev.core k = s.dev.core k) ∧
  (∀ (s : State) (n rd rs1 : Nat) (c : Core), s.dev.coreRuns n = true → c = s.dev.core n → c.secure = false → s.gateAt (c.xr rs1).toNat = false →
    ∃ t, exec (.wgate n rd rs1) s = .next t ∧ t = { s with dev := { s.dev with regs := t.dev.regs, cores := t.dev.cores } } ∧
      t.dev.core n = { c with mepc := c.pc, mcause := 24, mtval := c.xr rs1, priv := 3, virt := false, pc := c.mtvec &&& ~~~ 3 } ∧ t.dev.b Off.WLD_EVENTS 4 = true ∧
      t.dev.n Off.WLD_LOG_PROD = (s.dev.n Off.WLD_LOG_PROD + 1) % 2 ^ 32) ∧
  (∀ (s : State) (n rd rs1 : Nat) (c : Core), s.dev.coreRuns n = true → c = s.dev.core n → c.secure = true →
    ∃ t x, exec (.wgate n rd rs1) s = .next t ∧ t.dev.core n = x ∧ x = { c with wepc := c.pc, wcause := 2, wtval := x.wtval, priv := 3, virt := false, pc := c.wtvec &&& ~~~ 3 }) ∧
  (∀ (s : State) (n rs1 : Nat) (c : Core), s.dev.coreRuns n = true → c = s.dev.core n → c.secure = false →
    ∃ t x, exec (.wret n rs1) s = .next t ∧ t.dev.core n = x ∧ x = { c with mepc := c.pc, mcause := 2, mtval := x.mtval, priv := 3, virt := false, pc := c.mtvec &&& ~~~ 3 }) ∧
  (∀ (s : State) (n rs1 : Nat) (c : Core), s.dev.coreRuns n = true → c = s.dev.core n → c.secure = true → rs1 ≠ 0 → c.pendSecure = [] →
    s.dev.worldMem false (c.xr rs1).toNat 1 = true →
    ∃ t x, exec (.wret n rs1) s = .next t ∧ t = { s with dev := { s.dev with cores := t.dev.cores } } ∧ x = t.dev.core n ∧ x.secure = false ∧
      x.priv = c.gatePriv ∧ x.virt = c.gateVirt ∧ x.pc = c.xr rs1 ∧ x.f = [] ∧ x.v = [] ∧
      ∀ r, x.xr r = if r = 1 ∨ r = 2 ∨ (10 ≤ r ∧ r ≤ 17) then c.xr r else 0) ∧
  (∀ (s : State) (n target priv : Nat) (c : Core), s.dev.coreRuns n = true → c = s.dev.core n → target < 2 ^ 64 → priv < 8 →
    ∃ t, exec (.controlTransfer n target priv) s = .next t ∧
      if (s.dev.attr target).secure = c.secure then t = s.onDev (fun d => d.onCore n (fun c => { c with pc := BitVec.ofNat 64 target, priv := priv % 4, virt := decide (4 ≤ priv ∧ priv < 7) }))
      else t = { s with dev := { s.dev with regs := t.dev.regs, cores := t.dev.cores } } ∧ t.dev.b Off.WLD_EVENTS 4 = true ∧
        t.dev.core n = (if c.secure = true then { c with wepc := c.pc, wcause := 24, wtval := BitVec.ofNat 64 target, priv := 3, virt := false, pc := c.wtvec &&& ~~~ 3 }
          else { c with mepc := c.pc, mcause := 24, mtval := BitVec.ofNat 64 target, priv := 3, virt := false, pc := c.mtvec &&& ~~~ 3 })) ∧
  (∀ (s : State) (n : Nat) (v : W64) (c : Core), s.dev.coreRuns n = true → c = s.dev.core n → c.secure = true → c.priv = 3 →
    (s.dev.attr (c.pc + 4).toNat).secure = true →
    exec (.wsaveWrite n v) s = .next (s.onDev (fun d => d.onCore n (fun c => { c with wsave := if d.frameAt v.toNat = true then v else c.wsave, pc := c.pc + 4, virt := false })))) ∧
  (∀ (s : State) (n : Nat) (v : W64) (c : Core), s.dev.coreRuns n = true → c = s.dev.core n → c.secure = false →
    ∃ t x, exec (.wsaveWrite n v) s = .next t ∧ t.dev.core n = x ∧
      x = { c with mepc := c.pc, mcause := 2, mtval := x.mtval, priv := 3, virt := false, pc := c.mtvec &&& ~~~ 3 }) ∧
  (∀ (s : State) (n rd rs1 target priv cause : Nat) (v : W64), s.dev.coreRuns n = false →
    ∀ c ∈ [Instr.gate n, .wgate n rd rs1, .wret n rs1, .controlTransfer n target priv, .wsaveWrite n v, .secureInterrupt n cause], exec c s = .next s)

/-- SECURE_INTERRUPT saves the normal world's context at wsave and enters the secure world; WRET with x0 resumes it (R541, R542, R543). -/
def Obligations.SecureInterruptSavesAndResumes : Prop :=
  (∀ (s : State) (n cause : Nat) (c : Core), s.dev.coreRuns n = true → c = s.dev.core n → c.secure = false → c.pendSecure = [] →
    s.dev.frameAt c.wsave.toNat = true → s.dev.verdict (.core n) true .write c.wsave.toNat c.frame.length = .ok →
    ∃ t x, exec (.secureInterrupt n cause) s = .next t ∧ t.mem = (s.put c.wsave.toNat c.frame).mem ∧ t.flash = s.flash ∧ t.pending = s.pending ∧
      x = t.dev.core n ∧ x.secure = true ∧ x.priv = 3 ∧ x.virt = false ∧ x.pc = c.wtvec &&& ~~~ 3 ∧ x.wcause = BitVec.ofNat 64 cause ∧ x.pendSecure = [] ∧
      (∀ r, x.xr r = 0) ∧ x.f = [] ∧ x.v = [] ∧ x.fcsr = 0) ∧
  (∀ (s : State) (n cause : Nat) (c : Core), s.dev.coreRuns n = true → c = s.dev.core n → cause ∉ c.pendSecure →
    c.secure = true ∨ s.dev.frameAt c.wsave.toNat = false →
    exec (.secureInterrupt n cause) s = .next (s.onDev (fun d => d.onCore n (fun c => { c with pendSecure := c.pendSecure ++ [cause] })))) ∧
  (∀ (s : State) (n : Nat) (c : Core), s.dev.coreRuns n = true → c = s.dev.core n → c.secure = true → c.pendSecure = [] →
    s.dev.verdict (.core n) true .read c.wsave.toNat 2048 = .ok →
    exec (.wret n 0) s = .next (s.onDev (fun d => d.onCore n (fun c => c.restore (s.bytes c.wsave.toNat 2048))))) ∧
  (∀ (c x : Core) (pad : List Byte), c.priv < 4 →
    (let y := x.restore (c.frame ++ pad)
     y.secure = false ∧ y.pc = c.pc ∧ y.priv = c.priv ∧ (c.priv ≠ 3 → y.virt = c.virt) ∧ y.fcsr = c.fcsr ∧ ∀ r < 32, y.xr r = c.xr r))

/-- Hub DMA: START takes the channel's registers, DONE copies them whole or ends with the status of R548, ABORT ends a copy (R131, R546, R548, R559). -/
def Obligations.HubDmaCopies : Prop :=
  (∀ (s : State) (m : Master) (c v : Nat), c < 16 → s.dev.setupRefused m (Off.DMA_CMD c) 4 = none → s.dev.dmaAdmits m c = true → v % 4 = 1 →
    s.dev.dmaState c ≠ 1 → s.dev.domOn 46 = true →
    ∃ t, exec (.dmaStart m c v) s = .next t ∧ t = { s with dev := { s.dev with regs := t.dev.regs, dma := t.dev.dma, resp := .ok } } ∧ t.dev.dmaState c = 1 ∧
      RegsSameBut s t [Off.DMA_STATUS c] ∧ KMap.find t.dev.dma c = some { src := s.dev.addr (Off.DMA_SRC_LO c) (Off.DMA_SRC_HI c)
                                                                          dst := s.dev.addr (Off.DMA_DST_LO c) (Off.DMA_DST_HI c)
                                                                          len := s.dev.n (Off.DMA_LEN c), irq := nbit v 2 }) ∧
  (∀ (s : State) (m : Master) (c v : Nat), c < 16 → s.dev.setupRefused m (Off.DMA_CMD c) 4 = none → s.dev.dmaAdmits m c = true → v % 4 = 1 →
    s.dev.dmaState c = 1 ∨ s.dev.domOn 46 = false → exec (.dmaStart m c v) s = .next { s with dev := s.dev.answer .ok }) ∧
  (∀ (s : State) (m : Master) (c v done : Nat), c < 16 → s.dev.setupRefused m (Off.DMA_CMD c) 4 = none → s.dev.dmaAdmits m c = false →
    ∃ t, exec (.dmaAbort m c v done) s = .next t ∧ t.dev.dma = s.dev.dma ∧ t.dev.dmaState c = s.dev.dmaState c ∧ t.flash = s.flash ∧ t.pending = s.pending) ∧
  (∀ (s : State) (c done : Nat) (j : DmaJob), KMap.find s.dev.dma c = some j → 0 < j.len →
    s.dev.verdict (.dma c) (s.dev.world (.dma c)) .read j.src j.len = .ok → s.dev.verdict (.dma c) (s.dev.world (.dma c)) .write j.dst j.len = .ok →
    s.dev.reach (.dma c) (s.dev.world (.dma c)) .read j.src j.len = j.len → s.dev.reach (.dma c) (s.dev.world (.dma c)) .write j.dst j.len = j.len →
    (∃ t, exec (.dmaDone c done .clean) s = .next t ∧ t.mem = (s.put j.dst (s.bytes j.src j.len)).mem ∧ t.dev.n (Off.DMA_STATUS c) = 2 ∧
      KMap.find t.dev.dma c = none ∧ t.dev.out = (if j.irq = true then .dmaIrq c :: s.dev.out else s.dev.out) ∧ t.flash = s.flash ∧ t.pending = s.pending) ∧
    (done < j.len → ∃ u : State, exec (.dmaDone c done .uncorrectable) s = .next u.serveReset ∧ BytesSameBut s u (s.dev.localAddr j.dst) done ∧
      u.dev.n (Off.DMA_STATUS c) = 2 + 0x32 * 2 ^ 16 ∧ KMap.find u.dev.dma c = none ∧ u.flash = s.flash ∧ u.pending = s.pending)) ∧
  (∀ (s : State) (c done r k : Nat) (j : DmaJob), KMap.find s.dev.dma c = some j → 0 < j.len →
    r = s.dev.reach (.dma c) (s.dev.world (.dma c)) .read j.src j.len → k = s.dev.reach (.dma c) (s.dev.world (.dma c)) .write j.dst j.len →
    r < j.len ∨ k < j.len →
    ∃ t, exec (.dmaDone c done .clean) s = .next t ∧ BytesSameBut s t (s.dev.localAddr j.dst) (min r k) ∧
      t.dev.n (Off.DMA_STATUS c) = 2 + 0x22 * 2 ^ 16 ∧ KMap.find t.dev.dma c = none ∧ t.flash = s.flash ∧ t.pending = s.pending ∧
      (0 < min r k → s.dev.verdict (.dma c) (s.dev.world (.dma c)) .read j.src (min r k) = .ok →
        s.dev.verdict (.dma c) (s.dev.world (.dma c)) .write j.dst (min r k) = .ok → t.mem = (s.put j.dst (s.bytes j.src (min r k))).mem)) ∧
  (∀ (s : State) (c done : Nat) (e : Ecc), KMap.find s.dev.dma c = none → exec (.dmaDone c done e) s = .next s) ∧
  (∀ (s : State) (m : Master) (c v done : Nat) (j : DmaJob), c < 16 → s.dev.setupRefused m (Off.DMA_CMD c) 4 = none → s.dev.dmaAdmits m c = true → v % 4 = 2 →
    KMap.find s.dev.dma c = some j →
    ∃ t, exec (.dmaAbort m c v done) s = .next t ∧ t.dev.resp = .ok ∧ KMap.find t.dev.dma c = none ∧ t.dev.dmaState c ≠ 1 ∧
      BytesSameBut s t (s.dev.localAddr j.dst) (min done j.len) ∧ t.flash = s.flash ∧ t.pending = s.pending)

/-- The secure watchdog: its service sequence, the pre-warning, and the reset that leaves the island, the Keeper and flash (R404, R412, R549, R550). -/
def Obligations.SecureWatchdog : Prop :=
  (∀ (s : State) (m : Master) (v : Nat), s.dev.setupRefused m Off.WDG_SERVICE 4 = none →
    ∃ t, exec (.wdgService m v) s = .next t ∧ t = { s with dev := { s.dev with regs := t.dev.regs, wdg := t.dev.wdg, resp := .ok } } ∧
      match s.dev.wdg.first with
      | none => if v % 2 ^ 32 = 0xC1A0 then t.dev.wdg = { s.dev.wdg with first := some s.dev.now } ∧ t.dev.regs = s.dev.regs
        else t.dev.wdg = s.dev.wdg ∧ t.dev.n Off.WDG_CNT_BAD = satInc 32 (s.dev.n Off.WDG_CNT_BAD) ∧ RegsSameBut s t [Off.WDG_CNT_BAD]
      | some x => if v % 2 ^ 32 = 0x3E5F ∧ s.dev.now ≤ x + 10000 then
          t.dev.wdg = { s.dev.wdg with since := s.dev.now, first := none, warned := false } ∧ t.dev.regs = s.dev.regs
        else t.dev.wdg = { s.dev.wdg with first := none } ∧ t.dev.n Off.WDG_CNT_BAD = satInc 32 (s.dev.n Off.WDG_CNT_BAD) ∧ RegsSameBut s t [Off.WDG_CNT_BAD]) ∧
  (∀ s : State, s.dev.b Off.WDG_CTRL 0 = true → s.dev.wdg.expired = false → s.dev.wdg.warned = false →
    if s.dev.wdg.since + s.dev.f Off.WDG_CTRL 29 16 * 1000000 ≤ s.dev.now + s.dev.n Off.WDG_WARN_US * 1000 then
      ∃ t, exec .preWarning s = .next t ∧ t = { s with dev := t.dev } ∧ t.dev.wdg = { s.dev.wdg with warned := true } ∧ t.dev.b Off.WDG_EVENTS 0 = true ∧
        t.dev.b Off.KPR_DOUBT 7 = true ∧ t.dev.ownerFull = false
    else exec .preWarning s = .next s) ∧
  (∀ s : State, s.dev.b Off.WDG_CTRL 0 = true → s.dev.wdg.expired = false → s.dev.wdg.since + s.dev.f Off.WDG_CTRL 29 16 * 1000000 ≤ s.dev.now →
    ∃ t, exec .watchdogExpiry s = .next t ∧ t.flash = s.flash ∧ t.pending = s.pending ∧
      (∀ a, cellGet t.mem memDefault a = if 0x80000000 ≤ a ∧ a < 0x98000000 then cellGet s.mem memDefault a else memDefault) ∧
      t.dev.cmds = [] ∧ t.dev.insts = [] ∧ t.dev.plans = [] ∧ t.dev.stage = 0 ∧ t.dev.over = 0 ∧ t.dev.f Off.WLD_RESET_CAUSE 1 0 = 1 ∧ t.dev.ownerFull = false ∧
      t.dev.judge = s.dev.judge ∧ t.dev.pairs = s.dev.pairs ∧ t.dev.keeper.table = s.dev.keeper.table ∧ t.dev.wdg.expired = true) ∧
  (∀ (s : State) (straps modId modCnt : Nat), s.dev.wdg.expired = true →
    ∃ t, exec (.watchdogRestart straps modId modCnt) s = .next t ∧ t = { s with dev := t.dev } ∧ t.dev.stage = 1 ∧ t.dev.wdg.expired = false ∧
      t.dev.start.powered = true)

/-- The Keeper's loops, CAN inputs, frames, self-mismatch and release (R411, R420, R424, R425, R426, R428). -/
def Obligations.KeeperLoopsInputsFrames : Prop :=
  (∀ (s : State) (l code : Nat) (c : LoopCfg), KMap.find s.dev.keeper.table.loops l = some c → s.dev.loopDue l c = true → s.dev.loopStale c = false →
    ∃ t y, exec (.keeperLoopStep l code) s = .next t ∧ t = { s with dev := { s.dev with keeper := t.dev.keeper } } ∧
      KMap.find t.dev.keeper.loops l = some y ∧ (∀ k, k ≠ l → KMap.find t.dev.keeper.loops k = KMap.find s.dev.keeper.loops k) ∧
      (let raw : Int := if c.src < 8 then (code % 4096 : Nat) else KMap.getD s.dev.keeper.inputs (c.src - 0x40) 0
       let x := f32Add (f32Mul (f32OfInt raw) c.inScale) c.inOffset
       let sp := BitVec.ofNat 32 (s.dev.n (Off.KPR_LOOP_SP l))
       let e := if nbit c.flags 4 then f32Sub x sp else f32Sub sp x
       let prev := s.dev.loopSt l c
       if s.dev.ownerFull = true ∧ nbit c.flags 1 = true ∧ KMap.find s.dev.keeper.full c.dst ≠ none then
         KMap.find s.dev.keeper.full c.dst = some y.u ∧ y.i = f32Clamp c.outMin c.outMax (f32Sub y.u (f32Mul c.kp e))
       else y.i = f32Clamp c.outMin c.outMax (f32Add prev.i (f32Mul (f32Mul c.ki c.t) e)) ∧
         y.u = f32Clamp (f32Sub prev.u (f32Mul c.ramp c.t)) (f32Add prev.u (f32Mul c.ramp c.t)) (f32Clamp c.outMin c.outMax (f32Add (f32Mul c.kp e) y.i)))) ∧
  (∀ (s : State) (l code : Nat) (c : LoopCfg), KMap.find s.dev.keeper.table.loops l = some c → 
    (s.dev.loopDue l c = true → s.dev.loopStale c = true → ∃ t, exec (.keeperLoopStep l code) s = .next t ∧
      t = { s with dev := { s.dev with keeper := { s.dev.keeper with stepped := t.dev.keeper.stepped } } }) ∧
    (s.dev.loopDue l c = false → exec (.keeperLoopStep l code) s = .next s)) ∧
  (∀ (s : State) (ch id j : Nat) (ext : Bool) (b : List Byte) (c : InputCfg), (j, c) ∈ s.dev.keeper.table.inputs →
    (∀ p ∈ s.dev.keeper.table.inputs, p.1 = j → p.2 = c) →
    ∃ t, exec (.keeperCanReceive ch id ext b) s = .next t ∧ t = { s with dev := { s.dev with keeper := t.dev.keeper } } ∧
      KMap.find t.dev.keeper.inputs j = (if c.channel = ch ∧ c.id % 2 ^ 29 = id ∧ nbit c.id 31 = ext then
        some (if c.signed then signedOf c.bits (leNat b / 2 ^ c.startBit) else ((leNat b / 2 ^ c.startBit % 2 ^ c.bits : Nat) : Int))
      else KMap.find s.dev.keeper.inputs j)) ∧
  (∀ (s : State) (j : Nat) (c : InputCfg), KMap.find s.dev.keeper.table.inputs j = some c → s.dev.inputLate j c = false →
    exec (.inputStale j) s = .next s) ∧
  (∀ (s : State) (j : Nat) (c : InputCfg), KMap.find s.dev.keeper.table.inputs j = some c → s.dev.inputLate j c = true →
    KMap.find s.dev.keeper.inputs j ≠ none →
    ∃ t, exec (.inputStale j) s = .next t ∧ t = { s with dev := { s.dev with regs := t.dev.regs, keeper := t.dev.keeper } } ∧
      KMap.find t.dev.keeper.inputs j = none ∧ t.dev.b Off.KPR_EVENTS 6 = true ∧ t.dev.n Off.KPR_CNT_STALE = satInc 32 (s.dev.n Off.KPR_CNT_STALE) ∧
      RegsSameBut s t [Off.KPR_EVENTS, Off.KPR_CNT_STALE]) ∧
  (∀ (s : State) (n : Nat) (f : FrameCfg), KMap.find s.dev.keeper.table.frames n = some f →
    if s.dev.frameDue n f = false then exec (.keeperFrameTx n) s = .next s
    else ∃ t, exec (.keeperFrameTx n) s = .next t ∧ KMap.getD t.dev.keeper.framed n 0 = KMap.getD s.dev.keeper.framed n 0 + 1 ∧
      if nbit f.flags (if s.dev.ownerFull = true then 2 else 1) = true ∧ s.dev.outputsDead = false then
        t = { s with dev := { s.dev with keeper := t.dev.keeper, out := t.dev.out } } ∧
        t.dev.out = .canFrame f.channel (f.id % 2 ^ 31) (nbit f.id 31) (canMarks f.format) (s.dev.frameBytes n f) :: s.dev.out ∧
        KMap.getD t.dev.keeper.alive n 0 = (if nbit f.flags 3 then (KMap.getD s.dev.keeper.alive n 0 + 1) % 16 else KMap.getD s.dev.keeper.alive n 0)
      else t = { s with dev := { s.dev with keeper := { s.dev.keeper with framed := t.dev.keeper.framed } } }) ∧
  (∀ (d : Dev) (n : Nat) (f : FrameCfg), nbit f.flags 3 = true → f.safe.length = 32 → 2 ≤ f.length → f.length ≤ 32 →
    (let b := d.frameBytes n f
     b.length = f.length ∧ leAt b (f.length - 2) 1 % 16 = KMap.getD d.keeper.alive n 0 % 16 ∧
     leAt b (f.length - 1) 1 = crcOf 3 (leBytes 4 f.id ++ b.take (f.length - 1)) % 256)) ∧
  (∀ s : State, s.dev.islandUp = true → ∃ t, exec .keeperSelfMismatch s = .next t ∧
    t = { s with dev := { s.dev with regs := t.dev.regs, start := { s.dev.start with modFault := true }, keeper := { s.dev.keeper with pwm := [] } } } ∧
    t.dev.b Off.KPR_STATUS 1 = true ∧ t.dev.b Off.KPR_EVENTS 5 = true ∧ t.dev.outputsDead = true ∧ RegsSameBut s t [Off.KPR_STATUS, Off.KPR_EVENTS]) ∧
  (∀ (s : State) (m : Master), s.dev.setupRefused m Off.KPR_RELEASE 4 = none →
    ∃ t, exec (.kprRelease m 1) s = .next t ∧
      t = { s with dev := { s.dev with regs := t.dev.regs, keeper := { s.dev.keeper with released := true }, resp := .ok } } ∧
      t.dev.b Off.KPR_STATUS 3 = false ∧ RegsSameBut s t [Off.KPR_STATUS]) ∧
  (∀ (s : State) (m : Master) (v : Nat), s.dev.masterRuns m = true → isIsland m = false → m ≠ .mgmtRom →
    ∃ t, exec (.kprRelease m v) s = .next t ∧ t = { s with dev := { s.dev with regs := t.dev.regs, resp := .error } })

/-- A doubt trigger latches its code and takes the outputs; at an edge the full function owns the Over only when nothing of R409 holds it (R404, R406, R408, R409, R411). -/
def Obligations.DoubtAndOwnership : Prop :=
  (∀ (d : Dev) (code arg : Nat), 1 ≤ code → code ≤ 9 →
    (let e := d.doubt code arg
     e.b Off.KPR_DOUBT (code - 1) = true ∧ e.ownerFull = false ∧ e.untrusted = d.f Off.KPR_CTRL 7 0 ∧ code ∈ e.keeper.codes ∧
     (∀ k, 1 ≤ k → k ≤ 9 → k ≠ code → e.b Off.KPR_DOUBT (k - 1) = d.b Off.KPR_DOUBT (k - 1)) ∧
     e.n Off.KPR_LOG_PROD = (if code ∈ d.keeper.logged then d.n Off.KPR_LOG_PROD else (d.n Off.KPR_LOG_PROD + 1) % 2 ^ 32) ∧
     e.cmds = d.cmds ∧ e.plans = d.plans ∧ e.time = d.time)) ∧
  (∀ (d : Dev) (dead : Bool), d.outputsDead = false →
    ((d.decideOwner dead).ownerFull = true ↔
      d.b Off.START_STAGE 3 = false ∧ 5 ≤ d.stage ∧ d.untrusted = 0 ∧ dead = false ∧ d.keeper.codes = [] ∧
      (d.ownerFull = true ∨ ¬(d.b Off.KPR_CTRL 8 = true ∧ d.keeper.taken = true ∧ d.keeper.released = false)))) ∧
  (∀ d : Dev, d.keeperOwns false = false → d.ownerFull = false → d.b Off.KPR_CTRL 8 = true → d.keeper.taken = true → d.keeper.released = false →
    (d.decideOwner false).b Off.KPR_STATUS 3 = true ∧ (d.decideOwner false).ownerFull = false)

/-- LINE_JUDGE_COMPARE, lockstep mismatches and restarts, and granted debug access to the pairs (R404, R434, R435, R437, R438, R439, R440). -/
def Obligations.JudgeAndLockstepPairs : Prop :=
  (∀ (s : State) (id : Nat) (c : Cmd) (x : Plan), s.dev.cmd id = some c → s.dev.cmdPlan c = some x → c.phase = .running → c.endedA = true → c.endedB = true →
    c.judged = false → s.dev.instSafe c.inst = true →
    ∃ t, exec (.lineJudgeCompare id) s = .next t ∧ t = { s with dev := t.dev } ∧ t.dev.cmd id = some { c with judged := true, phase := .ended } ∧
      t.dev.n Off.LJ_CNT_COMPARED = satInc 32 (s.dev.n Off.LJ_CNT_COMPARED) ∧ t.dev.judge.compared = s.dev.judge.compared + 1 ∧
      match s.judgeAll c x.image with
      | none => t.dev.judge.disagreed = s.dev.judge.disagreed ∧ RegsSameBut s t [Off.LJ_CNT_COMPARED]
      | some r => t.dev.judge.disagreed = true ∧ t.dev.n Off.LJ_CNT_DISAGREE = satInc 32 (s.dev.n Off.LJ_CNT_DISAGREE) ∧ t.dev.b Off.LJ_EVENTS 0 = true ∧
        t.dev.n Off.LJ_LAST_INDEX = r.2.2 % 2 ^ 32 ∧ t.dev.f Off.LJ_LAST_FAIL 7 0 = r.1 % 256 ∧ t.dev.f Off.LJ_LAST_FAIL 15 8 = c.inst % 256 ∧
        t.dev.b Off.KPR_DOUBT 0 = true ∧ t.dev.ownerFull = false) ∧
  (∀ (s : State) (p retired : Nat) (what : LockFault), p < 2 → lockDiffers what = true → s.dev.islandUp = true → s.dev.split = false → s.dev.pairState p = 0 →
    ∃ t, exec (.lockstepMismatch p what retired) s = .next t ∧ t = { s with dev := t.dev } ∧ t.dev.pairState p = 1 ∧ (t.dev.pair p).buffer = [] ∧ (t.dev.pair p).resetAt = s.dev.islandNow ∧
      t.dev.n (Off.ISL_MISMATCH_INFO p) = lockKind what + retired % 2 ^ 24 * 2 ^ 8 ∧ t.dev.n Off.ISL_CNT_MISMATCH = satInc 32 (s.dev.n Off.ISL_CNT_MISMATCH) ∧
      t.dev.b Off.ISL_EVENTS p = true ∧ t.dev.b Off.KPR_DOUBT 3 = true ∧ t.dev.ownerFull = false) ∧
  (∀ (s : State) (p retired : Nat) (what : LockFault), s.dev.split = true ∨ s.dev.pairState p ≠ 0 ∨ lockDiffers what = false →
    exec (.lockstepMismatch p what retired) s = .next s) ∧
  (∀ (s : State) (p : Nat), s.dev.islandNow < (s.dev.pair p).resetAt + 50000 → exec (.pairRestart p) s = .next s) ∧
  (∀ (s : State) (p : Nat), p < 2 → s.dev.pairState p = 1 → (s.dev.pair p).resetAt + 50000 ≤ s.dev.islandNow →
    ∃ t, exec (.pairRestart p) s = .next t ∧ t = { s with dev := { s.dev with regs := t.dev.regs, pairs := t.dev.pairs } } ∧ t.dev.pairState p = 0 ∧
      t.dev.pair p = Pair.empty ∧ t.dev.b Off.ISL_EVENTS (2 + p) = true ∧ RegsSameBut s t [Off.ISL_STATUS, Off.ISL_EVENTS]) ∧
  (∀ (s : State) (p : Nat), s.dev.debugs p = true →
    (∃ t, exec (.debugHalt p false) s = .next t ∧ t = { s with dev := t.dev } ∧ t.dev.pairState p = 2 ∧ (t.dev.pair p).retiredChecker = (t.dev.pair p).retiredMain) ∧
    (∃ t, exec (.debugHalt p true) s = .next t ∧ t = { s with dev := { s.dev with regs := t.dev.regs } } ∧ t.dev.pairState p = 0 ∧ RegsSameBut s t [Off.ISL_STATUS])) ∧
  (∀ (s : State) (p reg : Nat) (v : W64), s.dev.debugs p = true → s.dev.split = false → 0 < reg → reg < 32 →
    ∃ t, exec (.debugRegisterWrite p reg v) s = .next t ∧ t = { s with dev := { s.dev with pairs := t.dev.pairs } } ∧
      KMap.find (t.dev.pair p).xMain reg = some v ∧ KMap.find (t.dev.pair p).xChecker reg = some v ∧ ∀ r, r ≠ reg →
        KMap.find (t.dev.pair p).xMain r = KMap.find (s.dev.pair p).xMain r ∧ KMap.find (t.dev.pair p).xChecker r = KMap.find (s.dev.pair p).xChecker r) ∧
  (∀ (s : State) (p : Nat), s.dev.debugs p = true → s.dev.pairState p = 2 → s.dev.split = false →
    ∃ t, exec (.debugSingleStep p) s = .next t ∧ t = { s with dev := { s.dev with pairs := t.dev.pairs } } ∧
      t.dev.pair p = { s.dev.pair p with retiredMain := (s.dev.pair p).retiredMain + 1, retiredChecker := (s.dev.pair p).retiredChecker + 1 }) ∧
  (∀ (s : State) (p a : Nat) (bs : List Byte), s.dev.debugs p = true → exec (.debugMemoryWrite p a bs) s = exec (.islandWrite p a bs 0 0) s) ∧
  (∀ (s : State) (p a : Nat) (bs : List Byte), s.dev.debugs p = true → islandOwn a = true → s.dev.verdict (.island p) true .write a bs.length = .ok →
    ∃ t, exec (.debugMemoryWrite p a bs) s = .next t ∧ t.mem = (s.put a bs).mem ∧ t.dev.resp = .ok ∧ t.flash = s.flash ∧ t.pending = s.pending) ∧
  (∀ (s : State) (p reg a : Nat) (v : W64) (b : Bool) (bs : List Byte), s.dev.debugs p = false → ∀ c ∈ [Instr.debugHalt p b, .debugRegisterWrite p reg v,
    .debugMemoryWrite p a bs, .debugSingleStep p], exec c s = .next s)

/-- A waiting bank handover takes effect when the bank is unused, with its scrub; a region test keeps the data and records a failing word (R234, R235, R236, R237, R242, R245, R602). -/
def Obligations.BankHandoverAndRegionTest : Prop :=
  (∀ (s : State) (t b : Nat), t < 64 → b < 32 → s.dev.b (Off.TILE_BANK_STATUS t b) 2 = true → s.dev.bankUnused t b = true →
    ∃ u, exec (.bankHandover t b) s = .next u ∧ u.flash = s.flash ∧ u.pending = s.pending ∧ u.dev.bankOwner t b = s.dev.r (Off.TILE_BANK_OWNER t b) ∧
      (let must := s.dev.mustScrub (s.dev.bankOwner t b) (s.dev.r (Off.TILE_BANK_OWNER t b))
       let keep := bitOf (s.dev.r (Off.TILE_BANK_OWNER t b)) 9
       u.mem = (if must = true ∨ keep = false then cellsClear s.mem (bankAddr t b) 0x20000 else s.mem) ∧
       u.dev.b (Off.TILE_BANK_STATUS t b) 4 = (must && keep)) ∧
      u.dev.b (Off.TILE_BANK_STATUS t b) 2 = false ∧ u.dev.f (Off.TILE_BANK_STATUS t b) 1 0 = 0 ∧
      u.dev.f (Off.TILE_BANK_STATUS t b) 15 8 = (s.dev.f (Off.TILE_BANK_STATUS t b) 15 8 + 1) % 256 ∧ RegsSameBut s u [Off.TILE_BANK_STATUS t b]) ∧
  (∀ (s : State) (t b : Nat), s.dev.b (Off.TILE_BANK_STATUS t b) 2 = false ∨ s.dev.bankUnused t b = false → exec (.bankHandover t b) s = .next s) ∧
  (∀ (s : State) (t cycles k : Nat) (fail : Option Nat), t < 64 → s.dev.b (Off.TILE_BTEST_CTRL t) 0 = true → s.dev.tileState t ≠ 0 →
    (btestFrom (s.dev.n (Off.TILE_BTEST_MASK t)) (s.dev.f (Off.TILE_BTEST_STATUS t) 13 0)).orElse (fun _ => btestFrom (s.dev.n (Off.TILE_BTEST_MASK t)) 0) = some k →
    ∃ u, exec (.btestRegion t cycles fail) s = .next u ∧ u = { s with dev := { s.dev with regs := u.dev.regs, tiles := u.dev.tiles, parts := u.dev.parts } } ∧
      (∀ n, btestFrom (s.dev.n (Off.TILE_BTEST_MASK t)) (k + 1) = some n → n < 16384 → u.dev.f (Off.TILE_BTEST_STATUS t) 13 0 = n) ∧
      (btestFrom (s.dev.n (Off.TILE_BTEST_MASK t)) (k + 1) = none → u.dev.b (Off.TILE_BTEST_EVENTS t) 1 = true ∧
        u.dev.f (Off.TILE_BTEST_STATUS t) 31 16 = (s.dev.f (Off.TILE_BTEST_STATUS t) 31 16 + 1) % 65536) ∧
      (∀ w, fail = some w → u.dev.b (Off.TILE_BTEST_EVENTS t) 0 = true ∧ u.dev.b (Off.TILE_BANK_STATUS t (k / 512)) 6 = true ∧
        u.dev.n (Off.TILE_BTEST_FAIL_OFF t) = k / 512 * 0x20000 + k % 512 * 256 + w % 4 * 64)) ∧
  (∀ (s : State) (t cycles : Nat) (fail : Option Nat), s.dev.b (Off.TILE_BTEST_CTRL t) 0 = false → exec (.btestRegion t cycles fail) s = .next s)

/-- Thermal derate and its release, a router link's failure, the end of a self-test piece, and the latent-fault alarm (R137, R138, R140, R175, R186, R442, R444, R445). -/
def Obligations.DerateRouterSelfTest : Prop :=
  (∀ (s : State) (t : Nat) (temp : Int), t < 64 → 1760 < temp → temp < 32768 → s.dev.tileState t ≠ 0 →
    ∃ u, exec (.thermalDerate t temp) s = .next u ∧ u = { s with dev := { s.dev with regs := u.dev.regs } } ∧
      u.dev.f (Off.TILE_FREQ t) 10 0 = (if s.dev.tileState t = 5 then 1000 else if s.dev.b Off.PWR_STATUS 3 = true then 400
        else max (s.dev.floorMhz t) (min 1000 (s.dev.f (Off.TILE_FREQ_CTRL t) 26 16))) ∧
      u.dev.b (Off.TILE_FREQ t) 16 = true ∧ u.dev.b (Off.TILE_EVENTS t) 3 = true ∧ u.dev.f (Off.TILE_TEMP t) 15 0 = temp.toNat ∧
      RegsSameBut s u [Off.TILE_FREQ t, Off.TILE_TEMP t, Off.TILE_EVENTS t]) ∧
  (∀ (s : State) (t : Nat) (temp : Int), t < 64 → temp < 1680 →
    ∃ u, exec (.derateRelease t temp) s = .next u ∧ u = { s with dev := { s.dev with regs := u.dev.regs } } ∧ u.dev.b (Off.TILE_FREQ t) 16 = false ∧
      RegsSameBut s u [Off.TILE_FREQ t, Off.TILE_TEMP t]) ∧
  (∀ (s : State) (t : Nat) (temp : Int), (temp ≤ 1760 → exec (.thermalDerate t temp) s = .next s) ∧ (1680 ≤ temp → exec (.derateRelease t temp) s = .next s)) ∧
  (∀ (s : State) (t link : Nat), t < 64 → nbit (routerLinks t) link = true → s.dev.b (Off.TILE_ROUTER_STATUS t) link = true →
    ∃ u : State, exec (.routerLinkFail t link []) s = .next u.admitAll ∧ u = { s with dev := { s.dev with regs := u.dev.regs } } ∧
      u.dev.b (Off.TILE_ROUTER_STATUS t) link = false ∧ u.dev.b (Off.TILE_ROUTER_STATUS (routerPeer t link)) (routerBack link) = false ∧
      u.dev.b (Off.TILE_EVENTS t) 4 = true ∧ RegsSameBut s u [Off.TILE_ROUTER_STATUS t, Off.TILE_ROUTER_STATUS (routerPeer t link), Off.TILE_EVENTS t] ∧
      ∀ id c, s.dev.cmd id = some c → c.underWay = true → exec (.routerLinkFail t link [id]) s = .next (u.inputEnd id 0x32).admitAll) ∧
  (∀ (s : State) (t link : Nat) (ids : List Nat), s.dev.b (Off.TILE_ROUTER_STATUS t) link = false → exec (.routerLinkFail t link ids) s = .next s) ∧
  (∀ (s : State) (t k : Nat), t < 64 → (s.dev.tile t).piece = some k →
    ∃ u : State, exec (.selftestPieceDone t true) s = .next u.admitAll ∧
      u = { s with dev := { s.dev with regs := u.dev.regs, tiles := u.dev.tiles, fresh := u.dev.fresh } } ∧ u.dev.tileState t = 1 ∧
      (u.dev.tile t).piece = none ∧ (u.dev.tile t).nextPiece = (k + 1) % 24 ∧ (u.dev.tile t).acc = [] ∧ (u.dev.tile t).vregs = [] ∧ (u.dev.tile t).tokens = [] ∧
      u.dev.logicAge t = (if k = 23 then 0 else s.dev.logicAge t)) ∧
  (∀ (s : State) (t k : Nat), t < 64 → (s.dev.tile t).piece = some k →
    ∃ u : State, exec (.selftestPieceDone t false) s = .next (if s.dev.safetyNow = some (s.dev.tilePart t) then u.partReset (s.dev.tilePart t) else u) ∧
      u = { s with dev := { s.dev with regs := u.dev.regs, tiles := u.dev.tiles, fresh := u.dev.fresh } } ∧ u.dev.tileState t = 1 ∧
      (u.dev.tile t).withdrawn = true ∧ (u.dev.tile t).piece = none ∧ u.dev.tileBit Off.STEST_FAILED_LO Off.STEST_FAILED_HI t = true ∧ u.dev.b Off.STEST_EVENTS 1 = true) ∧
  (∀ (s : State) (t : Nat) (ok : Bool), (s.dev.tile t).piece = none → exec (.selftestPieceDone t ok) s = .next s) ∧
  (∀ (s : State) (t : Nat) (logic scratch : Bool), t < 64 →
    ∃ u, exec (.latent t logic scratch) s = .next u ∧ u = { s with dev := { s.dev with regs := u.dev.regs } } ∧
      ((logic = true ∧ s.dev.f Off.STEST_CTRL 25 16 * 1000000 < s.dev.logicAge t) ∨ (scratch = true ∧ s.dev.f Off.STEST_CTRL 25 16 * 1000000 < s.dev.passAge t) →
        if s.dev.tileBit Off.STEST_MASK_LO Off.STEST_MASK_HI t = true then u.dev.tileBit Off.STEST_LATENT_LO Off.STEST_LATENT_HI t = true ∧ u.dev.b Off.STEST_EVENTS 0 = true
        else u = s) ∧
      (s.dev.logicAge t ≤ s.dev.f Off.STEST_CTRL 25 16 * 1000000 → s.dev.passAge t ≤ s.dev.f Off.STEST_CTRL 25 16 * 1000000 →
        u.dev.tileBit Off.STEST_LATENT_LO Off.STEST_LATENT_HI t = false ∧ RegsSameBut s u [Off.STEST_LATENT_LO, Off.STEST_LATENT_HI]))

/-- Umpire windows start with full counters, HP requests arrive and revoke, longest waits clear by mask, refresh follows the temperature (R368, R380, R382, R383, R384, R385, R386, R387, R389). -/
def Obligations.UmpireWindowsAndRequests : Prop :=
  (∀ (s : State) (k p : Nat) (l : List UmpEvent), s.dev.sitePopulated k = true → p < 32 → s.dev.b (Off.UMP_STATUS k) 0 = true →
    ∃ t, exec (.umpireWindow k p l) s = .next t ∧ t = { s with dev := { s.dev with regs := t.dev.regs, umps := t.dev.umps } } ∧
      (let u := t.dev.umpire k p
       u.ctrl = t.dev.r (Off.UMP_CTRL k) ∧ u.masked = [] ∧ u.got = [] ∧ u.exempt = false ∧ ∀ c < 16, u.shareOf c = 0 ∧ u.creditOf c = u.refill c ∧
         u.classes.getD c 0 = t.dev.r (Off.UMP_CLASS_CTRL k c) ∧
         u.refill c = (if t.dev.b (Off.UMP_CLASS_CTRL k c) 15 = true then t.dev.f (Off.UMP_CLASS_CTRL k c) 27 16 else t.dev.f (Off.UMP_CLASS_CTRL k c) 11 0)) ∧
      (let e := s.dev.umpWindow k p ((s.dev.umpire k p).window / 2) l
       (t.dev.umpire k p).queue = (e.umpire k p).queue ∧ (t.dev.umpire k p).grant = (e.umpire k p).grant)) ∧
  (∀ (s : State) (m : HbmMaster) (dirty : Bool) (a k p cls n : Nat), s.dev.inHbm a = true → k = s.dev.hbmSite (s.dev.localAddr a) → p = hbmPseudo (s.dev.localAddr a) →
    cls = s.dev.umpClass m a → k < 8 → p < 32 → s.dev.b (Off.UMP_STATUS k) 0 = true → 0 < n →
    ∃ t, exec (.hpRequest m dirty a n) s = .next t ∧ t = { s with dev := { s.dev with regs := t.dev.regs, umps := t.dev.umps } } ∧
      (let u := s.dev.umpire k p
       let new : UmpReq := { cls := cls, realTime := realTimeMaster m && u.hp cls, bursts := n, waited := 0 }
       match u.grant with
       | none => (t.dev.umpire k p).grant = none ∧ (t.dev.umpire k p).queue = u.queue ++ [new] ∧ t.dev.regs = s.dev.regs
       | some g => if realTimeMaster m = true ∧ u.hp cls = true ∧ 0 < u.creditOf cls ∧ cls ∉ u.masked ∧ g.step ≠ 1 then
           (t.dev.umpire k p).grant = none ∧ (t.dev.umpire k p).queue = { g.req with bursts := g.req.bursts + g.made, waited := 0 } :: u.queue ++ [new] ∧
           (g.req.cls < 16 → t.dev.n (Off.UMP_CNT_REVOKE k g.req.cls) = satInc 32 (s.dev.n (Off.UMP_CNT_REVOKE k g.req.cls)))
         else (t.dev.umpire k p).grant = some g ∧ (t.dev.umpire k p).queue = u.queue ++ [new] ∧ t.dev.regs = s.dev.regs)) ∧
  (∀ (s : State) (m : HbmMaster) (dirty : Bool) (a n : Nat), s.dev.inHbm a = false ∨ s.dev.b (Off.UMP_STATUS (s.dev.hbmSite (s.dev.localAddr a))) 0 = false →
    exec (.hpRequest m dirty a n) s = .next s) ∧
  (∀ (u : Umpire) (c : Nat), u.winner = some (c, 1) ↔ c < 16 ∧
    (let able := fun (x : Nat) => u.hp x = true ∧ (∃ r ∈ u.queue, r.cls = x ∧ r.realTime = true) ∧ 0 < u.creditOf x ∧ x ∉ u.masked
     able c ∧ ∀ x < 16, able x → u.creditOf x ≤ u.creditOf c ∧ (x < c → u.creditOf x < u.creditOf c))) ∧
  (∀ (s : State) (m : Master) (k v : Nat), k < 8 → s.dev.setupRefused m (Off.UMP_CNT_CLEAR k) 4 = none →
    ∃ t, exec (.umpCntClear m k v) s = .next t ∧ t = { s with dev := { s.dev with regs := t.dev.regs, resp := .ok } } ∧
      (∀ c < 16, t.dev.r (Off.UMP_MAX_WAIT k c) = if nbit v c = true then 0 else s.dev.r (Off.UMP_MAX_WAIT k c)) ∧
      RegsSameBut s t ((List.range 16).map (fun c => Off.UMP_MAX_WAIT k c))) ∧
  (∀ (s : State) (k : Nat) (hot : Bool), s.dev.sitePopulated k = true →
    ∃ t, exec (.refresh2x k hot) s = .next t ∧ t = { s with dev := { s.dev with regs := t.dev.regs } } ∧ t.dev.b (Off.UMP_STATUS k) 1 = hot ∧
      (hot = true → s.dev.b (Off.UMP_STATUS k) 1 = false → t.dev.b (Off.UMP_EVENTS k) 3 = true) ∧ RegsSameBut s t [Off.UMP_STATUS k, Off.UMP_EVENTS k])

/-- Display latches, frame ends and links; camera frames take free buffers, yield their record, and end late with TIMEOUT (R474, R480, R482, R485, R486, R492, R493). -/
def Obligations.DisplayPipesAndCameras : Prop :=
  (∀ (s : State) (p : Nat), p < 6 → s.dev.pipeOn p = true →
    ∃ t, exec (.displayLatch p) s = .next t ∧ t = { s with dev := { s.dev with regs := t.dev.regs, media := t.dev.media } } ∧
      t.dev.n (Off.DISP_LATCH_NS p) = s.dev.nsField ∧ t.dev.n (Off.DISP_LATCH_OVER p) = s.dev.over % 2 ^ 32 ∧
      RegsSameBut s t [Off.DISP_LATCH_NS p, Off.DISP_LATCH_OVER p, Off.DISP_STATUS p, Off.DISP_EVENTS p, Off.DISP_CNT_REPEAT p, Off.DISP_SCAN_ADDR p] ∧
      match (s.dev.pipe p).pending with
      | none => t.dev.n (Off.DISP_CNT_REPEAT p) = satInc 32 (s.dev.n (Off.DISP_CNT_REPEAT p)) ∧ t.dev.b (Off.DISP_EVENTS p) 1 = true ∧ t.dev.media = s.dev.media
      | some x => t.dev.pipe p = { pending := none, scanned := some x } ∧ t.dev.b (Off.DISP_STATUS p) 2 = false ∧ t.dev.b (Off.DISP_EVENTS p) 0 = true ∧
        t.dev.n (Off.DISP_SCAN_ADDR p) = x.addr % 2 ^ 64 ∧ t.dev.r (Off.DISP_CNT_REPEAT p) = s.dev.r (Off.DISP_CNT_REPEAT p)) ∧
  (∀ (s : State) (p : Nat) (x : Surface) (late : List (Nat × Nat)), p < 6 → s.dev.pipeOn p = true → (s.dev.pipe p).scanned = some x →
    ∃ t, exec (.displayFrameEnd p late) s = .next t ∧ t = { s with dev := { s.dev with regs := t.dev.regs, fresh := t.dev.fresh } } ∧
      t.dev.n (Off.DISP_FRAMES p) = (s.dev.n (Off.DISP_FRAMES p) + 1) % 2 ^ 32 ∧
      (s.dev.b (Off.DISP_CTRL p) 2 = true → t.dev.n (Off.DISP_CRC_FRAME p) = t.dev.n (Off.DISP_FRAMES p)) ∧
      if s.dev.verdict (.display p) (s.dev.world (.display p)) .read x.addr x.bytes = .ok ∧ late = [] then
        RegsSameBut s t [Off.DISP_FRAMES p, Off.DISP_STATUS p, Off.DISP_CRC p, Off.DISP_CRC_FRAME p]
      else t.dev.n (Off.DISP_CNT_UNDERRUN p) = satInc 32 (s.dev.n (Off.DISP_CNT_UNDERRUN p)) ∧ t.dev.b (Off.DISP_EVENTS p) 3 = true) ∧
  (∀ (s : State) (p : Nat), p < 6 → s.dev.pipeOn p = true →
    (∃ t, exec (.displayLinkTrained p) s = .next t ∧ t = { s with dev := { s.dev with regs := t.dev.regs } } ∧ t.dev.f (Off.DISP_STATUS p) 1 0 = 2 ∧
      RegsSameBut s t [Off.DISP_STATUS p]) ∧
    ∃ t, exec (.displayLinkDown p) s = .next t ∧ t = { s with dev := { s.dev with regs := t.dev.regs } } ∧ t.dev.f (Off.DISP_STATUS p) 1 0 = 3 ∧
      t.dev.b (Off.DISP_EVENTS p) 4 = true ∧ RegsSameBut s t [Off.DISP_STATUS p, Off.DISP_EVENTS p]) ∧
  (∀ (s : State) (c : Nat), c < 8 * s.dev.ioDies →
    (∃ t, exec (.cameraLinkUp c) s = .next t ∧ t = { s with dev := { s.dev with regs := t.dev.regs } } ∧ t.dev.b (Off.CAM_STATUS c) 0 = true ∧
      RegsSameBut s t [Off.CAM_STATUS c]) ∧
    ∃ t, exec (.cameraLinkDown c) s = .next t ∧ t = { s with dev := { s.dev with regs := t.dev.regs } } ∧ t.dev.b (Off.CAM_STATUS c) 0 = false ∧
      t.dev.b (Off.CAM_EVENTS c) 4 = true ∧ RegsSameBut s t [Off.CAM_STATUS c, Off.CAM_EVENTS c]) ∧
  (∀ (s : State) (p : Nat) (late : List (Nat × Nat)), s.dev.pipeOn p = false →
    ∀ c ∈ [Instr.displayLatch p, .displayFrameEnd p late, .displayLinkTrained p, .displayLinkDown p], exec c s = .next s) ∧
  (∀ (s : State) (c : Nat) (e : CamEnd), c < 16 → (s.dev.camera c).cur = none → s.dev.effB (Off.CAM_CTRL c) 0 = true → c < 8 * s.dev.ioDies →
    s.dev.domOn (33 + c / 8) = true → s.dev.camTooSoon c = false →
    ∃ t f, exec (.cameraFrameStart c e) s = .next t ∧ t = { s with dev := { s.dev with regs := t.dev.regs, media := t.dev.media } } ∧
      (t.dev.camera c).cur = some f ∧ f.number = ((s.dev.camera c).frames + 1) % 2 ^ 32 ∧ (t.dev.camera c).frames = f.number ∧ f.sofNs = s.dev.nsField ∧
      f.sofOver = s.dev.over % 2 ^ 32 ∧ (t.dev.camera c).lastStart = some s.dev.now ∧ t.dev.b (Off.CAM_STATUS c) 1 = true ∧
      (let a := s.dev.effAddr (Off.CAM_PARAM_LO c) (Off.CAM_PARAM_HI c)
       f.params = if s.dev.verdict (.camera c) (s.dev.world (.camera c)) .read a 4096 = .ok then some (s.bytes a 4096) else none) ∧
      ∀ o < 2, o ∈ f.outs ↔ s.dev.effB (Off.CAM_OUT_CTRL c o) 0 = true ∧
        (s.dev.n (Off.CAM_PROD c o) + 2 ^ 32 - s.dev.n (Off.CAM_CONS c o) % 2 ^ 32) % 2 ^ 32 ≠ s.dev.camBufs c o) ∧
  (∀ (s : State) (c : Nat) (e : CamEnd), (s.dev.camera c).cur = none → s.dev.effB (Off.CAM_CTRL c) 0 = true → c < 8 * s.dev.ioDies →
    s.dev.domOn (33 + c / 8) = true → s.dev.camTooSoon c = true →
    ∃ t, exec (.cameraFrameStart c e) s = .next t ∧ t = { s with dev := { s.dev with regs := t.dev.regs, media := t.dev.media } } ∧
      t.dev.camera c = { s.dev.camera c with frames := ((s.dev.camera c).frames + 1) % 2 ^ 32 } ∧
      t.dev.n (Off.CAM_CNT_DROP c) = satInc 32 (s.dev.n (Off.CAM_CNT_DROP c)) ∧ RegsSameBut s t [Off.CAM_CNT_DROP c]) ∧
  (∀ (s : State) (c : Nat) (e : CamEnd), exec (.cameraFrameEnd c e) s = .next (s.camEnd c e false)) ∧
  (∀ (s : State) (c x : Nat) (e : CamEnd), (s.dev.camera c).lastStart = some x →
    exec (.cameraFrameTimeout c e) s = .next (if x + 100000000 ≤ s.dev.now then s.camEnd c e true else s)) ∧
  (∀ (s : State) (c : Nat) (e e' : CamEnd), exec (.cameraFrameStart c e) s = exec (.cameraFrameStart c e') (s.camEnd c e true)) ∧
  (∀ (s : State) (c o base i : Nat) (f : CamFrame) (e : CamEnd) (late : Bool) (bs : List Byte), c < 16 → o < 2 → (s.dev.camera c).cur = some f → f.outs = [o] →
    s.dev.effF (Off.CAM_SIZE c) 31 16 ≤ e.lines → e.errors = 0 → KMap.find e.data o = some bs → bs ≠ [] → bs.length ≤ s.dev.camBytes c o →
    i = s.dev.n (Off.CAM_PROD c o) % s.dev.camBufs c o →
    base = s.dev.effAddr (Off.CAM_BUF_BASE_LO c o) (Off.CAM_BUF_BASE_HI c o) + i * (s.dev.eff (Off.CAM_BUF_STRIDE c o)).toNat →
    s.dev.verdict (.camera c) (s.dev.world (.camera c)) .write base bs.length = .ok →
    ∃ v t : State, t = s.camEnd c e late ∧ v.mem = (s.put base bs).mem ∧
      (v.dev.verdict (.camera c) (v.dev.world (.camera c)) .write (s.dev.effAddr (Off.CAM_REC_BASE_LO c o) (Off.CAM_REC_BASE_HI c o) + i * 32) 32 = .ok →
        t.mem = (v.put (s.dev.effAddr (Off.CAM_REC_BASE_LO c o) (Off.CAM_REC_BASE_HI c o) + i * 32)
          (leBytes 4 f.number ++ leBytes 2 (if late = true then 0x13 else 0) ++ leBytes 1 i ++ [0] ++ leBytes 4 f.sofNs ++ leBytes 4 s.dev.nsField ++
            leBytes 4 f.sofOver ++ leBytes 4 (s.dev.over % 2 ^ 32) ++ leBytes 2 (s.dev.effF (Off.CAM_SIZE c) 31 16) ++ [0, 0] ++ leBytes 4 bs.length)).mem) ∧
      t.dev.n (Off.CAM_PROD c o) = (s.dev.n (Off.CAM_PROD c o) + 1) % 2 ^ 32 ∧ (t.dev.camera c).cur = none ∧ t.dev.b (Off.CAM_STATUS c) 1 = false ∧
      t.flash = s.flash ∧ t.pending = s.pending)

/-- Codec jobs are taken in turn and end with their record; a running DRAW_LIST bins, shades, yields, renders in part and stores (R459, R463, R466, R469, R470, R487, R488, R489). -/
def Obligations.CodecJobsAndDrawLists : Prop :=
  (∀ (s : State) (v a : Nat), a = s.dev.effAddr (Off.VC_RING_BASE_LO v) (Off.VC_RING_BASE_HI v) + s.dev.n (Off.VC_CONS v) % s.dev.vcSize v * 64 →
    (let taken := fun (t : State) =>
       if s.dev.verdict (.codec v) (s.dev.world (.codec v)) .read a 64 = .ok then
         (t.dev.session v).job = some { x := s.dev.n (Off.VC_CONS v), desc := s.bytes a 64, startNs := s.dev.nsField } ∧
         t.dev.n (Off.VC_CONS v) = (s.dev.n (Off.VC_CONS v) + 1) % 2 ^ 32 ∧ RegsSameBut s t [Off.VC_CONS v]
       else t.dev.vcState v = 2 ∧ t.dev.f (Off.VC_STATUS v) 7 4 = 2 ∧ (t.dev.session v).job = none
     (s.dev.vcCan v false s.dev.media.lastDec = true →
       (∃ t, exec (.decodeJob ⟨v, .clean⟩) s = .next t ∧ t = { s with dev := { s.dev with regs := t.dev.regs, media := t.dev.media } } ∧
         t.dev.media.lastDec = v ∧ taken t) ∧
       ∃ t, exec (.decodeJob ⟨v, .uncorrectable⟩) s = .next t ∧ t.dev.vcState v = 2 ∧ t.dev.f (Off.VC_STATUS v) 7 4 = 2 ∧ (t.dev.session v).job = none) ∧
     (s.dev.vcCan v true s.dev.media.lastEnc = true →
       (∃ t, exec (.encodeJob ⟨v, .clean⟩) s = .next t ∧ t = { s with dev := { s.dev with regs := t.dev.regs, media := t.dev.media } } ∧
         t.dev.media.lastEnc = v ∧ taken t) ∧
       ∃ t, exec (.encodeJob ⟨v, .uncorrectable⟩) s = .next t ∧ t.dev.vcState v = 2 ∧ t.dev.f (Off.VC_STATUS v) 7 4 = 2 ∧ (t.dev.session v).job = none))) ∧
  (∀ (s : State) (v pts : Nat) (j : CodecJob) (b1 b2 b3 b4 : Bool) (out : List Byte) (e : Ecc), (s.dev.session v).job = some j → j.sizeOk = false →
    exec (.codecJobDone v b1 b2 b3 b4 pts out e) s =
      .next (s.vcRecord v j 0x20 0 (if s.dev.effB (Off.VC_CTRL v) 1 = true then out.length else j.picture) (j.at 0x30 8))) ∧
  (∀ (s : State) (v pts : Nat) (j : CodecJob) (key conc : Bool) (out made : List Byte), (s.dev.session v).job = some j → j.reservedOk = true → j.sizeOk = true →
    made = (if s.dev.effB (Off.VC_CTRL v) 1 = true then out else out.take j.picture) → made ≠ [] →
    (if s.dev.effB (Off.VC_CTRL v) 1 = true then out.length else j.picture) ≤ j.at 0x14 4 → j.context ≤ (s.dev.eff (Off.VC_CTX_MIB v)).toNat * 2 ^ 20 →
    s.dev.verdict (.codec v) (s.dev.world (.codec v)) .read (j.at 8 8) (j.at 0x10 4) = .ok →
    s.dev.verdict (.codec v) (s.dev.world (.codec v)) .write (s.dev.effAddr (Off.VC_CTX_BASE_LO v) (Off.VC_CTX_BASE_HI v)) j.context = .ok →
    s.dev.verdict (.codec v) (s.dev.world (.codec v)) .write (j.at 0x18 8) made.length = .ok →
    ∃ u : State, exec (.codecJobDone v true true key conc pts out .clean) s = .next (u.vcRecord v j 0
        ((if s.dev.effB (Off.VC_CTRL v) 1 = true then 0 else 1) + (if key = true then 2 else 0) + if conc = true then 4 else 0) made.length (if s.dev.effB (Off.VC_CTRL v) 1 = true then j.at 0x30 8 else pts)) ∧
      BytesSameBut (s.put (j.at 0x18 8) made) u (s.dev.localAddr (s.dev.effAddr (Off.VC_CTX_BASE_LO v) (Off.VC_CTX_BASE_HI v))) j.context) ∧
  (∀ (s : State) (v status flags used pts a : Nat) (j : CodecJob), v < 16 → (s.dev.session v).job = some j →
    a = s.dev.effAddr (Off.VC_CPL_BASE_LO v) (Off.VC_CPL_BASE_HI v) + j.x % s.dev.vcSize v * 32 →
    s.dev.verdict (.codec v) (s.dev.world (.codec v)) .write a 32 = .ok →
    (let t := s.vcRecord v j status flags used pts
     (t.dev.session v).job = none ∧ t.flash = s.flash ∧ t.pending = s.pending ∧
     t.mem = (s.put a (leBytes 4 j.x ++ leBytes 2 status ++ leBytes 1 (flags + 128 * phaseBit j.x (s.dev.vcSize v)) ++ [0] ++ leBytes 4 (j.at 0 4) ++
       leBytes 4 used ++ leBytes 8 pts ++ leBytes 4 j.startNs ++ leBytes 4 s.dev.nsField)).mem)) ∧
  (∀ (s : State) (id x n k st : Nat) (c : Cmd) (w : DrawSt), s.dev.cmd id = some c → c.op = 0x30 → c.phase = .running → x = c.at 0x1C 1 → w = c.draw →
    (w.bins = true → 1 ≤ n → n ≤ 1024 → k ≤ 32 →
      (let z := n * ((16 + 4 * k + 15) / 16 * 16)
       (w.binUsed + z ≤ s.dev.binBytes x → ∃ t, exec (.drawList id [.batch n k]) s = .next t ∧ t = { s with dev := { s.dev with regs := t.dev.regs, cmds := t.dev.cmds } } ∧
         t.dev.cmd id = some { c with draw := { w with binUsed := w.binUsed + z, batch := (z, false) } } ∧
         s.dev.n (Off.GFX_POOL_PEAK x) ≤ t.dev.n (Off.GFX_POOL_PEAK x)) ∧
       (s.dev.binBytes x < w.binUsed + z → s.dev.extBytes x < w.extUsed + z →
         ∃ t, exec (.drawList id [.batch n k]) s = .next t ∧ t = { s with dev := { s.dev with regs := t.dev.regs, cmds := t.dev.cmds } } ∧
           t.dev.cmd id = some { c with draw := { w with full := true } } ∧ t.dev.f (Off.GFX_CTX_STATUS x) 2 0 = 3))) ∧
    (w.bins = true → ∃ t, exec (.drawList id [.drawDone]) s = .next t ∧ t = { s with dev := { s.dev with regs := t.dev.regs, cmds := t.dev.cmds } } ∧
      t.dev.cmd id = some { c with draw := { w with next := nextDraw w.list (w.next + 1) } } ∧
      (recType w.list (nextDraw w.list (w.next + 1)) = 0 → t.dev.f (Off.GFX_CTX_STATUS x) 2 0 = 2)) ∧
    (let o := w.owner.getD st 64
     w.wants o = some st → (s.dev.tile o).cmd = none → s.dev.tileState o = 1 → s.dev.commandDue o = false → s.dev.dueWithin o (s.dev.jobNs x) = false →
       s.dev.jobOutranked id x o = false →
       ∃ t, exec (.drawList id [.job st]) s = .next t ∧ t = { s with dev := { s.dev with regs := t.dev.regs, cmds := t.dev.cmds, tiles := t.dev.tiles } } ∧
         (t.dev.tile o).cmd = some id ∧ t.dev.f (Off.TILE_STATUS o) 2 0 = 2 ∧ t.dev.cmd id = some { c with draw := { w with jobs := KMap.put w.jobs o st, since := KMap.put w.since o s.dev.now } }) ∧
    (∀ j late, w.jobs.find? (fun y => y.2 == st) = some j → w.boundary st = true →
       ∃ t, exec (.drawList id [.yield st late]) s = .next t ∧
         t = { s with dev := { s.dev with regs := t.dev.regs, cmds := t.dev.cmds, tiles := t.dev.tiles, fresh := t.dev.fresh } } ∧
         (t.dev.tile j.1).cmd = none ∧ t.dev.cmd id = some { c with draw := { w with jobs := KMap.del w.jobs j.1, since := KMap.del w.since j.1 } }) ∧
    (w.full = true → w.allShaded = true → ∃ t y, exec (.drawList id [.partialDone]) s = .next t ∧
       t = { s with dev := { s.dev with regs := t.dev.regs, cmds := t.dev.cmds } } ∧ t.dev.cmd id = some { c with draw := y } ∧ y.prims = [] ∧ y.full = false ∧
       y.binUsed + y.extUsed = w.batch.1 ∧ y.px = w.px ∧ t.dev.n (Off.GFX_CNT_PARTIAL x) = satInc 32 (s.dev.n (Off.GFX_CNT_PARTIAL x)) ∧
       t.dev.f (Off.GFX_CTX_STATUS x) 2 0 = 1) ∧
    (∀ (p : Prim) (rest : List Prim) (frags : List Frag), w.jobs.any (fun j => j.2 == st) = true → s.dev.mustYield id x st w = false →
       footprint w.list = 0 ∨ s.dev.gfxBanks x (w.owner.getD st 64) ≠ [] → w.todo st = p :: rest →
       ∃ t z, exec (.drawList id [.shade st frags]) s = .next t ∧ t = { s with dev := { s.dev with cmds := t.dev.cmds, fresh := t.dev.fresh } } ∧
         t.dev.cmd id = some { c with draw := z } ∧ KMap.getD z.passed st 0 = KMap.getD w.passed st 0 + 1 ∧ z.prims = w.prims) ∧
    (∀ (u : State) (y : Cmd), footprint w.list = 0 ∨ s.dev.gfxBanks x (w.owner.getD st 64) ≠ [] → recType w.list w.next = 0 → w.allShaded = true → st < w.owner.length → st ∉ w.stored → w.owner.length ≤ w.stored.length + 1 →
       s.storeTargets id st c w (tgtCount w.list) = (u, true) → u.dev.cmd id = some y →
       ∃ t z, exec (.drawList id [.store st]) s = .next t ∧ t.mem = u.mem ∧ t.dev.cmd id = some z ∧ z.phase = .ended ∧ z.draw.stored = st :: y.draw.stored))

/-- A received frame is counted, matched, metered, filtered, recovered and queued; the highest open class sends; loads, lists, counters and links (R499, R501, R503, R504, R505, R506, R507, R509, R510, R534). -/
def Obligations.FramesThroughTheGateway : Prop :=
  (∀ (s : State) (p : Nat) (b : List Byte) (sec : Option MacRx) (j : Int), p < 14 → s.dev.portUp p = true → s.dev.b Off.GW_CTRL 0 = true → b.length ≤ 9280 →
    (s.dev.matchFlow p b = none → exec (.frameReceive p b false sec j) s = .next (s.onDev (fun d => d.incSat (Off.GW_PORT_RX_ERR p)))) ∧
    (s.dev.b (Off.GW_PORT_CTRL p) 2 = false → ¬ (p ≤ 11 ∧ beAt b 12 2 = 0x88F7) →
      (s.dev.matchFlow p b = none → s.dev.f (Off.GW_PORT_CTRL p) 5 4 ≠ 1 →
        ∃ t, exec (.frameReceive p b true sec j) s = .next t ∧ t = { s with dev := { s.dev with regs := t.dev.regs } } ∧
          t.dev.n (Off.GW_PORT_RX_FRAMES p) = satInc 32 (s.dev.n (Off.GW_PORT_RX_FRAMES p)) ∧ t.dev.n Off.GW_CNT_MISS = satInc 32 (s.dev.n Off.GW_CNT_MISS) ∧
          RegsSameBut s t [Off.GW_PORT_RX_FRAMES p, Off.GW_CNT_MISS]) ∧
      (∀ f x, s.dev.matchFlow p b = some (f, x) → s.dev.flow f = some x → s.dev.cutThrough p x = none →
        (let one := fun (t : State) (k : Nat) => exec (.frameReceive p b true sec j) s = .next t ∧
           t = { s with dev := { s.dev with regs := t.dev.regs, gw := t.dev.gw } } ∧ (∀ f', f' ≠ f → t.dev.flow f' = s.dev.flow f') ∧
           (∃ y, t.dev.flow f = some y ∧ y.raw = x.raw ∧ y.changed = true ∧ y.counts = x.counts.set k ((x.counts.getD k 0 + 1) % 2 ^ 32)) ∧
           t.dev.n (Off.GW_PORT_RX_FRAMES p) = satInc 32 (s.dev.n (Off.GW_PORT_RX_FRAMES p))
         (x.flag 5 = true → x.quiet s.dev.now = false → beAt b (rtagAt b) 2 = 0xF1C1 → (x.recover (beAt b (rtagAt b + 4) 2)).1 = false → ∃ t, one t 3 ∧ RegsSameBut s t [Off.GW_PORT_RX_FRAMES p]) ∧
         (x.flag 5 = false → x.at 0x10 2 ≠ 0 → x.at 0x10 2 < b.length → ∃ t, one t 1 ∧ RegsSameBut s t [Off.GW_PORT_RX_FRAMES p]) ∧
         (x.flag 5 = false → x.at 0x10 2 = 0 → 63 < x.at 0x12 1 → (x.meter s.dev.now (b.length + 4)).1 = 2 → ∃ t, one t 1 ∧ RegsSameBut s t [Off.GW_PORT_RX_FRAMES p]) ∧
         (∀ q, x.egress = [q] → q < 14 → x.flag 1 = false → x.flag 4 = false → x.flag 5 = false → x.at 0x10 2 = 0 → 63 < x.at 0x12 1 →
            (x.meter s.dev.now (b.length + 4)).1 = 0 → x.at 0x13 1 % 8 = 0 →
            (let old := KMap.getD s.dev.gw.queues (q * 8 + x.tc) []
             let fits := qBytes old + b.length ≤ s.dev.f (Off.GW_PORT_QLIMIT q) 10 0 * 1024 ∧
               (s.dev.gw.queues.map (fun y => qBytes y.2)).sum + b.length ≤ 8 * 2 ^ 20
             ∃ t, one t 0 ∧
               (s.dev.portUp q = true → fits → RegsSameBut s t [Off.GW_PORT_RX_FRAMES p] ∧
                 KMap.getD t.dev.gw.queues (q * 8 + x.tc) [] = old ++ [{ bytes := b, flow := f, ts := none, pdu := none }]) ∧
               (s.dev.portUp q = false ∨ ¬ fits → t.dev.gw.queues = s.dev.gw.queues ∧ t.dev.b (Off.GW_PORT_EVENTS q) 2 = true ∧
                 t.dev.n (Off.GW_PORT_Q_DROP q) = satInc 32 (s.dev.n (Off.GW_PORT_Q_DROP q)) ∧
                 RegsSameBut s t [Off.GW_PORT_RX_FRAMES p, Off.GW_PORT_Q_DROP q, Off.GW_PORT_EVENTS q]))))))) ∧
  (∀ (x : Flow) (now n cb eb : Nat), x.at 0x14 4 ≠ 0 ∨ x.at 0x1C 4 ≠ 0 → cb = min (x.at 0x18 4 * 8000000) (x.cBucket + x.at 0x14 4 * (now - x.filledAt)) →
    eb = min (x.at 0x20 4 * 8000000) (x.eBucket + x.at 0x1C 4 * (now - x.filledAt)) →
    ((x.meter now n).1 = 0 ↔ n * 8000000 ≤ cb) ∧ ((x.meter now n).1 = 2 ↔ cb < n * 8000000 ∧ eb < n * 8000000) ∧
    (x.meter now n).2.cBucket + (if (x.meter now n).1 = 0 then n * 8000000 else 0) = cb ∧ (x.meter now n).2.eBucket + (if (x.meter now n).1 = 1 then n * 8000000 else 0) = eb) ∧
  (∀ (s : State) (p : Nat) (b sd : List Byte) (ok : Bool) (sec : Option MacRx) (j : Int), s.dev.portUp p = false ∨ s.dev.b Off.GW_CTRL 0 = false →
    exec (.frameReceive p b ok sec j) s = .next s ∧ exec (.frameTransmit p sd j) s = .next s) ∧
  (∀ (s : State) (p tc : Nat) (sec : List Byte) (j : Int) (q : QFrame) (rest : List QFrame), p < 14 → tc < 8 → s.dev.portUp p = true → s.dev.b Off.GW_CTRL 0 = true →
    s.dev.b (Off.GW_PORT_CTRL p) 2 = false ∨ 12 ≤ p → KMap.getD s.dev.gw.queues (p * 8 + tc) [] = q :: rest →
    s.dev.gateFits p tc (wireNs p (q.bytes.length + wireExtra)) = true → (∀ k, tc < k → k < 8 → s.dev.classReady p k = false) → q.pdu = none → q.ts = none →
    ∃ t, exec (.frameTransmit p sec j) s = .next t ∧ t = { s with dev := { s.dev with regs := t.dev.regs, gw := t.dev.gw, out := .ethFrame p q.bytes :: s.dev.out } } ∧
      t.dev.gw = { s.dev.gw with queues := KMap.put s.dev.gw.queues (p * 8 + tc) rest } ∧
      t.dev.n (Off.GW_PORT_TX_FRAMES p) = satInc 32 (s.dev.n (Off.GW_PORT_TX_FRAMES p)) ∧ RegsSameBut s t [Off.GW_PORT_TX_FRAMES p]) ∧
  (∀ (s : State) (p : Nat) (sec : List Byte) (j : Int), (∀ k, k < 8 → s.dev.classReady p k = false) → exec (.frameTransmit p sec j) s = .next s) ∧
  (∀ (s : State) (p k : Nat), s.dev.classReady p k = true ↔ ∃ q rest, KMap.getD s.dev.gw.queues (p * 8 + k) [] = q :: rest ∧
    s.dev.gateFits p k (wireNs p (q.bytes.length + wireExtra)) = true) ∧
  (∀ (s : State) (l : Nat) (g : GList), (s.dev.gcl l).cur = some g →
    if s.dev.deadOver = false ∧ (s.dev.gcl l).entry < g.entries.length ∧ (s.dev.gcl l).entryEnd g ≤ s.dev.now then
      ∃ t, exec (.gclEntry l) s = .next t ∧ t = { s with dev := { s.dev with regs := t.dev.regs, gw := t.dev.gw } } ∧ (t.dev.gcl l).entry = (s.dev.gcl l).entry + 1 ∧
        t.dev.gates l = (g.entries.getD (s.dev.gcl l).entry (255, 0)).1 ∧ RegsSameBut s t ((List.range 18).map Off.GW_PORT_STATUS) ∧
        ∀ p, p < 18 → s.dev.b (Off.GW_PORT_GCL p) 0 = true → s.dev.f (Off.GW_PORT_GCL p) 13 8 = l →
          t.dev.f (Off.GW_PORT_STATUS p) 15 8 = ((s.dev.gcl l).entry + 1) % 256 ∧ t.dev.b (Off.GW_PORT_STATUS p) 16 = true
    else exec (.gclEntry l) s = .next s) ∧
  (∀ (s : State) (tb first n : Nat) (rest : List (Nat × Nat × Nat)), s.dev.gw.load = (tb, first, n) :: rest → 4 ≤ s.dev.stage →
    ∃ t, exec .loadDone s = .next t ∧ t.flash = s.flash ∧ t.pending = s.pending ∧ t.dev.gw.load = rest ∧ t.dev.b Off.GW_EVENTS 0 = true ∧
      t.dev.b Off.GW_STATUS 1 = !rest.isEmpty ∧ (n = 1 → t.mem = (s.loadOne tb first).mem ∧ t.dev.gw.flows = (s.loadOne tb first).dev.gw.flows)) ∧
  (∀ s : State, s.dev.gw.load = [] ∨ s.dev.stage < 4 → exec .loadDone s = .next s) ∧
  (∀ (s : State) (n : Nat) (b : List Byte), b = s.bytes (s.dev.gwTable + n * 64) 64 →
    s.dev.verdict .gwTables (s.dev.world .gwTables) .read (s.dev.gwTable + n * 64) 64 = .ok →
    (s.dev.flowOk n b = true → leAt b 0 1 ≠ 0 → (s.loadOne 0 n).mem = s.mem ∧ (s.loadOne 0 n).dev.regs = s.dev.regs ∧
      (s.loadOne 0 n).dev.flow n = some { newFlow s.dev b with counts := ((s.dev.flow n).map (fun x => x.counts)).getD [0, 0, 0, 0] }) ∧
    (s.dev.flowOk n b = false → (s.loadOne 0 n).dev.flow n = none ∧ (s.loadOne 0 n).dev.b Off.GW_EVENTS 1 = true ∧
      (s.loadOne 0 n).dev.n Off.GW_CNT_LOAD_REJECT = satInc 32 (s.dev.n Off.GW_CNT_LOAD_REJECT)) ∧
    ∀ n', n' ≠ n → (s.loadOne 0 n).dev.flow n' = s.dev.flow n') ∧
  (∀ (s : State) (f : Nat) (x : Flow), s.dev.flow f = some x →
    (x.changed = false → exec (.flowCounterWrite f) s = .next s) ∧
    (x.changed = true → s.dev.verdict .gwTables (s.dev.world .gwTables) .write (s.dev.gwTable + 0x500000 + f * 16) 16 = .ok →
      ∃ t, exec (.flowCounterWrite f) s = .next t ∧ t.mem = (s.put (s.dev.gwTable + 0x500000 + f * 16) ((List.range 4).flatMap (fun k => leBytes 4 (x.counts.getD k 0)))).mem ∧
        t.flash = s.flash ∧ t.pending = s.pending ∧ t.dev.flow f = some { x with changed := false }) ∧
    ∃ t, exec (.recoveryReset f) s = .next t ∧ t = { s with dev := { s.dev with gw := t.dev.gw } } ∧
      t.dev.flow f = some (if x.flag 5 = true ∧ x.quiet s.dev.now = true then { x with takeAny := true, recHist := 0 } else x) ∧
      ∀ n, (({ x with takeAny := true, recHist := 0 } : Flow).recover n).1 = true) ∧
  (∀ (s : State) (p : Nat), p < 14 →
    (∃ t, exec (.linkDown p) s = .next t ∧ t = { s with dev := { s.dev with regs := t.dev.regs, gw := t.dev.gw } } ∧ t.dev.b (Off.GW_PORT_STATUS p) 0 = false ∧
      t.dev.b (Off.GW_PORT_EVENTS p) 1 = true ∧ t.dev.portUp p = false ∧
      (∀ k, KMap.find t.dev.gw.queues k = if k / 8 = p then none else KMap.find s.dev.gw.queues k) ∧
      (s.dev.n (Off.GW_PORT_Q_DROP p) < 2 ^ 32 → t.dev.n (Off.GW_PORT_Q_DROP p) =
        satAdd 32 (s.dev.n (Off.GW_PORT_Q_DROP p)) (((List.range 8).map (fun c => (KMap.getD s.dev.gw.queues (p * 8 + c) []).length)).sum))) ∧
    (s.dev.portThere p = true → ∃ t, exec (.linkUp p) s = .next t ∧ t = { s with dev := { s.dev with regs := t.dev.regs } } ∧ t.dev.b (Off.GW_PORT_STATUS p) 0 = true ∧
      RegsSameBut s t ([Off.GW_PORT_STATUS p] ++ if 12 ≤ p then [Off.T1S_STATUS (p - 12)] else []) ∧
      (12 ≤ p → t.dev.b (Off.T1S_STATUS (p - 12)) 0 = (s.dev.f (Off.T1S_CTRL (p - 12)) 1 0 == 3))))

/-- CAN and LIN frames reach their PDU, tunnel or nowhere; PDUs are queued once, sent with their buffers, routed, and time out (R513, R514, R515, R517, R518, R519, R520). -/
def Obligations.BusFramesAndPdus : Prop :=
  (∀ (s : State) (ch id fm : Nat) (ext : Bool) (b : List Byte), s.dev.canOn ch = true → s.dev.f (Off.CAN_STATUS ch) 1 0 < 2 → b.length ≤ 64 →
    (∀ n x, s.dev.sgOn = true → s.dev.rxPdu 1 ch (id + if ext = true then 2 ^ 31 else 0) = some (n, x) →
      s.dev.b (Off.CAN_CTRL ch) 5 = false ∨ nbit fm 5 = true →
      exec (.canFrameReceive ch id ext fm b) s = .next (s.onDev (fun d => (d.incSat (Off.CAN_RX_FRAMES ch)).receivePdu n x b))) ∧
    (s.dev.sgOn = false ∨ s.dev.rxPdu 1 ch (id + if ext = true then 2 ^ 31 else 0) = none →
      (s.dev.b (Off.CAN_CTRL ch) 5 = false ∨ nbit fm 5 = true → exec (.canFrameReceive ch id ext fm b) s = .next (s.onDev (fun d => d.incSat (Off.CAN_RX_FRAMES ch)))) ∧
      (∀ n f q, s.dev.b (Off.CAN_CTRL ch) 5 = true → nbit fm 5 = false → n = s.dev.f (Off.CAN_CTRL ch) 31 16 → s.dev.flow n = some f → f.kind = 2 → f.egress = [q] → q < 14 →
        f.flag 1 = false → f.flag 4 = false → f.at 0x13 1 % 8 = 0 → s.dev.portUp q = true →
        (let z := (s.dev.ntscf f ch (acfCan ch id ext fm b)).1
         let old := KMap.getD s.dev.gw.queues (q * 8 + f.tc) []
         qBytes old + z.length ≤ s.dev.f (Off.GW_PORT_QLIMIT q) 10 0 * 1024 → (s.dev.gw.queues.map (fun y => qBytes y.2)).sum + z.length ≤ 8 * 2 ^ 20 →
         ∃ t, exec (.canFrameReceive ch id ext fm b) s = .next t ∧ t = { s with dev := { s.dev with regs := t.dev.regs, gw := t.dev.gw } } ∧
           KMap.getD t.dev.gw.queues (q * 8 + f.tc) [] = old ++ [{ bytes := z, flow := n, ts := none, pdu := none }] ∧ t.dev.gw.pdus = s.dev.gw.pdus ∧
           RegsSameBut s t [Off.CAN_RX_FRAMES ch])))) ∧
  (∀ (d : Dev) (n : Nat) (x : Pdu) (b : List Byte), d.pdu n = some x → x.isTx = false → x.length ≤ b.length →
    (let p := b.take x.length
     let ctr := nfld (leNat p) ((x.length - 2) * 8 + 3) ((x.length - 2) * 8)
     let bad := x.flag 1 = true ∧ (x.lastCtr = some ctr ∨ leAt p (x.length - 1) 1 ≠ crcOf 3 (leBytes 4 x.id ++ p.take (x.length - 1)))
     (bad → (d.receivePdu n x b).gw = d.gw ∧ (d.receivePdu n x b).n Off.SG_CNT_E2E_FAIL = satInc 32 (d.n Off.SG_CNT_E2E_FAIL) ∧ (d.receivePdu n x b).b Off.SG_EVENTS 1 = true) ∧
     (¬ bad → (d.receivePdu n x b).pdu n = some { x with lastAt := d.now, timedOut := false, lastCtr := if x.flag 1 = true then some ctr else none } ∧
       ∀ r y, d.routesOf x = [r] → d.pdu (leAt r 0 2) = some y → y.isTx = true → y.medium ≠ 3 → leAt r 2 2 + leAt r 6 1 ≤ x.bits → leAt r 4 2 + leAt r 6 1 ≤ y.bits →
         (let z := putBits y.buf (leAt r 4 2) (leAt r 6 1) (nfld (leNat p) (leAt r 2 2 + leAt r 6 1 - 1) (leAt r 2 2))
          (d.receivePdu n x b).pdu (leAt r 0 2) = some { y with buf := z, queued := y.queued || (z != y.buf && y.flag 2) } ∧
          ∀ k, k ≠ n → k ≠ leAt r 0 2 → (d.receivePdu n x b).pdu k = d.pdu k)))) ∧
  (∀ (s : State) (ch id fm : Nat) (ext : Bool) (b : List Byte), s.dev.canOn ch = false ∨ 2 ≤ s.dev.f (Off.CAN_STATUS ch) 1 0 →
    exec (.canFrameReceive ch id ext fm b) s = .next s ∧ exec (.busOff ch) s = .next s) ∧
  (∀ (s : State) (ch : Nat), s.dev.canOn ch = true → s.dev.f (Off.CAN_STATUS ch) 1 0 < 2 → ∃ t, exec (.busOff ch) s = .next t ∧
    t = { s with dev := { s.dev with regs := t.dev.regs, fresh := t.dev.fresh } } ∧ t.dev.f (Off.CAN_STATUS ch) 1 0 = 2 ∧ t.dev.b (Off.CAN_EVENTS ch) 0 = true ∧
    RegsSameBut s t [Off.CAN_STATUS ch, Off.CAN_EVENTS ch]) ∧
  (∀ (s : State) (ch : Nat), s.dev.canOn ch = true → s.dev.f (Off.CAN_STATUS ch) 1 0 = 2 →
    (s.dev.b (Off.CAN_CTRL ch) 3 = true → ∃ t, exec (.busOffRecovery ch) s = .next t ∧ t = { s with dev := { s.dev with regs := t.dev.regs } } ∧
      t.dev.f (Off.CAN_STATUS ch) 1 0 = 0 ∧ RegsSameBut s t [Off.CAN_STATUS ch]) ∧
    (s.dev.b (Off.CAN_CTRL ch) 3 = false → exec (.busOffRecovery ch) s = .next s)) ∧
  (∀ (s : State) (n : Nat) (x : Pdu), s.dev.pdu n = some x → s.dev.sgOn = true → x.period ≠ 0 → x.medium ≠ 3 → x.isTx = true ∨ x.medium = 2 →
    if x.dueAt = s.dev.pduInstant x.raw then exec (.pduDue n []) s = .next s
    else ∃ t, exec (.pduDue n []) s = .next t ∧ t = { s with dev := { s.dev with regs := t.dev.regs, gw := t.dev.gw } } ∧
      t.dev.pdu n = some { x with dueAt := s.dev.pduInstant x.raw, queued := true } ∧ (∀ k, k ≠ n → t.dev.pdu k = s.dev.pdu k) ∧
      if x.queued = true then t.dev.n Off.SG_CNT_REPLACED = satInc 32 (s.dev.n Off.SG_CNT_REPLACED) ∧ RegsSameBut s t [Off.SG_CNT_REPLACED]
      else t.dev.regs = s.dev.regs) ∧
  (∀ (s : State) (n k : Nat) (x : Pdu), s.dev.pdu n = none → s.dev.pdu k = some x → x.medium = 1 → x.queued = true → x.flag 1 = false → s.dev.canSends x.channel = true →
    ∃ t, exec (.pduDue n [k]) s = .next t ∧ t.mem = s.mem ∧ t.dev.out = .canFrame x.channel (x.id % 2 ^ 29) (nbit x.id 31) x.marks x.buf :: s.dev.out ∧
      t.dev.pdu k = some { x with queued := false } ∧ t.dev.n (Off.CAN_TX_FRAMES x.channel) = satInc 32 (s.dev.n (Off.CAN_TX_FRAMES x.channel)) ∧
      RegsSameBut s t [Off.CAN_TX_FRAMES x.channel]) ∧
  (∀ (s : State) (ch : Nat), s.dev.linOn ch = false ∨ KMap.find s.dev.gw.linSlots ch = some (s.dev.linSlotNow ch) → exec (.linSlot ch) s = .next s) ∧
  (∀ (s : State) (ch n : Nat) (x : Pdu), s.dev.linOn ch = true → KMap.find s.dev.gw.linSlots ch ≠ some (s.dev.linSlotNow ch) → s.dev.pdu n = some x →
    s.dev.gw.pdus.find? (fun y => y.2.medium == 2 && y.2.channel == ch && y.2.queued) = some (n, x) →
    ∃ t, exec (.linSlot ch) s = .next t ∧ t = { s with dev := { s.dev with gw := t.dev.gw, out := t.dev.out } } ∧
      KMap.find t.dev.gw.linSlots ch = some (s.dev.linSlotNow ch) ∧
      (∀ k, k ≠ n → t.dev.pdu k = s.dev.pdu k) ∧ (x.isTx = false ∨ x.flag 1 = false → t.dev.pdu n = some { x with queued := false }) ∧
      if x.isTx = true then KMap.find t.dev.gw.linWait ch = none ∧
        (x.flag 1 = false → t.dev.out = .linFrame ch x.id (x.buf ++ leBytes 1 (linChecksum x.id x.buf)) :: s.dev.out)
      else t.dev.out = .linFrame ch x.id [] :: s.dev.out ∧ KMap.find t.dev.gw.linWait ch = some n) ∧
  (∀ (s : State) (ch n cs : Nat) (b : List Byte), ch < 8 → KMap.find s.dev.gw.linWait ch = some n →
    (let err := fun (t : State) (k : Nat) => t = { s with dev := { s.dev with regs := t.dev.regs, gw := t.dev.gw } } ∧
       t.dev.gw = { s.dev.gw with linWait := KMap.del s.dev.gw.linWait ch } ∧ t.dev.n (Off.LIN_CNT_ERR ch) = satInc 32 (s.dev.n (Off.LIN_CNT_ERR ch)) ∧
       t.dev.b (Off.LIN_EVENTS ch) k = true ∧ RegsSameBut s t [Off.LIN_CNT_ERR ch, Off.LIN_EVENTS ch]
     (∀ x, s.dev.pdu n = some x → cs = linChecksum x.id b → s.dev.sgOn = true →
       exec (.linResponse ch b cs) s = .next (s.onDev (fun d => (d.linDone ch).receivePdu n x b))) ∧
     (∀ x, s.dev.pdu n = some x → cs ≠ linChecksum x.id b → ∃ t, exec (.linResponse ch b cs) s = .next t ∧ err t 1) ∧
     ∃ t, exec (.noResponse ch) s = .next t ∧ err t 0)) ∧
  (∀ (s : State) (ch cs : Nat) (b : List Byte), KMap.find s.dev.gw.linWait ch = none →
    exec (.linResponse ch b cs) s = .next s ∧ exec (.noResponse ch) s = .next s) ∧
  (∀ (s : State) (n : Nat) (x : Pdu), s.dev.pdu n = some x → x.isTx = false → x.period ≠ 0 → s.dev.sgOn = true →
    (x.timedOut = true ∨ s.dev.now < x.lastAt + x.period * 1000 → exec (.rxTimeout n) s = .next s) ∧
    (x.timedOut = false → x.lastAt + x.period * 1000 ≤ s.dev.now →
      ∃ t, exec (.rxTimeout n) s = .next t ∧ t.dev.pdu n = some { x with timedOut := true } ∧ t.dev.n Off.SG_CNT_TIMEOUT = satInc 32 (s.dev.n Off.SG_CNT_TIMEOUT) ∧
        t.dev.b Off.SG_EVENTS 0 = true ∧ t.mem = s.mem ∧
        ∀ r y, s.dev.routesOf x = [r] → s.dev.pdu (leAt r 0 2) = some y → y.isTx = true → y.medium ≠ 3 → leAt r 4 2 + leAt r 6 1 ≤ y.bits →
          (let z := if nbit (leAt r 7 1) 0 = true then putBits y.buf (leAt r 4 2) (leAt r 6 1) (leAt r 8 4) else y.buf
           t.dev.pdu (leAt r 0 2) = some { y with buf := z, queued := y.queued || (z != y.buf && y.flag 2) } ∧
           ∀ k, k ≠ n → k ≠ leAt r 0 2 → t.dev.pdu k = s.dev.pdu k)))

/-- Captures and transmit timestamps queue, overflow by dropping the newest, and pop; a pulse output fires at its instant and goes on (R524, R525, R526). -/
def Obligations.CapturesTimestampsPulses : Prop :=
  (∀ (s : State) (i : Nat) (up : Bool) (q : List Nat), i < 4 → q = KMap.getD s.dev.gw.caps i [] →
    (s.dev.b (Off.CAP_CTRL i) 0 = false ∨ nbit (s.dev.f (Off.CAP_CTRL i) 2 1) (if up = true then 0 else 1) = false → exec (.timeCapture i up) s = .next s) ∧
    (s.dev.b (Off.CAP_CTRL i) 0 = true → nbit (s.dev.f (Off.CAP_CTRL i) 2 1) (if up = true then 0 else 1) = true →
      ∃ t, exec (.timeCapture i up) s = .next t ∧ t = { s with dev := { s.dev with regs := t.dev.regs, gw := { s.dev.gw with caps := t.dev.gw.caps } } } ∧
        (q.length < 8 → KMap.getD t.dev.gw.caps i [] = q ++ [s.dev.nsField + s.dev.secField % 65536 * 2 ^ 32 + (if up = true then 2 ^ 48 else 0) + 2 ^ 63] ∧
          t.dev.n (Off.CAP_HEAD i) = (KMap.getD t.dev.gw.caps i []).headD 0 % 2 ^ 64 ∧ RegsSameBut s t [Off.CAP_HEAD i]) ∧
        (8 ≤ q.length → t.dev.gw.caps = s.dev.gw.caps ∧ t.dev.n (Off.CAP_CNT_DROP i) = satInc 32 (s.dev.n (Off.CAP_CNT_DROP i)) ∧ t.dev.b Off.GW_EVENTS 4 = true ∧
          RegsSameBut s t [Off.CAP_CNT_DROP i, Off.GW_EVENTS]))) ∧
  (∀ (s : State) (m : Master) (i v : Nat) (q : List Nat), i < 4 → q = (KMap.getD s.dev.gw.caps i []).tail → s.dev.setupRefused m (Off.CAP_POP i) 4 = none →
    ∃ t, exec (.capPop m i v) s = .next t ∧
      t = { s with dev := { s.dev with regs := t.dev.regs, gw := { s.dev.gw with caps := t.dev.gw.caps }, resp := .ok } } ∧
      if nbit v 0 = true then KMap.getD t.dev.gw.caps i [] = q ∧ t.dev.n (Off.CAP_HEAD i) = q.headD 0 % 2 ^ 64 ∧ RegsSameBut s t [Off.CAP_HEAD i]
      else t.dev.gw = s.dev.gw ∧ t.dev.regs = s.dev.regs) ∧
  (∀ (s : State) (m : Master) (p v : Nat) (q : List Nat), p < 18 → q = (KMap.getD s.dev.gw.txts p []).tail → s.dev.setupRefused m (Off.GW_PORT_TXTS_POP p) 4 = none →
    ∃ t, exec (.txtsPop m p v) s = .next t ∧
      t = { s with dev := { s.dev with regs := t.dev.regs, gw := { s.dev.gw with txts := t.dev.gw.txts }, resp := .ok } } ∧
      if nbit v 0 = true then KMap.getD t.dev.gw.txts p [] = q ∧ t.dev.n (Off.GW_PORT_TXTS_HEAD p) = q.headD 0 % 2 ^ 64 ∧ RegsSameBut s t [Off.GW_PORT_TXTS_HEAD p]
      else t.dev.gw = s.dev.gw ∧ t.dev.regs = s.dev.regs) ∧
  (∀ (d : Dev) (p tag ns : Nat) (gone : Bool) (q : List Nat), p < 18 → q = KMap.getD d.gw.txts p [] →
    if q.length < 16 then
      KMap.getD (d.pushTs p tag ns gone).gw.txts p [] = q ++ [ns + tag % 65536 * 2 ^ 32 + (if gone = true then 2 ^ 48 else 0) + 2 ^ 63] ∧
      (d.pushTs p tag ns gone).n (Off.GW_PORT_TXTS_HEAD p) = (KMap.getD (d.pushTs p tag ns gone).gw.txts p []).headD 0 % 2 ^ 64
    else (d.pushTs p tag ns gone).gw = d.gw ∧ (d.pushTs p tag ns gone).n (Off.GW_PORT_TXTS_DROP p) = satInc 32 (d.n (Off.GW_PORT_TXTS_DROP p)) ∧
      (d.pushTs p tag ns gone).b (Off.GW_PORT_EVENTS p) 0 = true) ∧
  (∀ (s : State) (o : Nat) (x : Int), o < 8 → KMap.find s.dev.gw.pulses o = some x → s.dev.f (Off.PULSE_CTRL o) 1 0 ≠ 3 →
    (s.dev.hwNs < x → exec (.pulse o) s = .next s) ∧
    (x ≤ s.dev.hwNs → ∃ t, exec (.pulse o) s = .next t ∧
      t = { s with dev := { s.dev with regs := t.dev.regs, gw := { s.dev.gw with pulses := t.dev.gw.pulses }, out := .pulse o (s.dev.n (Off.PULSE_WIDTH_NS o)) (s.dev.b (Off.PULSE_CTRL o) 2) (s.dev.f (Off.PULSE_CTRL o) 31 16) :: s.dev.out } } ∧
      RegsSameBut s t [Off.PULSE_STATUS o] ∧
      (s.dev.f (Off.PULSE_CTRL o) 1 0 = 1 → KMap.find t.dev.gw.pulses o = none ∧ t.dev.b (Off.PULSE_STATUS o) 0 = false) ∧
      (s.dev.f (Off.PULSE_CTRL o) 1 0 = 2 → t.dev.b (Off.PULSE_STATUS o) 0 = true ∧
        ∃ (z : Int) (k : Nat), KMap.find t.dev.gw.pulses o = some z ∧ s.dev.hwNs < z ∧ z = s.dev.pulseStart o + k * (max 1 (s.dev.n (Off.PULSE_PERIOD_NS o)) : Nat) ∧
          (s.dev.pulseStart o ≤ s.dev.hwNs → z ≤ s.dev.hwNs + (max 1 (s.dev.n (Off.PULSE_PERIOD_NS o)) : Nat))))) ∧
  (∀ (s : State) (o : Nat), o < 8 → s.dev.f (Off.PULSE_CTRL o) 1 0 = 3 →
    if s.dev.f (Off.PULSE_CTRL o) 13 8 ≤ s.dev.f Off.OVER_BALL 5 0 ∧ o ∉ s.dev.gw.fired ∧
        ((s.dev.ballStart (s.dev.f (Off.PULSE_CTRL o) 13 8) + s.dev.n (Off.PULSE_PERIOD_NS o) : Nat) : Int) * subPerNs ≤ s.dev.time.run then
      exec (.pulse o) s = .next { s with dev := { s.dev with gw := { s.dev.gw with fired := o :: s.dev.gw.fired }, out := .pulse o (s.dev.n (Off.PULSE_WIDTH_NS o)) (s.dev.b (Off.PULSE_CTRL o) 2) (s.dev.f (Off.PULSE_CTRL o) 31 16) :: s.dev.out } }
    else exec (.pulse o) s = .next s)

/-- Submits are queued, BUSY, invalid or denied; answers and timeouts fill the next response slot; another MAJOR is undefined; heartbeats (R553, R554, R555, R556, R557, R558). -/
def Obligations.MailboxChannels : Prop :=
  (∀ (s : State) (m : Master) (v : Nat), s.dev.setupRefused m Off.VOX_HEARTBEAT 4 = none →
    exec (.voxHeartbeat m v) s = .next (if isMgmt m = true then { s with dev := { s.dev with vox := { s.dev.vox with beat := true, beatSince := true }, resp := .ok } }
      else { s with dev := { s.dev with resp := .ok } })) ∧
  (∀ (s : State) (m : Master) (c v : Nat) (b : List Byte), c < 16 → s.dev.setupRefused m (Off.MBX_SUBMIT c) 4 = none → b = (s.dev.box c).bytes →
    (nbit v 0 = false → exec (.mbxSubmit m c v) s = .next { s with dev := { s.dev with resp := .ok } }) ∧
    (nbit v 0 = true → s.dev.mbxUndefined m c = true → exec (.mbxSubmit m c v) s = .fault .mboxMajorUndefined) ∧
    (s.dev.mbxUndefined m c = true ↔ s.dev.b (Off.MBX_CH_CTRL c) 0 = true ∧ (s.dev.mbxWorld c = false ∨ s.dev.world m = true) ∧ leAt b 4 4 ≤ 496 ∧
      s.dev.mbxPending c + s.dev.mbxUnread c < 8 ∧ s.dev.vox.record ≠ [] ∧ leAt b 0 1 ≠ leAt s.dev.vox.record 4 2) ∧
    (nbit v 0 = true → s.dev.mbxUndefined m c = false → s.dev.b (Off.MBX_CH_CTRL c) 0 = true →
      ∃ t, exec (.mbxSubmit m c v) s = .next t ∧ t.mem = s.mem ∧ t.flash = s.flash ∧ t.pending = s.pending ∧ t.dev.resp = .ok ∧
        if s.dev.mbxWorld c = true ∧ s.dev.world m = false then t.dev.n (Off.MBX_SUBMIT_STATUS c) = 0x22 ∧ t.dev.vox = s.dev.vox ∧
          t.dev.n Off.WLD_CNT_DENIED = satInc 32 (s.dev.n Off.WLD_CNT_DENIED)
        else if 496 < leAt b 4 4 then t.dev.n (Off.MBX_SUBMIT_STATUS c) = 0x20 ∧ t.dev.vox = s.dev.vox ∧ RegsSameBut s t [Off.MBX_SUBMIT_STATUS c]
        else if 8 ≤ s.dev.mbxPending c + s.dev.mbxUnread c then t.dev.n (Off.MBX_SUBMIT_STATUS c) = 0x31 ∧ t.dev.b (Off.MBX_CH_EVENTS c) 1 = true ∧
          t.dev.vox = s.dev.vox ∧ RegsSameBut s t [Off.MBX_SUBMIT_STATUS c, Off.MBX_CH_EVENTS c]
        else t.dev.n (Off.MBX_SUBMIT_STATUS c) = 0 ∧ RegsSameBut s t [Off.MBX_SUBMIT_STATUS c] ∧ t.dev.mbxPending c = s.dev.mbxPending c + 1 ∧
          (t.dev.box c).reqs = (s.dev.box c).reqs ++ [{ msg := b.take (16 + leAt b 4 4), since := s.dev.now, timedOut := false, answer := none }] ∧
          (t.dev.box c).slots = (s.dev.box c).slots ∧ ∀ c', c' ≠ c → t.dev.box c' = s.dev.box c')) ∧
  (∀ (s : State) (c k : Nat) (r : MboxReq), c < 16 → s.dev.mbxReq c k = some r →
    (let said := fun (t : State) (status : Nat) (p : List Byte) =>
       t.mem = s.mem ∧ t.flash = s.flash ∧ t.pending = s.pending ∧
       KMap.find (t.dev.box c).slots (s.dev.n (Off.MBX_RSP_PROD c) % 8) = some (splice (KMap.getD (s.dev.box c).slots (s.dev.n (Off.MBX_RSP_PROD c) % 8) (zeros 512)) 0
         (leBytes 1 (leAt r.msg 0 1) ++ leBytes 1 (min (leAt r.msg 1 1) (leAt s.dev.vox.record 6 2)) ++ leBytes 2 (leAt r.msg 2 2) ++ leBytes 4 p.length ++
           leBytes 4 (leAt r.msg 8 4) ++ leBytes 2 status ++ [0, 0] ++ p)) ∧
       (∀ j, j ≠ s.dev.n (Off.MBX_RSP_PROD c) % 8 → KMap.find (t.dev.box c).slots j = KMap.find (s.dev.box c).slots j) ∧
       t.dev.n (Off.MBX_RSP_PROD c) = (s.dev.n (Off.MBX_RSP_PROD c) + 1) % 2 ^ 32 ∧ t.dev.b (Off.MBX_CH_EVENTS c) 0 = true ∧
       t.dev.out = .mboxIrq c (s.dev.f (Off.MBX_CH_CTRL c) 12 8) :: s.dev.out ∧ RegsSameBut s t [Off.MBX_RSP_PROD c, Off.MBX_CH_EVENTS c]
     (r.timedOut = true ∨ s.dev.now < r.since + s.dev.f (Off.MBX_CH_CTRL c) 29 16 * 1000000 → exec (.mbxTimeout c k) s = .next s) ∧
     (r.timedOut = false → r.since + s.dev.f (Off.MBX_CH_CTRL c) 29 16 * 1000000 ≤ s.dev.now →
       ∃ t, exec (.mbxTimeout c k) s = .next t ∧ said t 0x13 [] ∧ t.dev.b (Off.MBX_CH_EVENTS c) 2 = true ∧ t.dev.mbxReq c k = some { r with timedOut := true }) ∧
     (r.timedOut = true → (knownType (leAt r.msg 2 2) = false ∨ r.answer ≠ none) →
       ∃ t, exec (.mbxResponse c k) s = .next t ∧ t = { s with dev := { s.dev with vox := t.dev.vox } } ∧ (t.dev.box c).reqs = (s.dev.box c).reqs.eraseIdx k ∧
         (t.dev.box c).slots = (s.dev.box c).slots) ∧
     (r.timedOut = false → knownType (leAt r.msg 2 2) = false →
       ∃ t, exec (.mbxResponse c k) s = .next t ∧ said t 0x20 [] ∧ (t.dev.box c).reqs = (s.dev.box c).reqs.eraseIdx k) ∧
     (∀ a, r.timedOut = false → knownType (leAt r.msg 2 2) = true → r.answer = some a →
       ∃ t, exec (.mbxResponse c k) s = .next t ∧ said t a.1 a.2 ∧ (t.dev.box c).reqs = (s.dev.box c).reqs.eraseIdx k) ∧
     (knownType (leAt r.msg 2 2) = true → r.answer = none → exec (.mbxResponse c k) s = .next s)))

/-- Voxsar's answer to each message type: power readings, cap and target clamped, domain requests and states, the store, the report (R558, R561, R564, R565, R566). -/
def Obligations.MailboxMessages : Prop :=
  ∀ (s : State) (c k : Nat) (r : MboxReq),
    (let said := fun (t : State) (st : Nat) (p : List Byte) => t.dev.mbxReq c k = some { r with answer := some (st, p) } ∧ t.pending = s.pending
     (s.dev.mbxServes c k 0x10 = some r → ∀ temps, ∃ t, exec (.pwrGet c k temps) s = .next t ∧ t = { s with dev := { s.dev.measureTemps temps with vox := t.dev.vox } } ∧
       said t 0 (leBytes 4 (s.dev.n Off.PWR_INPUT_MV) ++ leBytes 4 (s.dev.n Off.PWR_INPUT_MW) ++ leBytes 4 (s.dev.n Off.PWR_LIMIT_W) ++ leBytes 4 (s.dev.n Off.PWR_CAP_W) ++
         leBytes 4 (unsignedOf 32 (s.dev.measureTemps temps).hottest) ++ leBytes 4 (s.dev.n Off.PWR_STATUS))) ∧
     (s.dev.mbxServes c k 0x11 = some r → s.dev.mbxWorld c = true → 4 ≤ r.payload.length →
       ∃ t, exec (.pwrSetCap c k) s = .next t ∧ t = { s with dev := { s.dev with regs := t.dev.regs, vox := t.dev.vox } } ∧
         t.dev.n Off.PWR_CAP_W = max 150 (min 560 (leAt r.payload 0 4)) ∧ said t 0 (leBytes 4 (max 150 (min 560 (leAt r.payload 0 4)))) ∧
         t.dev.n Off.PWR_LIMIT_W = min (t.dev.n Off.PWR_CAP_W) s.dev.power.supplyW ∧ RegsSameBut s t [Off.PWR_CAP_W, Off.PWR_LIMIT_W, Off.PWR_STATUS]) ∧
     (s.dev.mbxServes c k 0x12 = some r → s.dev.mbxWorld c = true → 4 ≤ r.payload.length →
       ∃ t, exec (.thermSetTarget c k) s = .next t ∧ t = { s with dev := { s.dev with regs := t.dev.regs, vox := t.dev.vox } } ∧
         t.dev.n Off.PWR_THERM_TARGET = max 70 (min 110 (leAt r.payload 0 4)) ∧ said t 0 (leBytes 4 (max 70 (min 110 (leAt r.payload 0 4)))) ∧
         RegsSameBut s t [Off.PWR_THERM_TARGET]) ∧
     (s.dev.mbxWorld c = false → ∀ x : Instr, (x = .pwrSetCap c k ∧ s.dev.mbxServes c k 0x11 = some r) ∨ (x = .thermSetTarget c k ∧ s.dev.mbxServes c k 0x12 = some r) ∨
         (∃ b, x = .oppStore c k b ∧ s.dev.mbxServes c k 0x30 = some r) →
       ∃ t, exec x s = .next t ∧ said t 0x22 [] ∧ t.mem = s.mem ∧ t.flash = s.flash ∧ t.dev.power = s.dev.power ∧
         t.dev.r Off.PWR_CAP_W = s.dev.r Off.PWR_CAP_W ∧ t.dev.r Off.PWR_THERM_TARGET = s.dev.r Off.PWR_THERM_TARGET ∧
         t.dev.n Off.WLD_CNT_DENIED = satInc 32 (s.dev.n Off.WLD_CNT_DENIED)) ∧
     (∀ h, s.dev.mbxServes c k 0x20 = some r → 4 ≤ r.payload.length →
       ∃ u : State, exec (.domSet c k h) s = .next u.admitAll ∧ u.mem = s.mem ∧
         u.dev.regs = (s.dev.domRequest .mgmt (s.dev.mbxWorld c) (leAt r.payload 0 1) (leAt r.payload 1 1) h).2.regs ∧
         said u (s.dev.domRequest .mgmt (s.dev.mbxWorld c) (leAt r.payload 0 1) (leAt r.payload 1 1) h).1 []) ∧
     (s.dev.mbxServes c k 0x21 = some r → 1 ≤ r.payload.length →
       ∃ t, exec (.domGet c k) s = .next t ∧ t = { s with dev := { s.dev with vox := t.dev.vox } } ∧
         (leAt r.payload 0 1 < 48 → said t 0 (leBytes 4 (s.dev.domReg (leAt r.payload 0 1)))) ∧ (48 ≤ leAt r.payload 0 1 → said t 0x20 [])) ∧
     (∀ b, s.dev.mbxServes c k 0x30 = some r → s.dev.mbxWorld c = true →
       ∃ t, exec (.oppStore c k b) s = .next t ∧ t = { s with flash := t.flash, dev := { s.dev with vox := t.dev.vox } } ∧
         if s.dev.conservative = true then said t 0x31 [] ∧ t.flash = s.flash
         else said t 0 [] ∧ (t.dev.vox.oppOlder + s.dev.vox.oppOlder) % 2 = 1 ∧
           (∀ a, a < 0x300000 + s.dev.vox.oppOlder % 2 * 0x80000 ∨ 0x380000 + s.dev.vox.oppOlder % 2 * 0x80000 ≤ a → t.flashByte a = s.flashByte a) ∧
           (b.length = 0x80000 → t.flashBytes (0x300000 + s.dev.vox.oppOlder % 2 * 0x80000) 0x80000 = b)) ∧
     (∀ b a, s.dev.mbxServes c k 0x40 = some r → 44 ≤ r.payload.length → b.length ≤ 6144 → a = leAt r.payload 32 8 % 2 ^ 52 →
       ∃ t, exec (.attest c k b) s = .next t ∧ t.flash = s.flash ∧
         if leAt r.payload 40 4 < b.length then said t 0x20 [] ∧ t.mem = s.mem ∧ t.dev.regs = s.dev.regs
         else if s.dev.verdict .mgmt (s.dev.mbxWorld c) .write a b.length = .ok then said t 0 (leBytes 4 b.length) ∧ t.mem = (s.put a b).mem
         else said t 0x22 [] ∧ t.mem = s.mem))

/-- Domain requests are checked in order and take effect; a refusal changes no domain; a waking domain comes ON with zeroed banks (R559, R560, R561, R562, R569). -/
def Obligations.DomainRequestsAndWakes : Prop :=
  (∀ (s : State) (m : Master) (k tag : Nat) (h : Bool), exec (.domainOn m k tag) s = .next (s.domWrite m k 0 tag false) ∧
    exec (.domainGate m k tag h) s = .next (s.domWrite m k 1 tag h) ∧ exec (.domainOff m k tag h) s = .next (s.domWrite m k 2 tag h)) ∧
  (∀ (s : State) (m : Master) (k tag op : Nat) (h : Bool), k < 48 → op ≤ 2 → s.dev.setupRefused m Off.PWR_DOM_REQ 4 = none →
    (let secure := if k < 32 then s.dev.b Off.PWR_DOM_OWNER_LO k else s.dev.b Off.PWR_DOM_OWNER_HI (k - 32)
     let refused := fun (status : Nat) => ∃ t, t = s.domWrite m k op tag h ∧ t.mem = s.mem ∧ t.flash = s.flash ∧ t.pending = s.pending ∧ t.dev.resp = .ok ∧
       t.dev.n Off.PWR_DOM_RESULT = status + tag % 65536 * 65536 ∧ (∀ j, j < 48 → t.dev.domState j = s.dev.domState j) ∧
       (status ≠ 0x22 → RegsSameBut s t [Off.PWR_DOM_RESULT]) ∧ (status = 0x22 → t.dev.n Off.WLD_CNT_DENIED = satInc 32 (s.dev.n Off.WLD_CNT_DENIED))
     (s.dev.domPresent k = false → refused 0x20) ∧
     (s.dev.domPresent k = true → s.dev.world m = false → secure = true → refused 0x22) ∧
     (s.dev.domPresent k = true → s.dev.world m = true ∨ secure = false →
       (16 ≤ k → k < 24 → op ≠ 0 → refused 0x20) ∧
       (¬ (16 ≤ k ∧ k < 24) → op ≠ 0 → s.dev.domIdle k h = false → refused 0x31) ∧
       (op = 0 ∨ (¬ (16 ≤ k ∧ k < 24) ∧ s.dev.domIdle k h = true) → s.dev.power.tripped = false →
         ∃ u : State, s.domWrite m k op tag h = (if k < 16 then u.admitAll else u) ∧ u.mem = s.mem ∧ u.flash = s.flash ∧ u.pending = s.pending ∧ u.dev.resp = .ok ∧
           u.dev.n Off.PWR_DOM_RESULT = tag % 65536 * 65536 ∧ (∀ j, j < 48 → j ≠ k → u.dev.domState j = s.dev.domState j) ∧
           u.dev.domState k = (if op = 1 then 2 else if op = 2 then 3 else if s.dev.domState k = 1 then 1 else 4) ∧
           (op ≠ 2 → RegsSameBut s u [Off.PWR_DOM_RESULT, Off.PWR_DOM_STATE k]) ∧
           (op = 2 → k < 16 → ∀ j, 4 * k ≤ j → j < 4 * k + 4 → u.dev.tileState j = 0 ∧ (u.dev.tile j).cmd = none))))) ∧
  (∀ (s : State) (k : Nat), k < 48 →
    (s.dev.domState k ≠ 4 → exec (.domainWakeDone k) s = .next s) ∧
    (s.dev.domState k = 4 → ∃ u : State, exec (.domainWakeDone k) s = .next u.admitAll ∧ u.flash = s.flash ∧ u.pending = s.pending ∧ u.dev.domState k = 1 ∧
      (16 ≤ k → u = { s with dev := { s.dev with regs := u.dev.regs } } ∧ RegsSameBut s u [Off.PWR_DOM_STATE k]) ∧
      (k < 16 → ∀ j, 4 * k ≤ j → j < 4 * k + 4 →
        (s.dev.tileState j = 0 → u.dev.tileState j = 1 ∧ ∀ a, a < 0x400000 → cellGet u.mem memDefault (bankAddr j 0 + a) = 0) ∧
        (s.dev.tileState j ≠ 0 → u.dev.tile j = s.dev.tile j ∧ u.dev.r (Off.TILE_STATUS j) = s.dev.r (Off.TILE_STATUS j)))))

/-- The supply limit follows the input, falls at once and rises; the cap lowers clocks in order; 125 and 130 degrees; the 24-hour store (R137, R139, R140, R564, R565, R566). -/
def Obligations.SupplyCapAndTemperature : Prop :=
  (∀ mv, (mv ≤ 12000 → supplyLimit mv = 300) ∧ (20000 ≤ mv → supplyLimit mv = 560) ∧
    (12000 ≤ mv → mv ≤ 20000 → 2000 * supplyLimit mv ≤ 600000 + 65 * (mv - 12000) ∧ 600000 + 65 * (mv - 12000) < 2000 * (supplyLimit mv + 1))) ∧
  (∀ (s : State) (mv : Nat),
    (let held := fun (t : State) (w : Nat) => t.dev.power.supplyW = w ∧ t.dev.n Off.PWR_INPUT_MV = mv % 2 ^ 32 ∧
       t.dev.n Off.PWR_LIMIT_W = min (s.dev.n Off.PWR_CAP_W) w ∧ t.dev.b Off.PWR_STATUS 2 = decide (w < s.dev.n Off.PWR_CAP_W) ∧
       RegsSameBut s t [Off.PWR_INPUT_MV, Off.PWR_LIMIT_W, Off.PWR_STATUS]
     (∃ t, exec (.supplyLimitFall mv) s = .next t ∧
       t = { s with dev := { s.dev with regs := t.dev.regs, power := { s.dev.power with supplyW := t.dev.power.supplyW, fellAt := t.dev.power.fellAt } } } ∧
       held t (min s.dev.power.supplyW (supplyLimit mv)) ∧
       t.dev.power.fellAt = if supplyLimit mv < s.dev.power.supplyW then s.dev.now else s.dev.power.fellAt) ∧
     ∃ t, exec (.supplyLimitRise mv) s = .next t ∧
       t = { s with dev := { s.dev with regs := t.dev.regs, power := { s.dev.power with supplyW := t.dev.power.supplyW } } } ∧
       held t (if s.dev.power.fellAt + 100000000 ≤ s.dev.now then max s.dev.power.supplyW (supplyLimit mv) else s.dev.power.supplyW))) ∧
  (∀ (s : State) (mw lim : Nat), lim = s.dev.n Off.PWR_LIMIT_W * 1000 →
    (mw ≤ lim → ∃ t, exec (.powerLimitExceeded mw) s = .next t ∧
      t = { s with dev := { s.dev with regs := t.dev.regs, power := { s.dev.power with mediaLow := false } } } ∧
      t.dev.b Off.PWR_STATUS 0 = false ∧ RegsSameBut s t [Off.PWR_INPUT_MW, Off.PWR_STATUS]) ∧
    (lim < mw → ∃ t, exec (.powerLimitExceeded mw) s = .next t ∧ t = { s with dev := { s.dev with regs := t.dev.regs, power := t.dev.power } } ∧
      t.dev.n Off.PWR_INPUT_MW = mw % 2 ^ 32 ∧ t.dev.b Off.PWR_STATUS 0 = true ∧
      ((∃ j, j ∈ s.dev.clocked ∧ s.dev.floorMhz j < s.dev.tileMhz j) → t.dev.power = s.dev.power ∧ ∀ j, j ∈ s.dev.clocked →
        (s.dev.floorMhz j < s.dev.tileMhz j → t.dev.tileMhz j = max (s.dev.floorMhz j) (s.dev.tileMhz j - 25) ∧ t.dev.r (Off.TILE_EVENTS j) = s.dev.r (Off.TILE_EVENTS j)) ∧
        (s.dev.tileMhz j ≤ s.dev.floorMhz j → t.dev.r (Off.TILE_FREQ j) = s.dev.r (Off.TILE_FREQ j) ∧ t.dev.b (Off.TILE_EVENTS j) 5 = true)) ∧
      ((∀ j, j ∈ s.dev.clocked → s.dev.tileMhz j ≤ s.dev.floorMhz j) →
        (∀ j, j < 64 → t.dev.r (Off.TILE_FREQ j) = s.dev.r (Off.TILE_FREQ j)) ∧
        (∀ g, g < 4 → 800 < s.dev.groupMhz g → t.dev.groupMhz g = max 800 (s.dev.groupMhz g - 50)) ∧
        ((∀ g, g < 4 → s.dev.groupMhz g ≤ 800) → t.dev.power = { s.dev.power with mediaLow := true } ∧
          (s.dev.power.mediaLow = true → lim * 105 < mw * 100 → t.dev.b Off.PWR_EVENTS 0 = true) ∧
          (s.dev.power.mediaLow = false ∨ mw * 100 ≤ lim * 105 → t.dev.r Off.PWR_EVENTS = s.dev.r Off.PWR_EVENTS))))) ∧
  (∀ (s : State) (temp : Nat) (temps : List (Nat × Int)),
    (125 ≤ temp → ∃ t, exec (.thermalCrit ⟨temp, temps⟩) s = .next t ∧
      t = { s with dev := { s.dev with regs := t.dev.regs, power := { s.dev.power with groups := [], junctions := t.dev.power.junctions } } } ∧
      (∀ j, j ∈ s.dev.clocked → t.dev.tileMhz j = if s.dev.tileState j = 5 then 1000 else 400) ∧ (∀ g, t.dev.groupMhz g = 800) ∧
      t.dev.b Off.PWR_STATUS 3 = true ∧ t.dev.b Off.PWR_EVENTS 2 = true ∧
      RegsSameBut s t ([Off.PWR_STATUS, Off.PWR_EVENTS] ++ s.dev.clocked.map Off.TILE_FREQ ++ (temps.filter (fun x => x.1 < 64)).map (fun x => Off.TILE_TEMP x.1))) ∧
    (temp < 125 → s.dev.b Off.PWR_STATUS 3 = false → exec (.thermalCrit ⟨temp, []⟩) s = .next s) ∧
    (130 ≤ temp → ∃ t, exec (.thermalTrip temp) s = .next t ∧ t.flash = s.flash ∧ t.pending = s.pending ∧ t.dev.power.tripped = true ∧
      (∀ a, cellGet t.mem memDefault a = if 0x10000000000 ≤ a ∧ a < 0x100000000000 then memDefault else cellGet s.mem memDefault a) ∧
      t.dev.b Off.PWR_EVENTS 3 = true ∧ t.dev.keeper = s.dev.keeper ∧ ∀ k, k < 48 → s.dev.domPresent k = true → t.dev.domState k = 3) ∧
    (temp < 130 → exec (.thermalTrip temp) s = .next s)) ∧
  (∀ (s : State) (k : Nat), s.dev.power.tripped = true → ∀ op, (s.dev.domApply k op).domState k = s.dev.domState k ∨ (s.dev.domApply k op).domState k = 3) ∧
  (∀ (s : State) (b : List Byte) (x : Nat),
    (s.dev.vox.oppAt = none ∨ s.dev.start.voxsar = false → exec (.oppStoreTimer b) s = .next s) ∧
    (s.dev.vox.oppAt = some x → s.dev.now < x → exec (.oppStoreTimer b) s = .next s) ∧
    (s.dev.vox.oppAt = some x → x ≤ s.dev.now → s.dev.start.voxsar = true →
      (s.dev.conservative = true → exec (.oppStoreTimer b) s =
        .next { s with dev := { s.dev with vox := { s.dev.vox with oppAt := some (x + 86400000000000) } } }) ∧
      (s.dev.conservative = false → ∃ t, exec (.oppStoreTimer b) s = .next t ∧
        t = { s with flash := t.flash, dev := { s.dev with vox := { s.dev.vox with oppOlder := (s.dev.vox.oppOlder + 1) % 2, oppAt := some (x + 86400000000000) } } } ∧
        (∀ a, a < 0x300000 + s.dev.vox.oppOlder % 2 * 0x80000 ∨ 0x380000 + s.dev.vox.oppOlder % 2 * 0x80000 ≤ a → t.flashByte a = s.flashByte a) ∧
        (b.length = 0x80000 → t.flashBytes (0x300000 + s.dev.vox.oppOlder % 2 * 0x80000) 0x80000 = b))))

/-- Ivmund ports come up by the wiring, retry and go down; the module starts and turns off; JTAG reads, and drives only where R597 lets it (R571, R573, R574, R576, R578, R581, R589, R590, R595, R596, R597). -/
def Obligations.PortsSupplyAndJtag : Prop :=
  (∀ (s : State) (p peer q lanes src hbm : Nat) (half : Bool) (w : Nat × Nat), p < 12 → s.dev.b Off.IVM_CTRL 0 = true → s.dev.domOn (43 + p % 6 / 3) = true →
    s.dev.ivmState p ≠ 2 → s.dev.wiredTo p = some w →
    (peer ≠ w.1 ∨ peer = s.dev.moduleNum ∨ q + (if half = true then 6 else 0) ≠ w.2 →
      ∃ t, exec (.portUp p peer q half lanes ⟨src, hbm⟩) s = .next t ∧ t = { s with dev := { s.dev with regs := t.dev.regs } } ∧ t.dev.b Off.IVM_EVENTS 2 = true ∧
        RegsSameBut s t [Off.IVM_EVENTS]) ∧
    (peer = w.1 → peer < 4 → peer ≠ s.dev.moduleNum → q + (if half = true then 6 else 0) = w.2 →
      ∃ t, exec (.portUp p peer q half lanes ⟨src, hbm⟩) s = .next t ∧
        t = { s with dev := { s.dev with regs := t.dev.regs, peers := t.dev.peers, peerStacks := KMap.put s.dev.peerStacks peer hbm, linkFails := KMap.del s.dev.linkFails p } } ∧
        t.dev.ivmState p = 2 ∧ t.dev.f (Off.IVM_PORT_STATUS p) 5 4 = peer ∧ t.dev.f (Off.IVM_PORT_STATUS p) 10 8 = q % 8 ∧ t.dev.b (Off.IVM_PORT_STATUS p) 11 = half ∧
        t.dev.f (Off.IVM_PORT_STATUS p) 31 16 = lanes % 65536 ∧ t.dev.b Off.IVM_STATUS p = true ∧ t.dev.b Off.IVM_EVENTS 1 = true ∧
        (∀ j, j < 12 → j ≠ p → t.dev.ivmState j = s.dev.ivmState j) ∧
        (∀ n, n < 4 → if n = peer ∧ (∀ j ∈ KMap.getD s.dev.peers n [], j = p ∨ s.dev.ivmState j = 2) then
            (let up := if n < s.dev.modules ∧ n ≠ s.dev.moduleNum then (s.dev.portsTo n).filter (fun j => t.dev.ivmState j == 2) else []
             t.dev.b Off.IVM_STATUS (16 + n) = !up.isEmpty ∧ t.dev.n (Off.IVM_PEER_BW n) = (up.map (fun j => if s.dev.halfPort j = true then 100 else 200)).sum)
          else t.dev.b Off.IVM_STATUS (16 + n) = s.dev.b Off.IVM_STATUS (16 + n) ∧ t.dev.r (Off.IVM_PEER_BW n) = s.dev.r (Off.IVM_PEER_BW n)) ∧
        (if s.dev.f Off.IVM_CTRL 5 4 = src % 4 then t.dev.r Off.IVM_CTRL = s.dev.r Off.IVM_CTRL
         else t.dev.f Off.IVM_CTRL 5 4 = min (s.dev.f Off.IVM_CTRL 5 4) (src % 4) ∧ t.dev.b Off.IVM_EVENTS 3 = true ∧
           t.dev.b Off.GLB_MODULE 4 = (min (s.dev.f Off.IVM_CTRL 5 4) (src % 4) == s.dev.moduleNum)))) ∧
  (∀ (s : State) (p : Nat), p < 12 →
    (s.dev.ivmState p ≠ 2 → ∀ x l, exec (.flitRetry ⟨p, x⟩) s = .next s ∧ exec (.portDown p l) s = .next s) ∧
    (s.dev.ivmState p = 2 → ∀ x, exec (.flitRetry ⟨p, x⟩) s = .next { s with dev := { s.dev.wn (Off.IVM_PORT_RETRY p) (satInc 32 (s.dev.n (Off.IVM_PORT_RETRY p))) with
      linkFails := if x = true then KMap.del s.dev.linkFails p else KMap.put s.dev.linkFails p (KMap.getD s.dev.linkFails p 0 + 1) } }) ∧
    (KMap.getD s.dev.linkFails p 0 < 16 → ∀ l, exec (.portDown p l) s = .next s) ∧
    (s.dev.ivmState p = 2 → 16 ≤ KMap.getD s.dev.linkFails p 0 →
      ∃ v : State, v = { s with dev := { s.dev with regs := v.dev.regs } } ∧ v.dev.ivmState p = 0 ∧ v.dev.f (Off.IVM_PORT_STATUS p) 31 16 = 0 ∧
      v.dev.b Off.IVM_STATUS p = false ∧ v.dev.n (Off.IVM_PORT_DOWNS p) = satInc 32 (s.dev.n (Off.IVM_PORT_DOWNS p)) ∧ v.dev.b Off.IVM_EVENTS 0 = true ∧
      RegsSameBut s v [Off.IVM_PORT_STATUS p, Off.IVM_STATUS, Off.IVM_PORT_DOWNS p, Off.IVM_EVENTS] ∧
      exec (.portDown p []) s = .next v.admitAll ∧
      ∀ id c, s.dev.cmd id = some c →
        exec (.portDown p [id]) s = .next (if c.underWay = true then (v.inputEnd id 0x32).admitAll else v.admitAll))) ∧
  (∀ (s : State), (s.dev.start.powered = false → s.dev.power.holdoff = false →
      exec .moduleStart s = .next { s with dev := { s.dev with power := { s.dev.power with starting := true } } }) ∧
    (s.dev.start.powered = true ∨ s.dev.power.holdoff = true → exec .moduleStart s = .next s) ∧
    exec .overcurrentHoldoff s =
      .next (if 500000000 ≤ s.dev.now then { s with dev := { s.dev with power := { s.dev.power with holdoff := false } } } else s)) ∧
  (∀ (s : State) (ovr : Bool), ∃ t, exec (.moduleTurnOff ovr) s = .next t ∧ t.mem = [] ∧ t.flash = s.flash ∧ t.pending = s.pending ∧
    t.dev.start.powered = false ∧ t.dev.power.holdoff = ovr ∧ t.dev.regs = [] ∧ t.dev.cmds = [] ∧ t.dev.out = s.dev.out ∧
    t.dev.hbmStacks = s.dev.hbmStacks ∧ t.dev.ioDies = s.dev.ioDies ∧ t.dev.stepping = s.dev.stepping) ∧
  (∀ (s : State) (pins cells : Nat),
    (let sel := fun (i : Nat) (d : Option Nat) (k : Nat) (r : Resp) => ({ s with dev := { s.dev with tap := { ir := i, cells := k, drives := d }, resp := r } } : State)
     let id := s.dev.stepping / 16 * 2 ^ 28 + 0x6400 * 2 ^ 12 + 0x58F
     let may := s.dev.bootMode = 2 ∨ s.dev.bootMode = 3
     exec .tapReset s = .next (sel 1 none s.dev.tap.cells s.dev.resp) ∧
     exec .idcode s = .next (sel 1 none s.dev.tap.cells (.data id)) ∧
     exec (.samplePreload pins cells) s = .next (sel 2 none cells (.data pins)) ∧
     exec .debug s = .next (sel 0x10 none s.dev.tap.cells (if s.dev.b Off.ISL_STATUS 5 = true then .ok else .data 0)) ∧
     exec .bypass s = .next (sel 0xFF none s.dev.tap.cells (.data 0)) ∧
     (let driven := fun (i k : Nat) (r : Resp) =>
        ({ s with dev := { s.dev with tap := { ir := i, cells := k, drives := some i }, out := .jtagDrive i :: s.dev.out, resp := r } } : State)
      (may → s.dev.b Off.START_STRAPS 3 = true →
        exec (.extest pins cells) s = .next (driven 3 cells (.data pins)) ∧ exec .highz s = .next (driven 4 s.dev.tap.cells s.dev.resp) ∧
        exec .clamp s = .next (driven 5 s.dev.tap.cells s.dev.resp) ∧ exec .extestPulse s = .next (driven 6 s.dev.tap.cells s.dev.resp) ∧
        exec .extestTrain s = .next (driven 7 s.dev.tap.cells s.dev.resp)) ∧
      (¬ (may ∧ s.dev.b Off.START_STRAPS 3 = true) →
        exec (.extest pins cells) s = .next (sel 3 none s.dev.tap.cells (.data 0)) ∧ exec .highz s = .next (sel 4 none s.dev.tap.cells (.data 0)) ∧
        exec .clamp s = .next (sel 5 none s.dev.tap.cells (.data 0)) ∧ exec .extestPulse s = .next (sel 6 none s.dev.tap.cells (.data 0)) ∧
        exec .extestTrain s = .next (sel 7 none s.dev.tap.cells (.data 0))))))

/-- Codes convert to themselves, integers saturate and count, a vector operation writes its active threads, an INT8 step adds exact products (R141, R151, R146, R154, R157, R194, R195, R198, R203, R207, R209, R211). -/
def Obligations.TileArithmetic : Prop :=
  (∀ (x : FpFmt) (code : Nat) (sr : Option Nat) (ovf : Bool), x ∈ [fp4, fp6e2, fp6e3, fp8e4, fp8e5, fp16, bf16, fp19, fp32] → code < 2 ^ x.width →
    (∃ n p q, x.value code = .val n p q) → x.encode (x.value code) sr ovf = (code, false)) ∧
  (∀ (lo hi i : Int) (sr : Option Nat), lo ≤ hi → encodeInt lo hi (.ofInt i) sr = if lo ≤ i ∧ i ≤ hi then (i, false) else (if i < lo then lo else hi, true)) ∧
  (∀ c, c < 256 → encodeE8M0 (e8m0Value c) = (c, false)) ∧
  (∀ (s : State) (id t sq dst a b k : Nat) (op : VecOp) (c : Cmd), s.dev.cmd id = some c → c.op = 0x01 → c.phase = .running → s.dev.onIt id t = true →
    sq < 64 → dst < 256 → s.dev.squadOk t sq [dst, a, b, k] = true →
    ∃ u, exec (.runPlan id [.vec t sq op dst a b k]) s = .next u ∧
      u = { s with dev := { s.dev with regs := u.dev.regs, tiles := u.dev.tiles, fresh := u.dev.fresh } } ∧
      (∀ th, th ∈ s.dev.threads t sq → ∃ f, f < 2 ^ 32 ∧
        u.dev.vregOf t sq dst th = vecResult op (s.dev.vregOf t sq a th) (s.dev.vregOf t sq b th) (s.dev.vregOf t sq k th) f) ∧
      (∀ t' sq' r th, r < 256 → th < 32 → t' ≠ t ∨ sq' ≠ sq ∨ r ≠ dst ∨ th ∉ s.dev.threads t sq → u.dev.vregOf t' sq' r th = s.dev.vregOf t' sq' r th) ∧
      u.dev.r (Off.TILE_CNT_VU t) = s.dev.r (Off.TILE_CNT_VU t) + 1 ∧ RegsSameBut s u [Off.TILE_CNT_VU t]) ∧
  (∀ (s : State) (id t sq dst a b k : Nat) (op : VecOp), s.dev.squadOk t sq [dst, a, b, k] = false →
    exec (.runPlan id [.vec t sq op dst a b k]) s = .next s) ∧
  (∀ (d : Dev) (t sq : Nat) (rs : List Nat), d.squadOk t sq rs = true ↔ ∃ g, d.groupOf t sq = some g ∧ sq ∉ g.waiting ∧ ∀ r ∈ rs, r < g.regs) ∧
  (∀ (s : State) (id t row aOff bOff depth cols : Nat) (c : Cmd), s.dev.cmd id = some c → c.op = 0x01 → c.phase = .running → s.dev.onIt id t = true →
    row < 512 → cols ≤ 128 → depth ≤ 96 → s.dev.scratchOk t aOff depth = true → s.dev.scratchOk t bOff (depth * cols) = true →
    ∃ u, exec (.runPlan id [.matStep t row { off := aOff, conv := 1, scale := 0 } { off := bOff, conv := 1, scale := 0 } none depth cols]) s = .next u ∧
      u = { s with dev := { s.dev with regs := u.dev.regs, tiles := u.dev.tiles, cmds := u.dev.cmds, fresh := u.dev.fresh } } ∧
      (∀ n, n < cols → u.dev.accOf t (row * 128 + n) = BitVec.ofInt 32 (max (-2147483648) (min 2147483647 ((s.dev.accOf t (row * 128 + n)).toInt +
        ((List.range depth).map (fun k => (s.byte (scratchBase t + aOff + k)).toInt * (s.byte (scratchBase t + bOff + (n * depth + k))).toInt)).sum)))) ∧
      (∀ x, x < row * 128 ∨ row * 128 + cols ≤ x → u.dev.accOf t x = s.dev.accOf t x) ∧ (∀ t', t' ≠ t → u.dev.tile t' = s.dev.tile t') ∧
      u.dev.r (Off.TILE_CNT_MX t) = s.dev.r (Off.TILE_CNT_MX t) + 1 ∧ RegsSameBut s u [Off.TILE_CNT_MX t]) ∧
  (∀ (s : State) (id t half : Nat) (c : Cmd), s.dev.cmd id = some c → c.op = 0x01 → c.phase = .running → s.dev.onIt id t = true →
    ∃ u, exec (.runPlan id [.matClear t half]) s = .next u ∧ u = { s with dev := { s.dev with tiles := u.dev.tiles } } ∧
      (∀ x, u.dev.accOf t x = if x / 32768 = half % 2 then 0 else s.dev.accOf t x) ∧ ∀ t' sq r th, u.dev.vregOf t' sq r th = s.dev.vregOf t' sq r th)
end

