-- ==== Sys2Proof/Laws/Bits.lean ====
section
/-! SUPPORT. Laws/Bits.lean: what reading a field of a register word gives after writing the same or another field. -/

namespace Sys2Proof.Machine

/-- A word is its bits above a field, the field, and the bits below it. -/
theorem fld_split (v : W64) (hi lo : Nat) :
    v.toNat = v.toNat / 2 ^ lo / 2 ^ (hi + 1 - lo) * 2 ^ (hi + 1 - lo) * 2 ^ lo + fld v hi lo * 2 ^ lo + v.toNat % 2 ^ lo := by
  have a := Nat.div_add_mod' v.toNat (2 ^ lo)
  have b := Nat.div_add_mod' (v.toNat / 2 ^ lo) (2 ^ (hi + 1 - lo))
  unfold fld
  rw [← Nat.add_mul, b, a]

theorem fld_lt (v : W64) (hi lo : Nat) : fld v hi lo < 2 ^ (hi + 1 - lo) := Nat.mod_lt _ (Nat.two_pow_pos _)

/-- The number of a word with one field replaced. -/
theorem setFld_toNat (v : W64) (hi lo x : Nat) (h : lo ≤ hi) (k : hi < 64) :
    (setFld v hi lo x).toNat =
      v.toNat / 2 ^ lo / 2 ^ (hi + 1 - lo) * 2 ^ (hi + 1 - lo) * 2 ^ lo + x % 2 ^ (hi + 1 - lo) * 2 ^ lo + v.toNat % 2 ^ lo := by
  have e := fld_split v hi lo
  have s : v.toNat - fld v hi lo * 2 ^ lo + x % 2 ^ (hi + 1 - lo) * 2 ^ lo =
      v.toNat / 2 ^ lo / 2 ^ (hi + 1 - lo) * 2 ^ (hi + 1 - lo) * 2 ^ lo + x % 2 ^ (hi + 1 - lo) * 2 ^ lo + v.toNat % 2 ^ lo := by omega
  unfold setFld
  rw [BitVec.toNat_ofNat, s]
  apply Nat.mod_eq_of_lt
  have p : 2 ^ (hi + 1 - lo) * 2 ^ lo = 2 ^ (hi + 1) := by rw [← Nat.pow_add]; congr 1; omega
  have q : 2 ^ (hi + 1) * 2 ^ (63 - hi) = 2 ^ 64 := by rw [← Nat.pow_add]; congr 1; omega
  have A : v.toNat / 2 ^ lo / 2 ^ (hi + 1 - lo) < 2 ^ (63 - hi) := by
    rw [Nat.div_div_eq_div_mul, Nat.mul_comm (2 ^ lo), p]
    exact Nat.div_lt_of_lt_mul (by rw [q]; exact v.isLt)
  have X : x % 2 ^ (hi + 1 - lo) < 2 ^ (hi + 1 - lo) := Nat.mod_lt _ (Nat.two_pow_pos _)
  have B : v.toNat % 2 ^ lo < 2 ^ lo := Nat.mod_lt _ (Nat.two_pow_pos _)
  rw [Nat.mul_assoc, p]
  generalize v.toNat / 2 ^ lo / 2 ^ (hi + 1 - lo) = a at A ⊢
  generalize x % 2 ^ (hi + 1 - lo) = y at X ⊢
  have Y : (y + 1) * 2 ^ lo ≤ 2 ^ (hi + 1) := by rw [← p]; exact Nat.mul_le_mul_right _ X
  have Z : (a + 1) * 2 ^ (hi + 1) ≤ 2 ^ 64 := by rw [← q, Nat.mul_comm (2 ^ (hi + 1))]; exact Nat.mul_le_mul_right _ A
  rw [Nat.add_mul] at Y Z
  omega

/-- A field holds what was last written to it, cut to its width. -/
theorem fld_setFld_self (v : W64) (hi lo x : Nat) (h : lo ≤ hi) (k : hi < 64) :
    fld (setFld v hi lo x) hi lo = x % 2 ^ (hi + 1 - lo) := by
  have B : v.toNat % 2 ^ lo < 2 ^ lo := Nat.mod_lt _ (Nat.two_pow_pos _)
  unfold fld
  rw [setFld_toNat v hi lo x h k, ← Nat.add_mul, Nat.add_comm, Nat.add_mul_div_right _ _ (Nat.two_pow_pos lo), Nat.div_eq_of_lt B, Nat.zero_add,
    Nat.mul_add_mod_of_lt' (Nat.mod_lt _ (Nat.two_pow_pos _))]
where
  Nat.mul_add_mod_of_lt' {a m b : Nat} (h : b < m) : (a * m + b) % m = b := by
    rw [Nat.add_comm, Nat.add_mul_mod_self_right, Nat.mod_eq_of_lt h]

/-- A bit of a word after a field was written, as `testBit` sees it. -/
theorem setFld_testBit (v : W64) (hi lo x j : Nat) (h : lo ≤ hi) (k : hi < 64) :
    (setFld v hi lo x).toNat.testBit j = if lo ≤ j ∧ j ≤ hi then x.testBit (j - lo) else v.toNat.testBit j := by
  have B : v.toNat % 2 ^ lo < 2 ^ lo := Nat.mod_lt _ (Nat.two_pow_pos _)
  have X : x % 2 ^ (hi + 1 - lo) < 2 ^ (hi + 1 - lo) := Nat.mod_lt _ (Nat.two_pow_pos _)
  rw [setFld_toNat v hi lo x h k, ← Nat.add_mul, Nat.mul_comm _ (2 ^ lo), Nat.testBit_two_pow_mul_add _ B, Nat.mul_comm _ (2 ^ (hi + 1 - lo)),
    Nat.testBit_two_pow_mul_add _ X, Nat.testBit_mod_two_pow, Nat.testBit_mod_two_pow, Nat.testBit_div_two_pow, Nat.testBit_div_two_pow]
  by_cases a : j < lo
  · rw [if_pos a, if_neg (by omega)]; simp [a]
  · rw [if_neg a]
    by_cases b : j ≤ hi
    · rw [if_pos (by omega), if_pos (by omega), decide_eq_true (by omega : j - lo < hi + 1 - lo), Bool.true_and]
    · rw [if_neg (by omega), if_neg (by omega)]; congr 1; omega

theorem fld_testBit (v : W64) (hi lo j : Nat) : (fld v hi lo).testBit j = (decide (j < hi + 1 - lo) && v.toNat.testBit (j + lo)) := by
  unfold fld; rw [Nat.testBit_mod_two_pow, Nat.testBit_div_two_pow]

/-- A field keeps its value when a field disjoint from it is written. -/
theorem fld_setFld_ne (v : W64) (hi lo x hi' lo' : Nat) (h : lo ≤ hi) (k : hi < 64) (d : hi' < lo ∨ hi < lo') :
    fld (setFld v hi lo x) hi' lo' = fld v hi' lo' := by
  apply Nat.eq_of_testBit_eq
  intro j
  rw [fld_testBit, fld_testBit, setFld_testBit v hi lo x _ h k]
  by_cases a : j < hi' + 1 - lo'
  · rw [if_neg (by omega)]
  · simp [a]

/-- A bit holds what was last written to it. -/
theorem bitOf_setBit_self (v : W64) (b : Nat) (x : Bool) (h : b < 64) : bitOf (setBit v b x) b = x := by
  unfold bitOf setBit
  rw [fld_setFld_self _ _ _ _ (Nat.le_refl b) h, Nat.add_sub_cancel_left]
  cases x <;> rfl

/-- A bit keeps its value when another bit is written. -/
theorem bitOf_setBit_ne (v : W64) (b c : Nat) (x : Bool) (h : b < 64) (d : c ≠ b) : bitOf (setBit v b x) c = bitOf v c := by
  unfold bitOf setBit; rw [fld_setFld_ne _ _ _ _ _ _ (Nat.le_refl b) h (by omega)]

theorem fld_setBit_ne (v : W64) (b hi lo : Nat) (x : Bool) (h : b < 64) (d : hi < b ∨ b < lo) : fld (setBit v b x) hi lo = fld v hi lo :=
  fld_setFld_ne _ _ _ _ _ _ (Nat.le_refl b) h d

theorem bitOf_setFld_ne (v : W64) (hi lo x c : Nat) (h : lo ≤ hi) (k : hi < 64) (d : c < lo ∨ hi < c) : bitOf (setFld v hi lo x) c = bitOf v c := by
  unfold bitOf; rw [fld_setFld_ne _ _ _ _ _ _ h k d]

end Sys2Proof.Machine
end

