-- ==== Sys2Proof/Laws/Memory.lean ====
section
/-! SUPPORT. Laws/Memory.lean: the laws of the sparse map and of the byte memories: what a read after a write gives, and that every memory operation keeps the canonical form. -/

namespace Sys2Proof.Machine

/-! ### The sparse map -/

theorem KMap.find_put_self {α : Type} (m : KMap α) (k : Nat) (v : α) : KMap.find (KMap.put m k v) k = some v := by
  induction m with
  | nil => simp [KMap.put, KMap.find]
  | cons p t ih =>
    obtain ⟨j, w⟩ := p
    unfold KMap.put
    split
    · simp [KMap.find]
    · split
      · simp [KMap.find]
      · rename_i h; simp only [KMap.find, if_neg (Ne.symm h), ih]

theorem KMap.find_put_ne {α : Type} (m : KMap α) (k j : Nat) (v : α) (h : j ≠ k) : KMap.find (KMap.put m k v) j = KMap.find m j := by
  induction m with
  | nil => simp [KMap.put, KMap.find, Ne.symm h]
  | cons p t ih =>
    obtain ⟨i, w⟩ := p
    unfold KMap.put
    split
    · simp [KMap.find, Ne.symm h]
    · split
      · subst_vars; simp [KMap.find, Ne.symm h]
      · simp [KMap.find, ih]

/-- A read of a map after a write: the value at its key, and every other key as before. -/
theorem KMap.find_put {α : Type} (m : KMap α) (k j : Nat) (v : α) :
    KMap.find (KMap.put m k v) j = if j = k then some v else KMap.find m j := by
  split
  · subst_vars; exact KMap.find_put_self m _ v
  · exact KMap.find_put_ne m k j v ‹_›

theorem KMap.find_filter {α : Type} (m : KMap α) (f : Nat → Bool) (j : Nat) :
    KMap.find (m.filter (fun p => f p.1)) j = if f j then KMap.find m j else none := by
  induction m with
  | nil => simp [KMap.find]
  | cons p t ih =>
    obtain ⟨i, w⟩ := p
    by_cases hi : f i = true
    · rw [List.filter_cons_of_pos (by simpa using hi)]
      simp only [KMap.find, ih]
      by_cases hj : i = j
      · subst hj; simp [hi]
      · simp [hj]
    · rw [List.filter_cons_of_neg (by simpa using hi), ih]
      by_cases hj : i = j
      · subst hj; simp [hi]
      · simp [KMap.find, hj]

/-- A read of a map after a key is taken out. -/
theorem KMap.find_del {α : Type} (m : KMap α) (k j : Nat) : KMap.find (KMap.del m k) j = if j = k then none else KMap.find m j := by
  unfold KMap.del
  rw [KMap.find_filter m (fun i => decide (i ≠ k)) j]
  by_cases h : j = k <;> simp [h]

theorem KMap.getD_put {α : Type} (m : KMap α) (k j : Nat) (v d : α) : KMap.getD (KMap.put m k v) j d = if j = k then v else KMap.getD m j d := by
  unfold KMap.getD
  rw [KMap.find_put]
  split <;> simp

/-! ### Bytes -/

/-- A read of a byte memory after a write of one byte. -/
theorem cellGet_put (m : List Host.Cell) (dflt b : Byte) (a x : Nat) : cellGet (cellPut m dflt a b) dflt x = if x = a then b else cellGet m dflt x := by
  unfold cellPut cellGet
  split
  · rw [KMap.find_del]; split <;> simp_all
  · rw [KMap.find_put]; split <;> simp

/-- A read of a byte memory after a write of some bytes: outside them nothing changes. -/
theorem cellGet_cellsPut_out (dflt : Byte) (bs : List Byte) (m : List Host.Cell) (a x : Nat) (h : x < a ∨ a + bs.length ≤ x) :
    cellGet (cellsPut m dflt a bs) dflt x = cellGet m dflt x := by
  induction bs generalizing m a with
  | nil => rfl
  | cons b t ih =>
    simp only [List.length_cons] at h
    rw [cellsPut, ih _ _ (by omega), cellGet_put, if_neg (by omega)]

/-- A read of a byte memory after a write of some bytes: inside them, the byte written. -/
theorem cellGet_cellsPut_in (dflt : Byte) (bs : List Byte) (m : List Host.Cell) (a i : Nat) (h : i < bs.length) :
    cellGet (cellsPut m dflt a bs) dflt (a + i) = bs[i] := by
  induction bs generalizing m a i with
  | nil => simp at h
  | cons b t ih =>
    cases i with
    | zero => rw [cellsPut, Nat.add_zero, cellGet_cellsPut_out dflt t _ _ _ (by omega), cellGet_put]; simp
    | succ i =>
      rw [cellsPut, show a + (i + 1) = a + 1 + i by omega, ih _ _ _ (by simpa using h)]
      simp

/-! ### The canonical form -/

theorem cellsSorted_tail {c : Host.Cell} {t : List Host.Cell} (h : cellsSorted (c :: t) = true) : cellsSorted t = true := by
  cases t with
  | nil => rfl
  | cons e r => simp only [cellsSorted, Bool.and_eq_true] at h; exact h.2

theorem cellsSorted_cons {c : Host.Cell} {t : List Host.Cell} :
    cellsSorted (c :: t) = true ↔ (∀ e ∈ t, c.1 < e.1) ∧ cellsSorted t = true := by
  induction t generalizing c with
  | nil => simp [cellsSorted]
  | cons e r ih =>
    simp only [cellsSorted, Bool.and_eq_true, decide_eq_true_eq]
    constructor
    · rintro ⟨h1, h2⟩
      refine ⟨?_, h2⟩
      intro x hx
      cases List.mem_cons.1 hx with
      | inl h => subst h; exact h1
      | inr h => exact Nat.lt_trans h1 ((ih.1 h2).1 x h)
    · rintro ⟨h1, h2⟩
      exact ⟨h1 e (by simp), h2⟩

theorem cellsSorted_filter (f : Host.Cell → Bool) (m : List Host.Cell) (h : cellsSorted m = true) : cellsSorted (m.filter f) = true := by
  induction m with
  | nil => rfl
  | cons c t ih =>
    obtain ⟨h1, h2⟩ := cellsSorted_cons.1 h
    rw [List.filter_cons]
    split
    · exact cellsSorted_cons.2 ⟨fun e he => h1 e (List.mem_filter.1 he).1, ih h2⟩
    · exact ih h2

theorem KMap.mem_put {α : Type} {m : KMap α} {k : Nat} {v : α} {e : Nat × α} (h : e ∈ KMap.put m k v) : e = (k, v) ∨ e ∈ m := by
  induction m with
  | nil => simp [KMap.put] at h; exact .inl h
  | cons p t ih =>
    obtain ⟨j, w⟩ := p
    unfold KMap.put at h
    split at h
    · simpa using h
    · split at h
      · cases List.mem_cons.1 h with
        | inl h => exact .inl h
        | inr h => exact .inr (by simp [h])
      · cases List.mem_cons.1 h with
        | inl h => exact .inr (by simp [h])
        | inr h => exact (ih h).imp_right (by intro h; simp [h])

theorem cellsSorted_put (m : List Host.Cell) (k : Nat) (v : Byte) (h : cellsSorted m = true) : cellsSorted (KMap.put m k v) = true := by
  induction m with
  | nil => rfl
  | cons p t ih =>
    obtain ⟨j, w⟩ := p
    obtain ⟨h1, h2⟩ := cellsSorted_cons.1 h
    unfold KMap.put
    split
    · refine cellsSorted_cons.2 ⟨?_, h⟩
      intro e he
      cases List.mem_cons.1 he with
      | inl he => subst he; assumption
      | inr he => exact Nat.lt_trans (by assumption) (h1 e he)
    · split
      · subst_vars; exact cellsSorted_cons.2 ⟨h1, h2⟩
      · refine cellsSorted_cons.2 ⟨?_, ih h2⟩
        intro e he
        cases KMap.mem_put he with
        | inl he => subst he; simp only; omega
        | inr he => exact h1 e he

/-- A write of one byte keeps the canonical form. -/
theorem Memory.wf_cellPut (dflt b : Byte) (m : List Host.Cell) (a : Nat) (h : Memory.wf dflt m = true) : Memory.wf dflt (cellPut m dflt a b) = true := by
  simp only [Memory.wf, Bool.and_eq_true, List.all_eq_true, decide_eq_true_eq] at h ⊢
  unfold cellPut
  split
  · exact ⟨cellsSorted_filter _ _ h.1, fun c hc => h.2 c (List.mem_filter.1 hc).1⟩
  · refine ⟨cellsSorted_put _ _ _ h.1, fun c hc => ?_⟩
    cases KMap.mem_put hc with
    | inl hc => subst hc; assumption
    | inr hc => exact h.2 c hc

/-- A write of some bytes keeps the canonical form. -/
theorem Memory.wf_cellsPut (dflt : Byte) (bs : List Byte) (m : List Host.Cell) (a : Nat) (h : Memory.wf dflt m = true) :
    Memory.wf dflt (cellsPut m dflt a bs) = true := by
  induction bs generalizing m a with
  | nil => exact h
  | cons b t ih => exact ih _ _ (Memory.wf_cellPut dflt b m a h)

/-- Taking entries out keeps the canonical form. -/
theorem Memory.wf_filter (dflt : Byte) (f : Host.Cell → Bool) (m : List Host.Cell) (h : Memory.wf dflt m = true) :
    Memory.wf dflt (m.filter f) = true := by
  simp only [Memory.wf, Bool.and_eq_true, List.all_eq_true, decide_eq_true_eq] at h ⊢
  exact ⟨cellsSorted_filter _ _ h.1, fun c hc => h.2 c (List.mem_filter.1 hc).1⟩

/-- Clearing a range keeps the canonical form. -/
theorem Memory.wf_cellsClear (dflt : Byte) (m : List Host.Cell) (a n : Nat) (h : Memory.wf dflt m = true) : Memory.wf dflt (cellsClear m a n) = true :=
  Memory.wf_filter dflt _ m h

/-- A read after a range is cleared. -/
theorem cellGet_cellsClear (dflt : Byte) (m : List Host.Cell) (a n x : Nat) :
    cellGet (cellsClear m a n) dflt x = if x < a ∨ a + n ≤ x then cellGet m dflt x else dflt := by
  unfold cellGet cellsClear
  rw [KMap.find_filter m (fun i => decide (i < a ∨ a + n ≤ i)) x]
  by_cases h : x < a ∨ a + n ≤ x <;> simp [h]

end Sys2Proof.Machine
end

