-- ==== Sys2Proof/Laws/Good.lean ====
section
/-! SUPPORT. Laws/Good.lean: what every operation and every command does to the queue of commands and to the two memories: the queue stays
what it is, and canonical memories stay canonical (`State.Good`). One lemma per operation, in the order of the definition files: a proof
about a command cites the lemmas of the operations it calls and unfolds none of them. -/

namespace Sys2Proof.Machine

section Base

variable {Q : List Instr} {R : Prop} {s : State}

@[simp] theorem State.good_onDev (f : Dev → Dev) : (s.onDev f).Good Q R ↔ s.Good Q R := Iff.rfl

@[simp] theorem State.good_dev (d : Dev) : ({ s with dev := d } : State).Good Q R ↔ s.Good Q R := Iff.rfl

theorem State.good_put (a : Nat) (bs : List Byte) (h : s.Good Q R) : (s.put a bs).Good Q R := by
  unfold State.put
  split
  · exact h
  · exact ⟨h.1, fun k => ⟨Memory.wf_cellsPut _ _ _ _ (h.2 k).1, (h.2 k).2⟩⟩

theorem State.good_zero (a n : Nat) (h : s.Good Q R) : (s.zero a n).Good Q R :=
  ⟨h.1, fun k => ⟨Memory.wf_cellsClear _ _ _ _ (h.2 k).1, (h.2 k).2⟩⟩

theorem State.good_flashErase (a n : Nat) (h : s.Good Q R) : (s.flashErase a n).Good Q R :=
  ⟨h.1, fun k => ⟨(h.2 k).1, Memory.wf_cellsClear _ _ _ _ (h.2 k).2⟩⟩

theorem State.good_flashProgram (a : Nat) (bs : List Byte) (h : s.Good Q R) : (s.flashProgram a bs).Good Q R :=
  ⟨h.1, fun k => ⟨(h.2 k).1, Memory.wf_cellsPut _ _ _ _ (h.2 k).2⟩⟩

theorem State.good_fillFree (a n : Nat) (h : s.Good Q R) : (s.fillFree a n).Good Q R := by
  unfold State.fillFree
  exact (State.good_dev _).2 (State.good_put _ _ h)

theorem State.good_when (c : Bool) (f : State → State) (h : s.Good Q R) (hf : (f s).Good Q R) : (s.when c f).Good Q R := by
  unfold State.when; split <;> assumption

theorem State.good_forAll {α : Type} (l : List α) (f : α → State → State) (hf : ∀ a t, t.Good Q R → (f a t).Good Q R) (h : s.Good Q R) :
    (s.forAll l f).Good Q R := by
  unfold State.forAll
  induction l generalizing s with
  | nil => exact h
  | cons a l ih => exact ih (hf _ _ h)

theorem State.good_foldl {α : Type} (l : List α) (f : State → α → State) (hf : ∀ a t, t.Good Q R → (f t a).Good Q R) (h : s.Good Q R) :
    (l.foldl f s).Good Q R := by
  induction l generalizing s with
  | nil => exact h
  | cons a l ih => exact ih (hf _ _ h)

theorem State.good_readAs (m : Master) (a n : Nat) (h : s.Good Q R) : (s.readAs m a n).2.Good Q R := by
  unfold State.readAs
  generalize s.dev.verdict m (s.dev.world m) .read a n = v
  cases v
  · exact h
  all_goals exact (State.good_onDev _).2 h

theorem State.good_writeAs (m : Master) (a : Nat) (bs : List Byte) (h : s.Good Q R) : (s.writeAs m a bs).2.Good Q R := by
  unfold State.writeAs
  generalize s.dev.verdict m (s.dev.world m) .write a bs.length = v
  cases v <;> simp only [State.good_onDev, State.good_put, h]

theorem State.good_readAs_eq {m : Master} {a n : Nat} {o : Option (List Byte)} {t : State} (e : s.readAs m a n = (o, t)) (h : s.Good Q R) : t.Good Q R := by
  have k := State.good_readAs m a n h
  rwa [e] at k

theorem State.good_writeAs_eq {m : Master} {a : Nat} {bs : List Byte} {o : Bool} {t : State} (e : s.writeAs m a bs = (o, t)) (h : s.Good Q R) : t.Good Q R := by
  have k := State.good_writeAs m a bs h
  rwa [e] at k

theorem State.good_afterRead {x : Option (List Byte) × State} {no : State → State} {yes : List Byte → State → State} (h : x.2.Good Q R)
    (hn : ∀ t, t.Good Q R → (no t).Good Q R) (hy : ∀ b t, t.Good Q R → (yes b t).Good Q R) : (afterRead x no yes).Good Q R := by
  unfold afterRead
  split
  · exact hn _ h
  · exact hy _ _ h

theorem State.good_ite {c : Prop} [Decidable c] {a b : State} (ha : a.Good Q R) (hb : b.Good Q R) : (if c then a else b).Good Q R := by
  split <;> assumption

theorem State.good_ite_fst {α : Type} {c : Prop} [Decidable c] {a b : State × α} (ha : a.1.Good Q R) (hb : b.1.Good Q R) :
    (if c then a else b).1.Good Q R := by
  split <;> assumption

theorem State.good_ite_snd {α : Type} {c : Prop} [Decidable c] {a b : α × State} (ha : a.2.Good Q R) (hb : b.2.Good Q R) :
    (if c then a else b).2.Good Q R := by
  split <;> assumption

theorem keeps_ite {c : Prop} [Decidable c] {a b : Host.Outcome State Fault Refusal} (ha : Keeps a (State.Good Q R)) (hb : Keeps b (State.Good Q R)) :
    Keeps (if c then a else b) (State.Good Q R) := by
  split <;> assumption

theorem keeps_next {t : State} (h : t.Good Q R) : Keeps (.next t) (State.Good Q R) := by
  intro u e
  cases e
  exact h

theorem keeps_fault (f : Fault) : Keeps (.fault f) (State.Good Q R) := by
  intro u e
  cases e

end Base

variable {Q : List Instr} {R : Prop}

/-! ### Machine/Clamp.lean -/

theorem State.good_clampPush {s : State} (source : Nat) (x : Report) (hG : s.Good Q R) : (State.clampPush s source x).Good Q R := by
  unfold State.clampPush
  repeat' split
  all_goals simp only [State.good_put, State.good_onDev, hG]

theorem State.good_clampAll {s : State} (source : Nat) (l : List Report) (hG : s.Good Q R) : (State.clampAll s source l).Good Q R := by
  unfold State.clampAll
  repeat' first
    | with_reducible assumption
    | intro _
    | with_reducible apply State.good_forAll
    | with_reducible apply State.good_clampPush
    | with_reducible refine State.good_ite ?_ ?_
    | with_reducible refine State.good_ite_fst ?_ ?_
    | with_reducible refine State.good_ite_snd ?_ ?_
    | with_reducible refine State.good_afterRead ?_ ?_ ?_
    | split
    | dsimp only

theorem State.good_clampMove {s : State} (base size : Nat) (hG : s.Good Q R) : (State.clampMove s base size).Good Q R := by
  unfold State.clampMove
  repeat' first
    | with_reducible assumption
    | intro _
    | with_reducible apply State.good_put
    | with_reducible refine (State.good_onDev _).2 ?_
    | with_reducible apply State.good_foldl
    | with_reducible refine State.good_ite ?_ ?_
    | with_reducible refine State.good_ite_fst ?_ ?_
    | with_reducible refine State.good_ite_snd ?_ ?_
    | with_reducible refine State.good_afterRead ?_ ?_ ?_
    | split
    | dsimp only

theorem State.good_writeRejected {s : State} (m : Master) (off value : Nat) (hG : s.Good Q R) : (State.writeRejected s m off value).Good Q R := by
  unfold State.writeRejected
  simp only [State.good_onDev, State.good_clampPush, hG]

theorem State.good_applyBlock {s : State} (m : Master) (source lo hi : Nat) (hG : s.Good Q R) : (State.applyBlock s m source lo hi).Good Q R := by
  unfold State.applyBlock
  simp only [State.good_onDev, State.good_clampAll, hG]

theorem State.good_nsWrite {s : State} (m : Master) (r : RegDesc) (off : Nat) (value mask : W64) (hG : s.Good Q R) : (State.nsWrite s m r off value mask).Good Q R := by
  unfold State.nsWrite
  repeat' split
  all_goals simp only [State.good_onDev, State.good_writeRejected, hG]

/-! ### Machine/Keeper.lean -/

theorem keeps_execKeeperLoopStep {s : State} (l code : Nat) (hG : s.Good Q R) : Keeps (execKeeperLoopStep l code s) (State.Good Q R) := by
  unfold execKeeperLoopStep
  simp only [State.good_onDev, keeps_next, hG]

theorem keeps_execKeeperCanReceive {s : State} (ch id : Nat) (ext : Bool) (payload : List Byte) (hG : s.Good Q R) : Keeps (execKeeperCanReceive ch id ext payload s) (State.Good Q R) := by
  unfold execKeeperCanReceive
  simp only [State.good_onDev, keeps_next, hG]

theorem keeps_execInputStale {s : State} (j : Nat) (hG : s.Good Q R) : Keeps (execInputStale j s) (State.Good Q R) := by
  unfold execInputStale
  simp only [State.good_onDev, keeps_next, hG]

theorem keeps_execKeeperFrameTx {s : State} (n : Nat) (hG : s.Good Q R) : Keeps (execKeeperFrameTx n s) (State.Good Q R) := by
  unfold execKeeperFrameTx
  simp only [State.good_onDev, keeps_next, hG]

theorem keeps_execKeeperSelfMismatch {s : State} (hG : s.Good Q R) : Keeps (execKeeperSelfMismatch s) (State.Good Q R) := by
  unfold execKeeperSelfMismatch
  simp only [State.good_onDev, keeps_next, hG]

theorem keeps_execKprRelease {s : State} (m : Master) (value : Nat) (hG : s.Good Q R) : Keeps (execKprRelease m value s) (State.Good Q R) := by
  unfold execKprRelease
  repeat' split
  all_goals simp only [State.good_onDev, State.good_dev, keeps_next, hG]

/-! ### Machine/Rings.lean -/

theorem State.good_readDoorbell {s : State} (i r : Nat) (hG : s.Good Q R) : (State.readDoorbell s i r).Good Q R := by
  unfold State.readDoorbell
  repeat' first
    | with_reducible assumption
    | intro _
    | with_reducible refine (State.good_onDev _).2 ?_
    | with_reducible apply State.good_readAs
    | with_reducible refine State.good_readAs_eq (by assumption) ?_
    | with_reducible refine State.good_ite ?_ ?_
    | with_reducible refine State.good_ite_fst ?_ ?_
    | with_reducible refine State.good_ite_snd ?_ ?_
    | with_reducible refine State.good_afterRead ?_ ?_ ?_
    | split
    | dsimp only

theorem State.good_pollDoorbells {s : State} (hG : s.Good Q R) : (State.pollDoorbells s).Good Q R := by
  unfold State.pollDoorbells
  repeat' first
    | with_reducible assumption
    | intro _
    | with_reducible apply State.good_forAll
    | with_reducible apply State.good_readDoorbell
    | with_reducible refine State.good_ite ?_ ?_
    | with_reducible refine State.good_ite_fst ?_ ?_
    | with_reducible refine State.good_ite_snd ?_ ?_
    | with_reducible refine State.good_afterRead ?_ ?_ ?_
    | split
    | dsimp only

theorem State.good_readAllDoorbells {s : State} (hG : s.Good Q R) : (State.readAllDoorbells s).Good Q R := by
  unfold State.readAllDoorbells
  repeat' first
    | with_reducible assumption
    | intro _
    | with_reducible apply State.good_forAll
    | with_reducible apply State.good_readDoorbell
    | with_reducible refine State.good_ite ?_ ?_
    | with_reducible refine State.good_ite_fst ?_ ?_
    | with_reducible refine State.good_ite_snd ?_ ?_
    | with_reducible refine State.good_afterRead ?_ ?_ ?_
    | split
    | dsimp only

theorem State.good_writeRecord {s : State} (c : Cmd) (status detail : Nat) (hG : s.Good Q R) : (State.writeRecord s c status detail).Good Q R := by
  unfold State.writeRecord
  simp only [State.good_onDev, State.good_writeAs, hG]

theorem State.good_killRecord {s : State} (c : Cmd) (hG : s.Good Q R) : (State.killRecord s c).Good Q R := by
  unfold State.killRecord
  repeat' split
  all_goals simp only [State.good_onDev, State.good_writeRecord, hG]

/-! ### Machine/Codec.lean -/

theorem State.good_readVcDoorbell {t : State} (s : Nat) (hG : t.Good Q R) : (State.readVcDoorbell t s).Good Q R := by
  unfold State.readVcDoorbell
  repeat' first
    | with_reducible assumption
    | intro _
    | with_reducible refine (State.good_onDev _).2 ?_
    | with_reducible apply State.good_readAs
    | with_reducible refine State.good_readAs_eq (by assumption) ?_
    | with_reducible refine State.good_ite ?_ ?_
    | with_reducible refine State.good_ite_fst ?_ ?_
    | with_reducible refine State.good_ite_snd ?_ ?_
    | with_reducible refine State.good_afterRead ?_ ?_ ?_
    | split
    | dsimp only

theorem State.good_watchLines {t : State} (a n : Nat) (hG : t.Good Q R) : (State.watchLines t a n).Good Q R := by
  unfold State.watchLines
  repeat' first
    | with_reducible assumption
    | intro _
    | with_reducible apply State.good_forAll
    | with_reducible apply State.good_readDoorbell
    | with_reducible apply State.good_readVcDoorbell
    | with_reducible refine State.good_ite ?_ ?_
    | with_reducible refine State.good_ite_fst ?_ ?_
    | with_reducible refine State.good_ite_snd ?_ ?_
    | with_reducible refine State.good_afterRead ?_ ?_ ?_
    | split
    | dsimp only

theorem State.good_storeAs {s : State} (m : Master) (a : Nat) (bs : List Byte) (hG : s.Good Q R) : (State.storeAs s m a bs).2.Good Q R := by
  unfold State.storeAs
  repeat' first
    | with_reducible assumption
    | intro _
    | with_reducible apply State.good_writeAs
    | with_reducible refine State.good_writeAs_eq (by assumption) ?_
    | with_reducible apply State.good_watchLines
    | with_reducible refine State.good_ite ?_ ?_
    | with_reducible refine State.good_ite_fst ?_ ?_
    | with_reducible refine State.good_ite_snd ?_ ?_
    | with_reducible refine State.good_afterRead ?_ ?_ ?_
    | split
    | dsimp only

theorem State.good_storeAs_eq {s : State} {m : Master} {a : Nat} {bs : List Byte} {newS : State} {newO : Bool} (hE : State.storeAs s m a bs = (newO, newS)) (hG : s.Good Q R) : newS.Good Q R := by
  have hK := @State.good_storeAs Q R s m a bs hG
  rwa [hE] at hK

theorem State.good_pollSessions {t : State} (hG : t.Good Q R) : (State.pollSessions t).Good Q R := by
  unfold State.pollSessions
  repeat' first
    | with_reducible assumption
    | intro _
    | with_reducible apply State.good_forAll
    | with_reducible apply State.good_readVcDoorbell
    | with_reducible refine State.good_ite ?_ ?_
    | with_reducible refine State.good_ite_fst ?_ ?_
    | with_reducible refine State.good_ite_snd ?_ ?_
    | with_reducible refine State.good_afterRead ?_ ?_ ?_
    | split
    | dsimp only

theorem State.good_readAllSessions {t : State} (hG : t.Good Q R) : (State.readAllSessions t).Good Q R := by
  unfold State.readAllSessions
  repeat' first
    | with_reducible assumption
    | intro _
    | with_reducible apply State.good_forAll
    | with_reducible apply State.good_readVcDoorbell
    | with_reducible refine State.good_ite ?_ ?_
    | with_reducible refine State.good_ite_fst ?_ ?_
    | with_reducible refine State.good_ite_snd ?_ ?_
    | with_reducible refine State.good_afterRead ?_ ?_ ?_
    | split
    | dsimp only

theorem State.good_vcTake {t : State} (s : Nat) (ecc : Ecc) (hG : t.Good Q R) : (State.vcTake t s ecc).Good Q R := by
  unfold State.vcTake
  repeat' first
    | with_reducible assumption
    | intro _
    | with_reducible refine (State.good_onDev _).2 ?_
    | with_reducible apply State.good_readAs
    | with_reducible refine State.good_readAs_eq (by assumption) ?_
    | with_reducible refine State.good_ite ?_ ?_
    | with_reducible refine State.good_ite_fst ?_ ?_
    | with_reducible refine State.good_ite_snd ?_ ?_
    | with_reducible refine State.good_afterRead ?_ ?_ ?_
    | split
    | dsimp only

theorem keeps_execDecodeJob {t : State} (j : JobRead) (hG : t.Good Q R) : Keeps (execDecodeJob j t) (State.Good Q R) := by
  unfold execDecodeJob
  repeat' split
  all_goals simp only [State.good_onDev, State.good_vcTake, keeps_next, hG]

theorem keeps_execEncodeJob {t : State} (j : JobRead) (hG : t.Good Q R) : Keeps (execEncodeJob j t) (State.Good Q R) := by
  unfold execEncodeJob
  repeat' split
  all_goals simp only [State.good_onDev, State.good_vcTake, keeps_next, hG]

theorem State.good_vcRecord {t : State} (s : Nat) (j : CodecJob) (status flags used pts : Nat) (hG : t.Good Q R) : (State.vcRecord t s j status flags used pts).Good Q R := by
  unfold State.vcRecord
  simp only [State.good_onDev, State.good_storeAs, hG]

theorem State.good_vcEnd {t : State} (s : Nat) (j : CodecJob) (supported picture key concealed : Bool) (pts : Nat) (out : List Byte) (ecc : Ecc) (hG : t.Good Q R) : (State.vcEnd t s j supported picture key concealed pts out ecc).Good Q R := by
  unfold State.vcEnd
  extract_lets d encode flush need ctx ctxLen carried made
  refine State.good_ite (State.good_vcRecord _ _ _ _ _ _ hG) ?_
  have k0 : (if flush then (some [], t) else t.readAs (.codec s) (j.at 8 8) (j.at 0x10 4)).2.Good Q R :=
    State.good_ite_snd hG (State.good_readAs _ _ _ hG)
  revert k0
  generalize (if flush then (some [], t) else t.readAs (.codec s) (j.at 8 8) (j.at 0x10 4)) = x
  obtain ⟨o, r⟩ := x
  intro k
  cases o with
  | none => exact State.good_vcRecord _ _ _ _ _ _ k
  | some b =>
    dsimp only
    have hu : (r.onDev (fun e => e.when (!flush) (fun f => f.memEcc (j.at 8 8) ecc))).Good Q R := (State.good_onDev _).2 k
    revert hu
    generalize r.onDev (fun e => e.when (!flush) (fun f => f.memEcc (j.at 8 8) ecc)) = u
    intro hu
    refine State.good_ite (State.good_vcRecord _ _ _ _ _ _ hu) ?_
    generalize u.dev.verdict (.codec s) (u.dev.world (.codec s)) .write ctx j.context = w
    have k1 : (if made.isEmpty then (true, u) else u.storeAs (.codec s) (j.at 0x18 8) made).2.Good Q R :=
      State.good_ite_snd hu (State.good_storeAs _ _ _ hu)
    revert k1
    generalize (if made.isEmpty then (true, u) else u.storeAs (.codec s) (j.at 0x18 8) made) = y
    obtain ⟨b, v⟩ := y
    intro k1
    cases w with
    | ok =>
      cases b
      · exact State.good_vcRecord _ _ _ _ _ _ k1
      · exact State.good_vcRecord _ _ _ _ _ _ (State.good_fillFree _ _ k1)
    | _ => exact State.good_vcRecord _ _ _ _ _ _ ((State.good_onDev _).2 hu)

theorem keeps_execCodecJobDone {t : State} (s : Nat) (supported picture key concealed : Bool) (pts : Nat) (out : List Byte) (ecc : Ecc) (hG : t.Good Q R) : Keeps (execCodecJobDone s supported picture key concealed pts out ecc t) (State.Good Q R) := by
  unfold execCodecJobDone
  repeat' split
  all_goals simp only [State.good_vcEnd, keeps_next, hG]

theorem State.good_vcTeardown {t : State} (i : Nat) (hG : t.Good Q R) : (State.vcTeardown t i).Good Q R := by
  unfold State.vcTeardown
  repeat' first
    | with_reducible assumption
    | intro _
    | with_reducible refine (State.good_onDev _).2 ?_
    | with_reducible apply State.good_when
    | with_reducible apply State.good_forAll
    | with_reducible apply State.good_vcRecord
    | with_reducible refine State.good_ite ?_ ?_
    | with_reducible refine State.good_ite_fst ?_ ?_
    | with_reducible refine State.good_ite_snd ?_ ?_
    | with_reducible refine State.good_afterRead ?_ ?_ ?_
    | split
    | dsimp only

/-! ### Machine/Kv.lean -/

theorem State.good_kvWriteRec {s : State} (x : Nat) (k : KvRec) (hG : s.Good Q R) : (State.kvWriteRec s x k).Good Q R := by
  unfold State.kvWriteRec
  simp only [State.good_put, State.good_onDev, hG]

theorem State.good_kvShowShared {s : State} (x : Nat) (pages : List Nat) (hG : s.Good Q R) : (State.kvShowShared s x pages).Good Q R := by
  unfold State.kvShowShared
  repeat' first
    | with_reducible assumption
    | intro _
    | with_reducible apply State.good_forAll
    | with_reducible apply State.good_kvWriteRec
    | with_reducible refine State.good_ite ?_ ?_
    | with_reducible refine State.good_ite_fst ?_ ?_
    | with_reducible refine State.good_ite_snd ?_ ?_
    | with_reducible refine State.good_afterRead ?_ ?_ ?_
    | split
    | dsimp only

theorem State.good_kvPut {s : State} (x : Nat) (k : KvRec) (hG : s.Good Q R) : (State.kvPut s x k).Good Q R := by
  unfold State.kvPut
  repeat' first
    | with_reducible assumption
    | intro _
    | with_reducible apply State.good_put
    | with_reducible refine (State.good_onDev _).2 ?_
    | with_reducible apply State.good_forAll
    | with_reducible apply State.good_kvWriteRec
    | with_reducible apply State.good_kvShowShared
    | with_reducible refine State.good_ite ?_ ?_
    | with_reducible refine State.good_ite_fst ?_ ?_
    | with_reducible refine State.good_ite_snd ?_ ?_
    | with_reducible refine State.good_afterRead ?_ ?_ ?_
    | split
    | dsimp only

theorem State.good_kvCopyTail {s : State} (u : KvUse) (hG : s.Good Q R) : (State.kvCopyTail s u).1.Good Q R := by
  unfold State.kvCopyTail
  repeat' first
    | with_reducible assumption
    | intro _
    | with_reducible apply State.good_put
    | with_reducible refine (State.good_onDev _).2 ?_
    | with_reducible apply State.good_forAll
    | with_reducible refine State.good_ite ?_ ?_
    | with_reducible refine State.good_ite_fst ?_ ?_
    | with_reducible refine State.good_ite_snd ?_ ?_
    | with_reducible refine State.good_afterRead ?_ ?_ ?_
    | split
    | dsimp only

theorem State.good_kvCopyTail_eq {s : State} {u : KvUse} {newS : State} {newO : KvUse} (hE : State.kvCopyTail s u = (newS, newO)) (hG : s.Good Q R) : newS.Good Q R := by
  have hK := @State.good_kvCopyTail Q R s u hG
  rwa [hE] at hK

theorem State.good_kvPublish {s : State} (u : KvUse) (hG : s.Good Q R) : (State.kvPublish s u).Good Q R := by
  unfold State.kvPublish
  repeat' split
  all_goals simp only [State.good_onDev, State.good_kvPut, hG]

theorem State.good_kvFreeSeq {s : State} (h : Nat) (hG : s.Good Q R) : (State.kvFreeSeq s h).Good Q R := by
  unfold State.kvFreeSeq
  repeat' split
  all_goals simp only [State.good_onDev, State.good_kvPut, hG]

/-! ### Machine/Banks.lean -/

theorem State.good_scrub {s : State} (t b : Nat) (hG : s.Good Q R) : (State.scrub s t b).Good Q R := by
  unfold State.scrub
  simp only [State.good_zero, hG]

theorem State.good_handover {s : State} (t b : Nat) (hG : s.Good Q R) : (State.handover s t b).Good Q R := by
  unfold State.handover
  simp only [State.good_onDev, State.good_when, State.good_scrub, hG]

theorem State.good_ownerApplied {s : State} (t b : Nat) (o : W64) (hG : s.Good Q R) : (State.ownerApplied s t b o).Good Q R := by
  unfold State.ownerApplied
  repeat' first
    | with_reducible assumption
    | intro _
    | with_reducible apply State.good_put
    | with_reducible refine (State.good_onDev _).2 ?_
    | with_reducible apply State.good_handover
    | with_reducible refine State.good_ite ?_ ?_
    | with_reducible refine State.good_ite_fst ?_ ?_
    | with_reducible refine State.good_ite_snd ?_ ?_
    | with_reducible refine State.good_afterRead ?_ ?_ ?_
    | split
    | dsimp only

theorem keeps_execBankHandover {s : State} (t b : Nat) (hG : s.Good Q R) : Keeps (execBankHandover t b s) (State.Good Q R) := by
  unfold execBankHandover
  repeat' split
  all_goals simp only [State.good_handover, keeps_next, hG]

theorem State.good_scrubRelease {s : State} (t : Nat) (hG : s.Good Q R) : (State.scrubRelease s t).Good Q R := by
  unfold State.scrubRelease
  repeat' first
    | with_reducible assumption
    | intro _
    | with_reducible apply State.good_forAll
    | with_reducible apply State.good_scrub
    | with_reducible refine State.good_ite ?_ ?_
    | with_reducible refine State.good_ite_fst ?_ ?_
    | with_reducible refine State.good_ite_snd ?_ ?_
    | with_reducible refine State.good_afterRead ?_ ?_ ?_
    | split
    | dsimp only

theorem State.good_releaseTile {s : State} (t : Nat) (hG : s.Good Q R) : (State.releaseTile s t).Good Q R := by
  unfold State.releaseTile
  simp only [State.good_onDev, State.good_scrubRelease, hG]

theorem State.good_releaseTiles {s : State} (id : Nat) (hG : s.Good Q R) : (State.releaseTiles s id).Good Q R := by
  unfold State.releaseTiles
  repeat' first
    | with_reducible assumption
    | intro _
    | with_reducible apply State.good_forAll
    | with_reducible apply State.good_releaseTile
    | with_reducible refine State.good_ite ?_ ?_
    | with_reducible refine State.good_ite_fst ?_ ?_
    | with_reducible refine State.good_ite_snd ?_ ?_
    | with_reducible refine State.good_afterRead ?_ ?_ ?_
    | split
    | dsimp only

theorem State.good_scrubPart {s : State} (p : Nat) (hG : s.Good Q R) : (State.scrubPart s p).Good Q R := by
  unfold State.scrubPart
  repeat' first
    | with_reducible assumption
    | intro _
    | with_reducible apply State.good_forAll
    | with_reducible apply State.good_scrub
    | with_reducible refine State.good_ite ?_ ?_
    | with_reducible refine State.good_ite_fst ?_ ?_
    | with_reducible refine State.good_ite_snd ?_ ?_
    | with_reducible refine State.good_afterRead ?_ ?_ ?_
    | split
    | dsimp only

theorem State.good_scrubRetained {s : State} (ts : List Nat) (hG : s.Good Q R) : (State.scrubRetained s ts).Good Q R := by
  unfold State.scrubRetained
  repeat' first
    | with_reducible assumption
    | intro _
    | with_reducible apply State.good_forAll
    | with_reducible apply State.good_scrub
    | with_reducible refine State.good_ite ?_ ?_
    | with_reducible refine State.good_ite_fst ?_ ?_
    | with_reducible refine State.good_ite_snd ?_ ?_
    | with_reducible refine State.good_afterRead ?_ ?_ ?_
    | split
    | dsimp only

/-! ### Machine/Sched.lean -/

theorem State.good_finish {s : State} (id status detail : Nat) (hG : s.Good Q R) : (State.finish s id status detail).Good Q R := by
  unfold State.finish
  repeat' split
  all_goals simp only [State.good_onDev, State.good_writeRecord, State.good_releaseTiles, hG]

theorem State.good_considerRun {s : State} (p st id : Nat) (c : Cmd) (x : Plan) (hG : s.Good Q R) : (State.considerRun s p st id c x).Good Q R := by
  unfold State.considerRun
  repeat' first
    | with_reducible assumption
    | intro _
    | with_reducible refine (State.good_onDev _).2 ?_
    | with_reducible apply State.good_finish
    | with_reducible refine State.good_ite ?_ ?_
    | with_reducible refine State.good_ite_fst ?_ ?_
    | with_reducible refine State.good_ite_snd ?_ ?_
    | with_reducible refine State.good_afterRead ?_ ?_ ?_
    | split
    | dsimp only

theorem State.good_consider {s : State} (p st id : Nat) (hG : s.Good Q R) : (State.consider s p st id).Good Q R := by
  unfold State.consider
  repeat' split
  all_goals simp only [State.good_onDev, State.good_finish, State.good_considerRun, hG]

theorem State.good_admitStream {s : State} (p st : Nat) (tried : List Nat) (n : Nat) (hG : s.Good Q R) : (s.admitStream p st tried n).Good Q R := by
  induction n generalizing s tried with
  | zero => exact hG
  | succ n ih =>
    unfold State.admitStream
    split
    · exact hG
    · exact ih _ (State.good_consider _ _ _ hG)

theorem State.good_admitPart {s : State} (p : Nat) (hG : s.Good Q R) : (s.admitPart p).Good Q R := by
  unfold State.admitPart
  split
  · exact State.good_forAll _ _ (fun _ _ h => State.good_admitStream _ _ _ _ h) hG
  · exact hG

theorem State.good_admitOther {s : State} (id : Nat) (hG : s.Good Q R) : (State.admitOther s id).Good Q R := by
  unfold State.admitOther
  repeat' first
    | with_reducible assumption
    | intro _
    | with_reducible refine (State.good_onDev _).2 ?_
    | with_reducible apply State.good_finish
    | with_reducible refine State.good_ite ?_ ?_
    | with_reducible refine State.good_ite_fst ?_ ?_
    | with_reducible refine State.good_ite_snd ?_ ?_
    | with_reducible refine State.good_afterRead ?_ ?_ ?_
    | split
    | dsimp only

theorem State.good_admitOthers {s : State} (hG : s.Good Q R) : (State.admitOthers s).Good Q R := by
  unfold State.admitOthers
  repeat' first
    | with_reducible assumption
    | intro _
    | with_reducible apply State.good_forAll
    | with_reducible apply State.good_admitOther
    | with_reducible refine State.good_ite ?_ ?_
    | with_reducible refine State.good_ite_fst ?_ ?_
    | with_reducible refine State.good_ite_snd ?_ ?_
    | with_reducible refine State.good_afterRead ?_ ?_ ?_
    | split
    | dsimp only

theorem State.good_admitAll {s : State} (hG : s.Good Q R) : (State.admitAll s).Good Q R := by
  unfold State.admitAll
  repeat' first
    | with_reducible assumption
    | intro _
    | with_reducible apply State.good_forAll
    | with_reducible apply State.good_admitPart
    | with_reducible apply State.good_admitOthers
    | with_reducible refine State.good_ite ?_ ?_
    | with_reducible refine State.good_ite_fst ?_ ?_
    | with_reducible refine State.good_ite_snd ?_ ?_
    | with_reducible refine State.good_afterRead ?_ ?_ ?_
    | split
    | dsimp only

/-! ### Machine/Recover.lean -/

theorem State.good_endCmd {s : State} (id status : Nat) (hG : s.Good Q R) : (State.endCmd s id status).Good Q R := by
  unfold State.endCmd
  repeat' split
  all_goals simp only [State.good_onDev, State.good_finish, hG]

theorem State.good_tearDown {s : State} (i : Nat) (stop : Bool) (hG : s.Good Q R) : (State.tearDown s i stop).Good Q R := by
  unfold State.tearDown
  repeat' first
    | with_reducible assumption
    | intro _
    | with_reducible refine (State.good_onDev _).2 ?_
    | with_reducible apply State.good_forAll
    | with_reducible apply State.good_vcTeardown
    | with_reducible apply State.good_endCmd
    | with_reducible refine State.good_ite ?_ ?_
    | with_reducible refine State.good_ite_fst ?_ ?_
    | with_reducible refine State.good_ite_snd ?_ ?_
    | with_reducible refine State.good_afterRead ?_ ?_ ?_
    | split
    | dsimp only

theorem State.good_endStopping {s : State} (id : Nat) (hG : s.Good Q R) : (State.endStopping s id).Good Q R := by
  unfold State.endStopping
  repeat' split
  all_goals simp only [State.good_finish, hG]

theorem keeps_execTeardownComplete {s : State} (inst : Nat) (hG : s.Good Q R) : Keeps (execTeardownComplete inst s) (State.Good Q R) := by
  unfold execTeardownComplete
  repeat' first
    | with_reducible assumption
    | with_reducible refine keeps_next ?_
    | intro _
    | with_reducible refine (State.good_onDev _).2 ?_
    | with_reducible apply State.good_forAll
    | with_reducible apply State.good_scrubRetained
    | with_reducible apply State.good_admitAll
    | with_reducible apply State.good_endStopping
    | with_reducible refine keeps_ite ?_ ?_
    | with_reducible refine State.good_ite ?_ ?_
    | with_reducible refine State.good_ite_fst ?_ ?_
    | with_reducible refine State.good_ite_snd ?_ ?_
    | with_reducible refine State.good_afterRead ?_ ?_ ?_
    | split
    | dsimp only

theorem State.good_partReset {s : State} (p : Nat) (hG : s.Good Q R) : (State.partReset s p).Good Q R := by
  unfold State.partReset
  repeat' first
    | with_reducible assumption
    | intro _
    | with_reducible refine (State.good_onDev _).2 ?_
    | with_reducible apply State.good_when
    | with_reducible apply State.good_forAll
    | with_reducible apply State.good_endCmd
    | with_reducible refine State.good_ite ?_ ?_
    | with_reducible refine State.good_ite_fst ?_ ?_
    | with_reducible refine State.good_ite_snd ?_ ?_
    | with_reducible refine State.good_afterRead ?_ ?_ ?_
    | split
    | dsimp only

theorem State.good_serveReset {s : State} (hG : s.Good Q R) : (State.serveReset s).Good Q R := by
  unfold State.serveReset
  repeat' first
    | with_reducible assumption
    | intro _
    | with_reducible refine (State.good_onDev _).2 ?_
    | with_reducible apply State.good_partReset
    | with_reducible refine State.good_ite ?_ ?_
    | with_reducible refine State.good_ite_fst ?_ ?_
    | with_reducible refine State.good_ite_snd ?_ ?_
    | with_reducible refine State.good_afterRead ?_ ?_ ?_
    | split
    | dsimp only

theorem State.good_inputEnd {s : State} (id status : Nat) (hG : s.Good Q R) : (State.inputEnd s id status).Good Q R := by
  unfold State.inputEnd
  repeat' first
    | with_reducible assumption
    | intro _
    | with_reducible apply State.good_finish
    | with_reducible apply State.good_admitAll
    | with_reducible apply State.good_serveReset
    | with_reducible refine State.good_ite ?_ ?_
    | with_reducible refine State.good_ite_fst ?_ ?_
    | with_reducible refine State.good_ite_snd ?_ ?_
    | with_reducible refine State.good_afterRead ?_ ?_ ?_
    | split
    | dsimp only

theorem keeps_execPartitionResetEnd {s : State} (p : Nat) (hG : s.Good Q R) : Keeps (execPartitionResetEnd p s) (State.Good Q R) := by
  unfold execPartitionResetEnd
  repeat' first
    | with_reducible assumption
    | with_reducible refine keeps_next ?_
    | intro _
    | with_reducible refine (State.good_onDev _).2 ?_
    | with_reducible apply State.good_forAll
    | with_reducible apply State.good_scrubPart
    | with_reducible apply State.good_endStopping
    | with_reducible refine keeps_ite ?_ ?_
    | with_reducible refine State.good_ite ?_ ?_
    | with_reducible refine State.good_ite_fst ?_ ?_
    | with_reducible refine State.good_ite_snd ?_ ?_
    | with_reducible refine State.good_afterRead ?_ ?_ ?_
    | split
    | dsimp only

theorem keeps_execSchPartReset {s : State} (m : Master) (p value : Nat) (hG : s.Good Q R) : Keeps (execSchPartReset m p value s) (State.Good Q R) := by
  unfold execSchPartReset
  repeat' split
  all_goals simp only [State.good_onDev, State.good_partReset, State.good_dev, keeps_next, hG]

theorem State.good_ownFault {s : State} (id status : Nat) (recover : Bool) (hG : s.Good Q R) : (State.ownFault s id status recover).Good Q R := by
  unfold State.ownFault
  repeat' first
    | with_reducible assumption
    | intro _
    | with_reducible apply State.good_finish
    | with_reducible apply State.good_admitAll
    | with_reducible apply State.good_tearDown
    | with_reducible apply State.good_partReset
    | with_reducible refine State.good_ite ?_ ?_
    | with_reducible refine State.good_ite_fst ?_ ?_
    | with_reducible refine State.good_ite_snd ?_ ?_
    | with_reducible refine State.good_afterRead ?_ ?_ ?_
    | split
    | dsimp only

theorem State.good_requeue {s : State} (id : Nat) (hold : Bool) (hG : s.Good Q R) : (State.requeue s id hold).Good Q R := by
  unfold State.requeue
  repeat' split
  all_goals simp only [State.good_onDev, State.good_killRecord, State.good_releaseTiles, hG]

theorem keeps_execTileKill {s : State} (id : Nat) (hG : s.Good Q R) : Keeps (execTileKill id s) (State.Good Q R) := by
  unfold execTileKill
  repeat' first
    | with_reducible assumption
    | with_reducible refine keeps_next ?_
    | intro _
    | with_reducible apply State.good_finish
    | with_reducible apply State.good_admitAll
    | with_reducible apply State.good_requeue
    | with_reducible refine keeps_ite ?_ ?_
    | with_reducible refine State.good_ite ?_ ?_
    | with_reducible refine State.good_ite_fst ?_ ?_
    | with_reducible refine State.good_ite_snd ?_ ?_
    | with_reducible refine State.good_afterRead ?_ ?_ ?_
    | split
    | dsimp only

theorem keeps_execBudgetOverrunKill {s : State} (id : Nat) (hG : s.Good Q R) : Keeps (execBudgetOverrunKill id s) (State.Good Q R) := by
  unfold execBudgetOverrunKill
  repeat' split
  all_goals simp only [State.good_onDev, State.good_endCmd, keeps_next, hG]

theorem keeps_execSafetyBudgetElapsed {s : State} (id : Nat) (hG : s.Good Q R) : Keeps (execSafetyBudgetElapsed id s) (State.Good Q R) := by
  unfold execSafetyBudgetElapsed
  repeat' split
  all_goals simp only [State.good_onDev, keeps_next, hG]

theorem State.good_deadline {s : State} (id : Nat) (c : Cmd) (hG : s.Good Q R) : (State.deadline s id c).Good Q R := by
  unfold State.deadline
  repeat' split
  all_goals simp only [State.good_endCmd, hG]

theorem State.good_deadlines {s : State} (hG : s.Good Q R) : (State.deadlines s).Good Q R := by
  unfold State.deadlines
  repeat' first
    | with_reducible assumption
    | intro _
    | with_reducible apply State.good_forAll
    | with_reducible apply State.good_deadline
    | with_reducible refine State.good_ite ?_ ?_
    | with_reducible refine State.good_ite_fst ?_ ?_
    | with_reducible refine State.good_ite_snd ?_ ?_
    | with_reducible refine State.good_afterRead ?_ ?_ ?_
    | split
    | dsimp only

theorem keeps_execInstancePartitionChange {s : State} (inst : Nat) (hG : s.Good Q R) : Keeps (execInstancePartitionChange inst s) (State.Good Q R) := by
  unfold execInstancePartitionChange
  repeat' split
  all_goals simp only [State.good_onDev, State.good_admitAll, keeps_next, hG]

theorem keeps_execRunaheadDiscard {s : State} (addr : Nat) (hG : s.Good Q R) : Keeps (execRunaheadDiscard addr s) (State.Good Q R) := by
  unfold execRunaheadDiscard
  simp only [State.good_onDev, keeps_next, hG]

/-! ### Machine/Start.lean -/

theorem keeps_execPowerGood {s : State} (straps modId modCnt : Nat) (islandOk : Bool) (hG : s.Good Q R) :
    Keeps (execPowerGood straps modId modCnt islandOk s) (State.Good Q R) :=
  keeps_next ⟨hG.1, fun k => ⟨rfl, (hG.2 k).2⟩⟩

theorem keeps_execKeeperTableLoad {s : State} (rsaOk mldsaOk : Bool) (hG : s.Good Q R) : Keeps (execKeeperTableLoad rsaOk mldsaOk s) (State.Good Q R) := by
  unfold execKeeperTableLoad
  simp only [State.good_onDev, keeps_next, hG]

theorem keeps_execWarmupComplete {s : State} (failStep : Nat) (w : Warmup) (hG : s.Good Q R) : Keeps (execWarmupComplete failStep w s) (State.Good Q R) := by
  unfold execWarmupComplete
  simp only [State.good_onDev, keeps_next, hG]

theorem keeps_execMgmtLinkUp {s : State} (hG : s.Good Q R) : Keeps (execMgmtLinkUp s) (State.Good Q R) := by
  unfold execMgmtLinkUp
  simp only [State.good_onDev, keeps_next, hG]

theorem keeps_execFetchOffer {s : State} (m : FetchMsg) (imageLen version blockSize : Nat) (hG : s.Good Q R) : Keeps (execFetchOffer m imageLen version blockSize s) (State.Good Q R) := by
  unfold execFetchOffer
  simp only [State.good_onDev, keeps_next, hG]

theorem keeps_execFetchData {s : State} (h : FetchHdr) (bytes : List Byte) (rsaOk mldsaOk lengthOk : Bool) (opp : Option Points) (hG : s.Good Q R) : Keeps (execFetchData h bytes rsaOk mldsaOk lengthOk opp s) (State.Good Q R) := by
  unfold execFetchData
  repeat' split
  all_goals simp only [State.good_put, State.good_onDev, keeps_next, hG]

theorem keeps_execFetchError {s : State} (m : FetchMsg) (_reason : Nat) (hG : s.Good Q R) : Keeps (execFetchError m _reason s) (State.Good Q R) := by
  unfold execFetchError
  simp only [State.good_onDev, keeps_next, hG]

theorem keeps_execSolicitRetry {s : State} (hG : s.Good Q R) : Keeps (execSolicitRetry s) (State.Good Q R) := by
  unfold execSolicitRetry
  simp only [State.good_onDev, keeps_next, hG]

theorem keeps_execBootDataTimeout {s : State} (block : Nat) (hG : s.Good Q R) : Keeps (execBootDataTimeout block s) (State.Good Q R) := by
  unfold execBootDataTimeout
  simp only [State.good_onDev, keeps_next, hG]

theorem State.good_storeTraining {s : State} (x : Nat × List Byte) (hG : s.Good Q R) : (State.storeTraining s x).Good Q R := by
  unfold State.storeTraining
  repeat' split
  all_goals simp only [State.good_flashProgram, State.good_flashErase, hG]

theorem keeps_execStartCtrlReady {s : State} (m : Master) (value : Nat) (hG : s.Good Q R) : Keeps (execStartCtrlReady m value s) (State.Good Q R) := by
  unfold execStartCtrlReady
  repeat' split
  all_goals simp only [State.good_onDev, State.good_dev, keeps_next, hG]

theorem keeps_execPcieConfigRequest {s : State} (port : Nat) (hG : s.Good Q R) : Keeps (execPcieConfigRequest port s) (State.Good Q R) := by
  unfold execPcieConfigRequest
  simp only [State.good_onDev, keeps_next, hG]

/-! ### Machine/Umpire.lean -/

theorem keeps_execRefresh2x {s : State} (k : Nat) (hot : Bool) (hG : s.Good Q R) : Keeps (execRefresh2x k hot s) (State.Good Q R) := by
  unfold execRefresh2x
  simp only [State.good_onDev, keeps_next, hG]

theorem keeps_execUmpireWindow {s : State} (k p : Nat) (traffic : List UmpEvent) (hG : s.Good Q R) : Keeps (execUmpireWindow k p traffic s) (State.Good Q R) := by
  unfold execUmpireWindow
  simp only [State.good_onDev, keeps_next, hG]

theorem keeps_execHpRequest {s : State} (m : HbmMaster) (_dirty : Bool) (addr bursts : Nat) (hG : s.Good Q R) : Keeps (execHpRequest m _dirty addr bursts s) (State.Good Q R) := by
  unfold execHpRequest
  simp only [State.good_onDev, keeps_next, hG]

theorem keeps_execUmpCntClear {s : State} (m : Master) (k value : Nat) (hG : s.Good Q R) : Keeps (execUmpCntClear m k value s) (State.Good Q R) := by
  unfold execUmpCntClear
  repeat' split
  all_goals simp only [State.good_onDev, State.good_dev, keeps_next, hG]

/-! ### Machine/Loads.lean -/

theorem State.good_readInput {s : State} (m : Master) (a n : Nat) (ecc : Ecc) (hG : s.Good Q R) : (State.readInput s m a n ecc).2.Good Q R := by
  unfold State.readInput
  repeat' first
    | with_reducible assumption
    | intro _
    | with_reducible refine (State.good_onDev _).2 ?_
    | with_reducible apply State.good_readAs
    | with_reducible refine State.good_readAs_eq (by assumption) ?_
    | with_reducible refine State.good_ite ?_ ?_
    | with_reducible refine State.good_ite_fst ?_ ?_
    | with_reducible refine State.good_ite_snd ?_ ?_
    | with_reducible refine State.good_afterRead ?_ ?_ ?_
    | split
    | dsimp only

theorem State.good_readInput_eq {s : State} {m : Master} {a n : Nat} {ecc : Ecc} {newS : State} {newO : Except Nat (List Byte)} (hE : State.readInput s m a n ecc = (newO, newS)) (hG : s.Good Q R) : newS.Good Q R := by
  have hK := @State.good_readInput Q R s m a n ecc hG
  rwa [hE] at hK

theorem keeps_execLoadPlan {s : State} (id : Nat) (code : CodeInfo) (ecc : Ecc) (hG : s.Good Q R) : Keeps (execLoadPlan id code ecc s) (State.Good Q R) := by
  unfold execLoadPlan
  repeat' first
    | with_reducible assumption
    | with_reducible refine keeps_next ?_
    | intro _
    | with_reducible refine (State.good_onDev _).2 ?_
    | with_reducible apply State.good_finish
    | with_reducible apply State.good_admitAll
    | with_reducible apply State.good_inputEnd
    | with_reducible apply State.good_readInput
    | with_reducible refine State.good_readInput_eq (by assumption) ?_
    | with_reducible refine keeps_ite ?_ ?_
    | with_reducible refine State.good_ite ?_ ?_
    | with_reducible refine State.good_ite_fst ?_ ?_
    | with_reducible refine State.good_ite_snd ?_ ?_
    | with_reducible refine State.good_afterRead ?_ ?_ ?_
    | split
    | dsimp only

theorem keeps_execEvictPlan {s : State} (id : Nat) (hG : s.Good Q R) : Keeps (execEvictPlan id s) (State.Good Q R) := by
  unfold execEvictPlan
  repeat' first
    | with_reducible assumption
    | with_reducible refine keeps_next ?_
    | intro _
    | with_reducible refine (State.good_onDev _).2 ?_
    | with_reducible apply State.good_finish
    | with_reducible apply State.good_admitAll
    | with_reducible refine keeps_ite ?_ ?_
    | with_reducible refine State.good_ite ?_ ?_
    | with_reducible refine State.good_ite_fst ?_ ?_
    | with_reducible refine State.good_ite_snd ?_ ?_
    | with_reducible refine State.good_afterRead ?_ ?_ ?_
    | split
    | dsimp only

theorem State.good_loadNoRoom {s : State} (id : Nat) (c : Cmd) (hG : s.Good Q R) : (State.loadNoRoom s id c).Good Q R := by
  unfold State.loadNoRoom
  repeat' split
  all_goals simp only [State.good_onDev, State.good_finish, State.good_admitAll, hG]

theorem State.good_startLoad {s : State} (id : Nat) (c : Cmd) (l : Load) (hG : s.Good Q R) : (State.startLoad s id c l).Good Q R := by
  unfold State.startLoad
  repeat' first
    | with_reducible assumption
    | intro _
    | with_reducible refine (State.good_onDev _).2 ?_
    | with_reducible apply State.good_admitAll
    | with_reducible apply State.good_loadNoRoom
    | with_reducible refine State.good_ite ?_ ?_
    | with_reducible refine State.good_ite_fst ?_ ?_
    | with_reducible refine State.good_ite_snd ?_ ?_
    | with_reducible refine State.good_afterRead ?_ ?_ ?_
    | split
    | dsimp only

theorem State.good_startReload {s : State} (x : Plan) (hG : s.Good Q R) : (State.startReload s x).Good Q R := by
  unfold State.startReload
  repeat' first
    | with_reducible assumption
    | intro _
    | with_reducible refine (State.good_onDev _).2 ?_
    | with_reducible apply State.good_admitAll
    | with_reducible refine State.good_ite ?_ ?_
    | with_reducible refine State.good_ite_fst ?_ ?_
    | with_reducible refine State.good_ite_snd ?_ ?_
    | with_reducible refine State.good_afterRead ?_ ?_ ?_
    | split
    | dsimp only

theorem keeps_execPlanLoadStart {s : State} (l : LoadRef) (hG : s.Good Q R) : Keeps (execPlanLoadStart l s) (State.Good Q R) := by
  unfold execPlanLoadStart
  repeat' split
  all_goals simp only [State.good_loadNoRoom, State.good_startLoad, State.good_startReload, keeps_next, hG]

theorem State.good_imageBad {s : State} (inst addr len crc : Nat) (ecc : Ecc) (hG : s.Good Q R) : (State.imageBad s inst addr len crc ecc).2.Good Q R := by
  unfold State.imageBad
  repeat' first
    | with_reducible assumption
    | intro _
    | with_reducible apply State.good_readInput
    | with_reducible refine State.good_readInput_eq (by assumption) ?_
    | with_reducible refine State.good_ite ?_ ?_
    | with_reducible refine State.good_ite_fst ?_ ?_
    | with_reducible refine State.good_ite_snd ?_ ?_
    | with_reducible refine State.good_afterRead ?_ ?_ ?_
    | split
    | dsimp only

theorem State.good_imageBad_eq {s : State} {inst addr len crc : Nat} {ecc : Ecc} {newS : State} {newO : Option Nat} (hE : State.imageBad s inst addr len crc ecc = (newO, newS)) (hG : s.Good Q R) : newS.Good Q R := by
  have hK := @State.good_imageBad Q R s inst addr len crc ecc hG
  rwa [hE] at hK

theorem State.good_fillBanks {s : State} (l : Load) (hG : s.Good Q R) : (State.fillBanks s l).Good Q R := by
  unfold State.fillBanks
  repeat' first
    | with_reducible assumption
    | intro _
    | with_reducible apply State.good_fillFree
    | with_reducible apply State.good_forAll
    | with_reducible refine State.good_ite ?_ ?_
    | with_reducible refine State.good_ite_fst ?_ ?_
    | with_reducible refine State.good_ite_snd ?_ ?_
    | with_reducible refine State.good_afterRead ?_ ?_ ?_
    | split
    | dsimp only

theorem State.good_runLoadDone {s : State} (id : Nat) (c : Cmd) (l : Load) (ecc : Ecc) (hG : s.Good Q R) : (State.runLoadDone s id c l ecc).Good Q R := by
  unfold State.runLoadDone
  repeat' first
    | with_reducible assumption
    | intro _
    | with_reducible refine (State.good_onDev _).2 ?_
    | with_reducible apply State.good_when
    | with_reducible apply State.good_admitAll
    | with_reducible apply State.good_inputEnd
    | with_reducible apply State.good_imageBad
    | with_reducible refine State.good_imageBad_eq (by assumption) ?_
    | with_reducible apply State.good_fillBanks
    | with_reducible refine State.good_ite ?_ ?_
    | with_reducible refine State.good_ite_fst ?_ ?_
    | with_reducible refine State.good_ite_snd ?_ ?_
    | with_reducible refine State.good_afterRead ?_ ?_ ?_
    | split
    | dsimp only

theorem State.good_planLoadDone {s : State} (id : Nat) (c : Cmd) (l : Load) (ecc : Ecc) (hG : s.Good Q R) : (State.planLoadDone s id c l ecc).Good Q R := by
  unfold State.planLoadDone
  repeat' first
    | with_reducible assumption
    | intro _
    | with_reducible refine (State.good_onDev _).2 ?_
    | with_reducible apply State.good_admitAll
    | with_reducible apply State.good_inputEnd
    | with_reducible apply State.good_imageBad
    | with_reducible refine State.good_imageBad_eq (by assumption) ?_
    | with_reducible apply State.good_fillBanks
    | with_reducible refine State.good_ite ?_ ?_
    | with_reducible refine State.good_ite_fst ?_ ?_
    | with_reducible refine State.good_ite_snd ?_ ?_
    | with_reducible refine State.good_afterRead ?_ ?_ ?_
    | split
    | dsimp only

theorem keeps_execPlanLoadDone {s : State} (l : LoadEnd) (hG : s.Good Q R) : Keeps (execPlanLoadDone l s) (State.Good Q R) := by
  unfold execPlanLoadDone
  repeat' first
    | with_reducible assumption
    | with_reducible refine keeps_next ?_
    | intro _
    | with_reducible refine (State.good_onDev _).2 ?_
    | with_reducible apply State.good_admitAll
    | with_reducible apply State.good_serveReset
    | with_reducible apply State.good_imageBad
    | with_reducible refine State.good_imageBad_eq (by assumption) ?_
    | with_reducible apply State.good_fillBanks
    | with_reducible apply State.good_runLoadDone
    | with_reducible apply State.good_planLoadDone
    | with_reducible refine keeps_ite ?_ ?_
    | with_reducible refine State.good_ite ?_ ?_
    | with_reducible refine State.good_ite_fst ?_ ?_
    | with_reducible refine State.good_ite_snd ?_ ?_
    | with_reducible refine State.good_afterRead ?_ ?_ ?_
    | split
    | dsimp only

/-! ### Machine/Tile.lean -/

theorem State.good_go {s : State} (hG : s.Good Q R) : (State.go s).1.Good Q R := by
  unfold State.go
  simp only [hG]

theorem State.good_go_eq {s : State} {newS : State} {newO : Bool} (hE : State.go s = (newS, newO)) (hG : s.Good Q R) : newS.Good Q R := by
  have hK := @State.good_go Q R s  hG
  rwa [hE] at hK

theorem State.good_stop {s : State} (hG : s.Good Q R) : (State.stop s).1.Good Q R := by
  unfold State.stop
  simp only [hG]

theorem State.good_stop_eq {s : State} {newS : State} {newO : Bool} (hE : State.stop s = (newS, newO)) (hG : s.Good Q R) : newS.Good Q R := by
  have hK := @State.good_stop Q R s  hG
  rwa [hE] at hK

theorem State.good_accessFault {s : State} (id t a : Nat) (hG : s.Good Q R) : (State.accessFault s id t a).Good Q R := by
  unfold State.accessFault
  simp only [State.good_onDev, State.good_ownFault, hG]

theorem State.good_eccFound {s : State} (id t a : Nat) (e : Ecc) (hG : s.Good Q R) : (State.eccFound s id t a e).1.Good Q R := by
  unfold State.eccFound
  extract_lets u
  have hu : u.Good Q R := (State.good_onDev _).2 hG
  exact State.good_ite_fst (State.good_stop (State.good_inputEnd _ _ ((State.good_onDev _).2 hu))) (State.good_go hu)

theorem State.good_eccFound_eq {s : State} {id t a : Nat} {e : Ecc} {newS : State} {newO : Bool} (hE : State.eccFound s id t a e = (newS, newO)) (hG : s.Good Q R) : newS.Good Q R := by
  have hK := @State.good_eccFound Q R s id t a e hG
  rwa [hE] at hK

theorem State.good_spWrite {s : State} (id t off : Nat) (bs : List Byte) (hG : s.Good Q R) : (State.spWrite s id t off bs).1.Good Q R := by
  unfold State.spWrite
  repeat' split
  all_goals simp only [State.good_put, State.go, State.stop, State.good_accessFault, hG]

theorem State.good_spWrite_eq {s : State} {id t off : Nat} {bs : List Byte} {newS : State} {newO : Bool} (hE : State.spWrite s id t off bs = (newS, newO)) (hG : s.Good Q R) : newS.Good Q R := by
  have hK := @State.good_spWrite Q R s id t off bs hG
  rwa [hE] at hK

theorem State.good_withSp {s : State} (id t : Nat) (rs : List (Nat × Nat)) (f : List (List Byte) → Run) (hG : s.Good Q R) (hf : ∀ b, (f b).1.Good Q R) :
    (s.withSp id t rs f).1.Good Q R := by
  unfold State.withSp
  split
  · exact State.good_accessFault _ _ _ hG
  · exact hf _

theorem State.good_placeRead {s : State} (id t n : Nat) (c : Cmd) (p : Place) (hG : s.Good Q R) : (State.placeRead s id t n c p).2.Good Q R := by
  unfold State.placeRead
  repeat' first
    | with_reducible assumption
    | intro _
    | with_reducible refine (State.good_onDev _).2 ?_
    | with_reducible apply State.good_readAs
    | with_reducible refine State.good_readAs_eq (by assumption) ?_
    | with_reducible apply State.good_accessFault
    | with_reducible refine State.good_ite ?_ ?_
    | with_reducible refine State.good_ite_fst ?_ ?_
    | with_reducible refine State.good_ite_snd ?_ ?_
    | with_reducible refine State.good_afterRead ?_ ?_ ?_
    | split
    | dsimp only

theorem State.good_placeRead_eq {s : State} {id t n : Nat} {c : Cmd} {p : Place} {newS : State} {newO : Option (List Byte)} (hE : State.placeRead s id t n c p = (newO, newS)) (hG : s.Good Q R) : newS.Good Q R := by
  have hK := @State.good_placeRead Q R s id t n c p hG
  rwa [hE] at hK

theorem State.good_placeWrite {s : State} (id t : Nat) (c : Cmd) (p : Place) (bs : List Byte) (hG : s.Good Q R) : (State.placeWrite s id t c p bs).1.Good Q R := by
  unfold State.placeWrite
  repeat' first
    | with_reducible assumption
    | intro _
    | with_reducible refine (State.good_onDev _).2 ?_
    | with_reducible apply State.good_storeAs
    | with_reducible refine State.good_storeAs_eq (by assumption) ?_
    | simp only [State.go]
    | simp only [State.stop]
    | with_reducible apply State.good_accessFault
    | with_reducible refine State.good_ite ?_ ?_
    | with_reducible refine State.good_ite_fst ?_ ?_
    | with_reducible refine State.good_ite_snd ?_ ?_
    | with_reducible refine State.good_afterRead ?_ ?_ ?_
    | split
    | dsimp only

theorem State.good_placeWrite_eq {s : State} {id t : Nat} {c : Cmd} {p : Place} {bs : List Byte} {newS : State} {newO : Bool} (hE : State.placeWrite s id t c p bs = (newS, newO)) (hG : s.Good Q R) : newS.Good Q R := by
  have hK := @State.good_placeWrite Q R s id t c p bs hG
  rwa [hE] at hK

theorem State.good_blockReads {s : State} (id t n : Nat) (c : Cmd) (src : Place) (l : List Nat) (got : List (List Byte)) (hG : s.Good Q R) :
    (s.blockReads id t n c src l got).2.Good Q R := by
  induction l generalizing s got with
  | nil => exact hG
  | cons o rest ih =>
    unfold State.blockReads
    have k := State.good_placeRead id t n c (placePlus src o) hG
    revert k
    generalize s.placeRead id t n c (placePlus src o) = x
    obtain ⟨b, u⟩ := x
    intro k
    cases b with
    | none => exact k
    | some bs => exact ih _ k

theorem State.good_opBlock {s : State} (id t : Nat) (c : Cmd) (src : Place) (run : Nat) (dims : List (Nat × Nat)) (dst tok : Nat) (demand : Bool) (hG : s.Good Q R) : (State.opBlock s id t c src run dims dst tok demand).1.Good Q R := by
  unfold State.opBlock
  extract_lets d offs x n heads
  refine State.good_ite_fst (State.good_stop hG) (State.good_ite_fst (State.good_stop hG) (State.good_ite_fst (State.good_stop (State.good_accessFault _ _ _ hG)) ?_))
  have k := State.good_blockReads id t run c src offs [] hG
  revert k
  generalize s.blockReads id t run c src offs [] = y
  obtain ⟨o, u⟩ := y
  intro k
  cases o with
  | none => exact State.good_stop k
  | some l => exact State.good_go ((State.good_onDev _).2 k)

theorem State.good_opBlock_eq {s : State} {id t : Nat} {c : Cmd} {src : Place} {run : Nat} {dims : List (Nat × Nat)} {dst tok : Nat} {demand : Bool} {newS : State} {newO : Bool} (hE : State.opBlock s id t c src run dims dst tok demand = (newS, newO)) (hG : s.Good Q R) : newS.Good Q R := by
  have hK := @State.good_opBlock Q R s id t c src run dims dst tok demand hG
  rwa [hE] at hK

theorem State.good_opReads {s : State} (t i n : Nat) (hG : s.Good Q R) : (State.opReads s t i n).1.Good Q R := by
  unfold State.opReads
  simp only [State.good_onDev, State.go, hG]

theorem State.good_opReads_eq {s : State} {t i n : Nat} {newS : State} {newO : Bool} (hE : State.opReads s t i n = (newS, newO)) (hG : s.Good Q R) : newS.Good Q R := by
  have hK := @State.good_opReads Q R s t i n hG
  rwa [hE] at hK

theorem State.good_blockWrites {s : State} (id t : Nat) (l : List (Nat × List Byte)) (hG : s.Good Q R) : (s.blockWrites id t l).1.Good Q R := by
  induction l generalizing s with
  | nil => exact State.good_go hG
  | cons x rest ih =>
    unfold State.blockWrites
    have k := State.good_spWrite id t x.1 x.2 hG
    exact State.good_ite_fst (ih k) k

theorem State.good_opArrive {s : State} (id t i : Nat) (ecc : Ecc) (hG : s.Good Q R) : (State.opArrive s id t i ecc).1.Good Q R := by
  unfold State.opArrive
  generalize (s.dev.tile t).flight[i]? = o
  cases o with
  | none => exact State.good_stop hG
  | some f =>
    dsimp -zeta only
    extract_lets u e
    have hu : u.Good Q R := (State.good_onDev _).2 hG
    have he : e.1.Good Q R := by
      show (match f.src with | none => u.go | some a => u.eccFound id t a ecc).1.Good Q R
      cases f.src with
      | none => exact State.good_go hu
      | some a => exact State.good_eccFound _ _ _ _ hu
    refine State.good_ite_fst he ?_
    have hr := State.good_blockWrites id t f.data he
    exact State.good_ite_fst (State.good_go ((State.good_onDev _).2 hr)) hr

theorem State.good_opArrive_eq {s : State} {id t i : Nat} {ecc : Ecc} {newS : State} {newO : Bool} (hE : State.opArrive s id t i ecc = (newS, newO)) (hG : s.Good Q R) : newS.Good Q R := by
  have hK := @State.good_opArrive Q R s id t i ecc hG
  rwa [hE] at hK

theorem State.good_opRelease {s : State} (id t : Nat) (hG : s.Good Q R) : (State.opRelease s id t).1.Good Q R := by
  unfold State.opRelease
  repeat' first
    | with_reducible assumption
    | intro _
    | with_reducible refine (State.good_onDev _).2 ?_
    | simp only [State.go]
    | simp only [State.stop]
    | with_reducible refine State.good_ite ?_ ?_
    | with_reducible refine State.good_ite_fst ?_ ?_
    | with_reducible refine State.good_ite_snd ?_ ?_
    | with_reducible refine State.good_afterRead ?_ ?_ ?_
    | split
    | dsimp only

theorem State.good_opRelease_eq {s : State} {id t : Nat} {newS : State} {newO : Bool} (hE : State.opRelease s id t = (newS, newO)) (hG : s.Good Q R) : newS.Good Q R := by
  have hK := @State.good_opRelease Q R s id t hG
  rwa [hE] at hK

theorem State.good_opTileWrite {s : State} (id t off n : Nat) (us : List Nat) (dst : Nat) (hG : s.Good Q R) : (State.opTileWrite s id t off n us dst).1.Good Q R := by
  unfold State.opTileWrite
  repeat' first
    | with_reducible assumption
    | intro _
    | with_reducible apply State.good_put
    | with_reducible refine (State.good_onDev _).2 ?_
    | with_reducible apply State.good_forAll
    | simp only [State.go]
    | simp only [State.stop]
    | with_reducible apply State.good_accessFault
    | with_reducible apply State.good_withSp
    | with_reducible refine State.good_withSp_eq (by assumption) ?_
    | with_reducible refine State.good_ite ?_ ?_
    | with_reducible refine State.good_ite_fst ?_ ?_
    | with_reducible refine State.good_ite_snd ?_ ?_
    | with_reducible refine State.good_afterRead ?_ ?_ ?_
    | split
    | dsimp only

theorem State.good_opTileWrite_eq {s : State} {id t off n : Nat} {us : List Nat} {dst : Nat} {newS : State} {newO : Bool} (hE : State.opTileWrite s id t off n us dst = (newS, newO)) (hG : s.Good Q R) : newS.Good Q R := by
  have hK := @State.good_opTileWrite Q R s id t off n us dst hG
  rwa [hE] at hK

/-! ### Machine/Matrix.lean -/

theorem State.good_opMatStep {s : State} (id t row : Nat) (a b : Opnd) (sparse : Option Nat) (depth cols : Nat) (hG : s.Good Q R) : (State.opMatStep s id t row a b sparse depth cols).1.Good Q R := by
  unfold State.opMatStep
  repeat' first
    | with_reducible assumption
    | intro _
    | with_reducible refine (State.good_onDev _).2 ?_
    | simp only [State.go]
    | simp only [State.stop]
    | with_reducible apply State.good_withSp
    | with_reducible refine State.good_withSp_eq (by assumption) ?_
    | with_reducible refine State.good_ite ?_ ?_
    | with_reducible refine State.good_ite_fst ?_ ?_
    | with_reducible refine State.good_ite_snd ?_ ?_
    | with_reducible refine State.good_afterRead ?_ ?_ ?_
    | split
    | dsimp only

theorem State.good_opMatStep_eq {s : State} {id t row : Nat} {a b : Opnd} {sparse : Option Nat} {depth cols : Nat} {newS : State} {newO : Bool} (hE : State.opMatStep s id t row a b sparse depth cols = (newS, newO)) (hG : s.Good Q R) : newS.Good Q R := by
  have hK := @State.good_opMatStep Q R s id t row a b sparse depth cols hG
  rwa [hE] at hK

theorem State.good_opMatClear {s : State} (t half : Nat) (hG : s.Good Q R) : (State.opMatClear s t half).1.Good Q R := by
  unfold State.opMatClear
  simp only [State.good_onDev, State.go, hG]

theorem State.good_opMatClear_eq {s : State} {t half : Nat} {newS : State} {newO : Bool} (hE : State.opMatClear s t half = (newS, newO)) (hG : s.Good Q R) : newS.Good Q R := by
  have hK := @State.good_opMatClear Q R s t half hG
  rwa [hE] at hK

theorem State.good_opAttStart {s : State} (t row ly h i : Nat) (c : Cmd) (hG : s.Good Q R) : (State.opAttStart s t row ly h i c).1.Good Q R := by
  unfold State.opAttStart
  repeat' split
  all_goals simp only [State.good_onDev, State.go, State.stop, hG]

theorem State.good_opAttStart_eq {s : State} {t row ly h i : Nat} {c : Cmd} {newS : State} {newO : Bool} (hE : State.opAttStart s t row ly h i c = (newS, newO)) (hG : s.Good Q R) : newS.Good Q R := by
  have hK := @State.good_opAttStart Q R s t row ly h i c hG
  rwa [hE] at hK

theorem State.good_opAttBlock {s : State} (id t row q k v mask : Nat) (c : Cmd) (hG : s.Good Q R) : (State.opAttBlock s id t row q k v mask c).1.Good Q R := by
  unfold State.opAttBlock
  repeat' first
    | with_reducible assumption
    | intro _
    | with_reducible refine (State.good_onDev _).2 ?_
    | simp only [State.go]
    | simp only [State.stop]
    | with_reducible apply State.good_withSp
    | with_reducible refine State.good_withSp_eq (by assumption) ?_
    | with_reducible apply State.good_foldl
    | with_reducible refine State.good_ite ?_ ?_
    | with_reducible refine State.good_ite_fst ?_ ?_
    | with_reducible refine State.good_ite_snd ?_ ?_
    | with_reducible refine State.good_afterRead ?_ ?_ ?_
    | split
    | dsimp only

theorem State.good_opAttBlock_eq {s : State} {id t row q k v mask : Nat} {c : Cmd} {newS : State} {newO : Bool} (hE : State.opAttBlock s id t row q k v mask c = (newS, newO)) (hG : s.Good Q R) : newS.Good Q R := by
  have hK := @State.good_opAttBlock Q R s id t row q k v mask c hG
  rwa [hE] at hK

theorem State.good_markVoid {s : State} (id t : Nat) (c : Cmd) (void : Option (Nat × Nat)) (hG : s.Good Q R) : (State.markVoid s id t c void).1.Good Q R := by
  unfold State.markVoid
  repeat' split
  all_goals simp only [State.go, State.good_placeWrite, hG]

theorem State.good_markVoid_eq {s : State} {id t : Nat} {c : Cmd} {void : Option (Nat × Nat)} {newS : State} {newO : Bool} (hE : State.markVoid s id t c void = (newS, newO)) (hG : s.Good Q R) : newS.Good Q R := by
  have hK := @State.good_markVoid Q R s id t c void hG
  rwa [hE] at hK

theorem State.good_opAttEnd {s : State} (id t row bit : Nat) (c : Cmd) (hG : s.Good Q R) : (State.opAttEnd s id t row bit c).1.Good Q R := by
  unfold State.opAttEnd
  repeat' split
  all_goals simp only [State.good_onDev, State.go, State.stop, State.good_markVoid, hG]

theorem State.good_opAttEnd_eq {s : State} {id t row bit : Nat} {c : Cmd} {newS : State} {newO : Bool} (hE : State.opAttEnd s id t row bit c = (newS, newO)) (hG : s.Good Q R) : newS.Good Q R := by
  have hK := @State.good_opAttEnd Q R s id t row bit c hG
  rwa [hE] at hK

theorem State.good_opScout {s : State} (id t ly g : Nat) (c : Cmd) (q : Opnd) (rows : Nat) (hG : s.Good Q R) : (State.opScout s id t ly g c q rows).1.Good Q R := by
  unfold State.opScout
  repeat' first
    | with_reducible assumption
    | intro _
    | with_reducible apply State.good_put
    | with_reducible refine (State.good_onDev _).2 ?_
    | simp only [State.go]
    | simp only [State.stop]
    | with_reducible apply State.good_accessFault
    | with_reducible apply State.good_withSp
    | with_reducible refine State.good_withSp_eq (by assumption) ?_
    | with_reducible refine State.good_ite ?_ ?_
    | with_reducible refine State.good_ite_fst ?_ ?_
    | with_reducible refine State.good_ite_snd ?_ ?_
    | with_reducible refine State.good_afterRead ?_ ?_ ?_
    | split
    | dsimp only

theorem State.good_opScout_eq {s : State} {id t ly g : Nat} {c : Cmd} {q : Opnd} {rows : Nat} {newS : State} {newO : Bool} (hE : State.opScout s id t ly g c q rows = (newS, newO)) (hG : s.Good Q R) : newS.Good Q R := by
  have hK := @State.good_opScout Q R s id t ly g c q rows hG
  rwa [hE] at hK

theorem State.good_opIndex {s : State} (id t ly row : Nat) (c : Cmd) (hG : s.Good Q R) : (State.opIndex s id t ly row c).1.Good Q R := by
  unfold State.opIndex
  repeat' first
    | with_reducible assumption
    | intro _
    | with_reducible refine (State.good_onDev _).2 ?_
    | simp only [State.go]
    | simp only [State.stop]
    | with_reducible apply State.good_accessFault
    | with_reducible apply State.good_placeWrite
    | with_reducible refine State.good_placeWrite_eq (by assumption) ?_
    | with_reducible refine State.good_ite ?_ ?_
    | with_reducible refine State.good_ite_fst ?_ ?_
    | with_reducible refine State.good_ite_snd ?_ ?_
    | with_reducible refine State.good_afterRead ?_ ?_ ?_
    | split
    | dsimp only

theorem State.good_opIndex_eq {s : State} {id t ly row : Nat} {c : Cmd} {newS : State} {newO : Bool} (hE : State.opIndex s id t ly row c = (newS, newO)) (hG : s.Good Q R) : newS.Good Q R := by
  have hK := @State.good_opIndex Q R s id t ly row c hG
  rwa [hE] at hK

/-! ### Machine/Vector.lean -/

theorem State.good_issued {s : State} (t : Nat) (hG : s.Good Q R) : (State.issued s t).1.Good Q R := by
  unfold State.issued
  simp only [State.good_onDev, State.go, hG]

theorem State.good_issued_eq {s : State} {t : Nat} {newS : State} {newO : Bool} (hE : State.issued s t = (newS, newO)) (hG : s.Good Q R) : newS.Good Q R := by
  have hK := @State.good_issued Q R s t hG
  rwa [hE] at hK

theorem State.good_opLaunch {s : State} (id : Nat) (b : Bool) (k : Nat) (c : Cmd) (hG : s.Good Q R) : (State.opLaunch s id b k c).1.Good Q R := by
  unfold State.opLaunch
  repeat' split
  all_goals simp only [State.good_onDev, State.go, State.stop, hG]

theorem State.good_opLaunch_eq {s : State} {id : Nat} {b : Bool} {k : Nat} {c : Cmd} {newS : State} {newO : Bool} (hE : State.opLaunch s id b k c = (newS, newO)) (hG : s.Good Q R) : newS.Good Q R := by
  have hK := @State.good_opLaunch Q R s id b k c hG
  rwa [hE] at hK

theorem State.good_opGroup {s : State} (id t k : Nat) (c : Cmd) (hG : s.Good Q R) : (State.opGroup s id t k c).1.Good Q R := by
  unfold State.opGroup
  repeat' first
    | with_reducible assumption
    | intro _
    | with_reducible apply State.good_put
    | with_reducible refine (State.good_onDev _).2 ?_
    | simp only [State.go]
    | simp only [State.stop]
    | with_reducible apply State.good_foldl
    | with_reducible refine State.good_ite ?_ ?_
    | with_reducible refine State.good_ite_fst ?_ ?_
    | with_reducible refine State.good_ite_snd ?_ ?_
    | with_reducible refine State.good_afterRead ?_ ?_ ?_
    | split
    | dsimp only

theorem State.good_opGroup_eq {s : State} {id t k : Nat} {c : Cmd} {newS : State} {newO : Bool} (hE : State.opGroup s id t k c = (newS, newO)) (hG : s.Good Q R) : newS.Good Q R := by
  have hK := @State.good_opGroup Q R s id t k c hG
  rwa [hE] at hK

theorem State.good_opGroupEnd {s : State} (t k g : Nat) (hG : s.Good Q R) : (State.opGroupEnd s t k g).1.Good Q R := by
  unfold State.opGroupEnd
  repeat' split
  all_goals simp only [State.good_onDev, State.go, State.stop, hG]

theorem State.good_opGroupEnd_eq {s : State} {t k g : Nat} {newS : State} {newO : Bool} (hE : State.opGroupEnd s t k g = (newS, newO)) (hG : s.Good Q R) : newS.Good Q R := by
  have hK := @State.good_opGroupEnd Q R s t k g hG
  rwa [hE] at hK

theorem State.good_opBarrier {s : State} (t sq : Nat) (hG : s.Good Q R) : (State.opBarrier s t sq).1.Good Q R := by
  unfold State.opBarrier
  repeat' split
  all_goals simp only [State.good_onDev, State.go, State.stop, hG]

theorem State.good_opBarrier_eq {s : State} {t sq : Nat} {newS : State} {newO : Bool} (hE : State.opBarrier s t sq = (newS, newO)) (hG : s.Good Q R) : newS.Good Q R := by
  have hK := @State.good_opBarrier Q R s t sq hG
  rwa [hE] at hK

theorem State.good_opActive {s : State} (t sq : Nat) (on : List Nat) (hG : s.Good Q R) : (State.opActive s t sq on).1.Good Q R := by
  unfold State.opActive
  repeat' split
  all_goals simp only [State.good_onDev, State.go, State.stop, hG]

theorem State.good_opActive_eq {s : State} {t sq : Nat} {on : List Nat} {newS : State} {newO : Bool} (hE : State.opActive s t sq on = (newS, newO)) (hG : s.Good Q R) : newS.Good Q R := by
  have hK := @State.good_opActive Q R s t sq on hG
  rwa [hE] at hK

theorem State.good_opVec {s : State} (t sq : Nat) (op : VecOp) (dst a b c : Nat) (hG : s.Good Q R) : (State.opVec s t sq op dst a b c).1.Good Q R := by
  unfold State.opVec
  repeat' split
  all_goals simp only [State.good_onDev, State.stop, State.good_issued, hG]

theorem State.good_opVec_eq {s : State} {t sq : Nat} {op : VecOp} {dst a b c : Nat} {newS : State} {newO : Bool} (hE : State.opVec s t sq op dst a b c = (newS, newO)) (hG : s.Good Q R) : newS.Good Q R := by
  have hK := @State.good_opVec Q R s t sq op dst a b c hG
  rwa [hE] at hK

theorem State.good_opVecImm {s : State} (t sq dst : Nat) (v : W32) (hG : s.Good Q R) : (State.opVecImm s t sq dst v).1.Good Q R := by
  unfold State.opVecImm
  repeat' split
  all_goals simp only [State.good_onDev, State.stop, State.good_issued, hG]

theorem State.good_opVecImm_eq {s : State} {t sq dst : Nat} {v : W32} {newS : State} {newO : Bool} (hE : State.opVecImm s t sq dst v = (newS, newO)) (hG : s.Good Q R) : newS.Good Q R := by
  have hK := @State.good_opVecImm Q R s t sq dst v hG
  rwa [hE] at hK

theorem State.good_opScan {s : State} (t sq dst a b carry : Nat) (prod : Option Nat) (hG : s.Good Q R) : (State.opScan s t sq dst a b carry prod).1.Good Q R := by
  unfold State.opScan
  repeat' split
  all_goals simp only [State.good_onDev, State.stop, State.good_issued, hG]

theorem State.good_opScan_eq {s : State} {t sq dst a b carry : Nat} {prod : Option Nat} {newS : State} {newO : Bool} (hE : State.opScan s t sq dst a b carry prod = (newS, newO)) (hG : s.Good Q R) : newS.Good Q R := by
  have hK := @State.good_opScan Q R s t sq dst a b carry prod hG
  rwa [hE] at hK

theorem State.good_opVload {s : State} (id t sq dst a : Nat) (m : VecMem) (size : Nat) (wide : Bool) (hG : s.Good Q R) : (State.opVload s id t sq dst a m size wide).1.Good Q R := by
  unfold State.opVload
  repeat' first
    | with_reducible assumption
    | intro _
    | with_reducible refine (State.good_onDev _).2 ?_
    | with_reducible apply State.good_forAll
    | simp only [State.stop]
    | with_reducible apply State.good_accessFault
    | with_reducible apply State.good_issued
    | with_reducible refine State.good_issued_eq (by assumption) ?_
    | with_reducible refine State.good_ite ?_ ?_
    | with_reducible refine State.good_ite_fst ?_ ?_
    | with_reducible refine State.good_ite_snd ?_ ?_
    | with_reducible refine State.good_afterRead ?_ ?_ ?_
    | split
    | dsimp only

theorem State.good_opVload_eq {s : State} {id t sq dst a : Nat} {m : VecMem} {size : Nat} {wide : Bool} {newS : State} {newO : Bool} (hE : State.opVload s id t sq dst a m size wide = (newS, newO)) (hG : s.Good Q R) : newS.Good Q R := by
  have hK := @State.good_opVload Q R s id t sq dst a m size wide hG
  rwa [hE] at hK

theorem State.good_opVstore {s : State} (id t sq src a : Nat) (m : VecMem) (size : Nat) (hG : s.Good Q R) : (State.opVstore s id t sq src a m size).1.Good Q R := by
  unfold State.opVstore
  repeat' first
    | with_reducible assumption
    | intro _
    | with_reducible apply State.good_put
    | with_reducible refine (State.good_onDev _).2 ?_
    | with_reducible apply State.good_forAll
    | simp only [State.stop]
    | with_reducible apply State.good_accessFault
    | with_reducible apply State.good_issued
    | with_reducible refine State.good_issued_eq (by assumption) ?_
    | with_reducible refine State.good_ite ?_ ?_
    | with_reducible refine State.good_ite_fst ?_ ?_
    | with_reducible refine State.good_ite_snd ?_ ?_
    | with_reducible refine State.good_afterRead ?_ ?_ ?_
    | split
    | dsimp only

theorem State.good_opVstore_eq {s : State} {id t sq src a : Nat} {m : VecMem} {size : Nat} {newS : State} {newO : Bool} (hE : State.opVstore s id t sq src a m size = (newS, newO)) (hG : s.Good Q R) : newS.Good Q R := by
  have hK := @State.good_opVstore Q R s id t sq src a m size hG
  rwa [hE] at hK

theorem State.good_gatherAll {s : State} (id t sq dst lo hi size : Nat) (c : Cmd) (ecc : Ecc) (l : List Nat) (hG : s.Good Q R) :
    (s.gatherAll id t sq dst lo hi size c ecc l).1.Good Q R := by
  induction l generalizing s ecc with
  | nil => exact State.good_issued _ hG
  | cons th rest ih =>
    unfold State.gatherAll
    extract_lets a
    have k := State.good_placeRead id t size c (.addr a) hG
    revert k
    generalize s.placeRead id t size c (.addr a) = x
    obtain ⟨b, u⟩ := x
    intro k
    cases b with
    | none => exact State.good_stop k
    | some bs =>
      have k2 := State.good_eccFound id t a ecc k
      exact State.good_ite_fst (ih _ ((State.good_onDev _).2 k2)) k2

theorem State.good_opGather {s : State} (id t sq dst lo hi size : Nat) (c : Cmd) (ecc : Ecc) (hG : s.Good Q R) :
    (s.opGather id t sq dst lo hi size c ecc).1.Good Q R := by
  unfold State.opGather
  exact State.good_ite_fst (State.good_gatherAll _ _ _ _ _ _ _ _ _ _ hG) (State.good_stop hG)

theorem State.good_opConvert {s : State} (id t : Nat) (src dst : Opnd) (n : Nat) (hG : s.Good Q R) : (State.opConvert s id t src dst n).1.Good Q R := by
  unfold State.opConvert
  repeat' first
    | with_reducible assumption
    | intro _
    | with_reducible refine (State.good_onDev _).2 ?_
    | simp only [State.stop]
    | with_reducible apply State.good_spWrite
    | with_reducible refine State.good_spWrite_eq (by assumption) ?_
    | with_reducible apply State.good_withSp
    | with_reducible refine State.good_withSp_eq (by assumption) ?_
    | with_reducible apply State.good_issued
    | with_reducible refine State.good_issued_eq (by assumption) ?_
    | with_reducible refine State.good_ite ?_ ?_
    | with_reducible refine State.good_ite_fst ?_ ?_
    | with_reducible refine State.good_ite_snd ?_ ?_
    | with_reducible refine State.good_afterRead ?_ ?_ ?_
    | split
    | dsimp only

theorem State.good_opConvert_eq {s : State} {id t : Nat} {src dst : Opnd} {n : Nat} {newS : State} {newO : Bool} (hE : State.opConvert s id t src dst n = (newS, newO)) (hG : s.Good Q R) : newS.Good Q R := by
  have hK := @State.good_opConvert Q R s id t src dst n hG
  rwa [hE] at hK

theorem State.good_opStore {s : State} (id t : Nat) (src : StoreSrc) (n conv : Nat) (dst : Place) (scale : Option Place) (c : Cmd) (hG : s.Good Q R) : (State.opStore s id t src n conv dst scale c).1.Good Q R := by
  unfold State.opStore
  repeat' first
    | with_reducible assumption
    | intro _
    | with_reducible refine (State.good_onDev _).2 ?_
    | simp only [State.stop]
    | with_reducible apply State.good_withSp
    | with_reducible refine State.good_withSp_eq (by assumption) ?_
    | with_reducible apply State.good_placeWrite
    | with_reducible refine State.good_placeWrite_eq (by assumption) ?_
    | with_reducible refine State.good_ite ?_ ?_
    | with_reducible refine State.good_ite_fst ?_ ?_
    | with_reducible refine State.good_ite_snd ?_ ?_
    | with_reducible refine State.good_afterRead ?_ ?_ ?_
    | split
    | dsimp only

theorem State.good_opStore_eq {s : State} {id t : Nat} {src : StoreSrc} {n conv : Nat} {dst : Place} {scale : Option Place} {c : Cmd} {newS : State} {newO : Bool} (hE : State.opStore s id t src n conv dst scale c = (newS, newO)) (hG : s.Good Q R) : newS.Good Q R := by
  have hK := @State.good_opStore Q R s id t src n conv dst scale c hG
  rwa [hE] at hK

theorem State.good_opAppend {s : State} (id n tokens : Nat) (c : Cmd) (hG : s.Good Q R) : (State.opAppend s id n tokens c).1.Good Q R := by
  unfold State.opAppend
  repeat' split
  all_goals simp only [State.good_onDev, State.good_kvCopyTail, State.good_ownFault, State.go, State.stop, hG]

theorem State.good_opAppend_eq {s : State} {id n tokens : Nat} {c : Cmd} {newS : State} {newO : Bool} (hE : State.opAppend s id n tokens c = (newS, newO)) (hG : s.Good Q R) : newS.Good Q R := by
  have hK := @State.good_opAppend Q R s id n tokens c hG
  rwa [hE] at hK

/-! ### Machine/Layers.lean -/

theorem State.good_opPool {s : State} (id t : Nat) (mode : PoolMode) (conv : Nat) (elems : List (Nat × Nat × Nat)) (count dst : Nat) (hG : s.Good Q R) : (State.opPool s id t mode conv elems count dst).1.Good Q R := by
  unfold State.opPool
  repeat' first
    | with_reducible assumption
    | intro _
    | with_reducible refine (State.good_onDev _).2 ?_
    | simp only [State.stop]
    | with_reducible apply State.good_spWrite
    | with_reducible refine State.good_spWrite_eq (by assumption) ?_
    | with_reducible apply State.good_withSp
    | with_reducible refine State.good_withSp_eq (by assumption) ?_
    | with_reducible refine State.good_ite ?_ ?_
    | with_reducible refine State.good_ite_fst ?_ ?_
    | with_reducible refine State.good_ite_snd ?_ ?_
    | with_reducible refine State.good_afterRead ?_ ?_ ?_
    | split
    | dsimp only

theorem State.good_opPool_eq {s : State} {id t : Nat} {mode : PoolMode} {conv : Nat} {elems : List (Nat × Nat × Nat)} {count dst : Nat} {newS : State} {newO : Bool} (hE : State.opPool s id t mode conv elems count dst = (newS, newO)) (hG : s.Good Q R) : newS.Good Q R := by
  have hK := @State.good_opPool Q R s id t mode conv elems count dst hG
  rwa [hE] at hK

theorem State.good_opTaps {s : State} (id t : Nat) (xs : List (Nat × Nat)) (bias dst : Nat) (hG : s.Good Q R) : (State.opTaps s id t xs bias dst).1.Good Q R := by
  unfold State.opTaps
  repeat' first
    | with_reducible assumption
    | intro _
    | with_reducible apply State.good_spWrite
    | with_reducible refine State.good_spWrite_eq (by assumption) ?_
    | with_reducible apply State.good_withSp
    | with_reducible refine State.good_withSp_eq (by assumption) ?_
    | with_reducible apply State.good_foldl
    | with_reducible refine State.good_ite ?_ ?_
    | with_reducible refine State.good_ite_fst ?_ ?_
    | with_reducible refine State.good_ite_snd ?_ ?_
    | with_reducible refine State.good_afterRead ?_ ?_ ?_
    | split
    | dsimp only

theorem State.good_opTaps_eq {s : State} {id t : Nat} {xs : List (Nat × Nat)} {bias dst : Nat} {newS : State} {newO : Bool} (hE : State.opTaps s id t xs bias dst = (newS, newO)) (hG : s.Good Q R) : newS.Good Q R := by
  have hK := @State.good_opTaps Q R s id t xs bias dst hG
  rwa [hE] at hK

theorem State.good_opNorm {s : State} (id t : Nat) (rms : Bool) (x gamma beta n : Nat) (eps : W32) (dst : Nat) (hG : s.Good Q R) : (State.opNorm s id t rms x gamma beta n eps dst).1.Good Q R := by
  unfold State.opNorm
  repeat' first
    | with_reducible assumption
    | intro _
    | with_reducible refine (State.good_onDev _).2 ?_
    | with_reducible apply State.good_spWrite
    | with_reducible refine State.good_spWrite_eq (by assumption) ?_
    | with_reducible apply State.good_withSp
    | with_reducible refine State.good_withSp_eq (by assumption) ?_
    | with_reducible apply State.good_foldl
    | with_reducible refine State.good_ite ?_ ?_
    | with_reducible refine State.good_ite_fst ?_ ?_
    | with_reducible refine State.good_ite_snd ?_ ?_
    | with_reducible refine State.good_afterRead ?_ ?_ ?_
    | split
    | dsimp only

theorem State.good_opNorm_eq {s : State} {id t : Nat} {rms : Bool} {x gamma beta n : Nat} {eps : W32} {dst : Nat} {newS : State} {newO : Bool} (hE : State.opNorm s id t rms x gamma beta n eps dst = (newS, newO)) (hG : s.Good Q R) : newS.Good Q R := by
  have hK := @State.good_opNorm Q R s id t rms x gamma beta n eps dst hG
  rwa [hE] at hK

theorem State.good_opMerge {s : State} (id t a b dst : Nat) (hG : s.Good Q R) : (State.opMerge s id t a b dst).1.Good Q R := by
  unfold State.opMerge
  repeat' first
    | with_reducible assumption
    | intro _
    | with_reducible refine (State.good_onDev _).2 ?_
    | with_reducible apply State.good_spWrite
    | with_reducible refine State.good_spWrite_eq (by assumption) ?_
    | with_reducible apply State.good_withSp
    | with_reducible refine State.good_withSp_eq (by assumption) ?_
    | with_reducible refine State.good_ite ?_ ?_
    | with_reducible refine State.good_ite_fst ?_ ?_
    | with_reducible refine State.good_ite_snd ?_ ?_
    | with_reducible refine State.good_afterRead ?_ ?_ ?_
    | split
    | dsimp only

theorem State.good_opMerge_eq {s : State} {id t a b dst : Nat} {newS : State} {newO : Bool} (hE : State.opMerge s id t a b dst = (newS, newO)) (hG : s.Good Q R) : newS.Good Q R := by
  have hK := @State.good_opMerge Q R s id t a b dst hG
  rwa [hE] at hK

theorem State.good_opActivation {s : State} (id t : Nat) (f : Act) (x n dst : Nat) (hG : s.Good Q R) : (State.opActivation s id t f x n dst).1.Good Q R := by
  unfold State.opActivation
  repeat' first
    | with_reducible assumption
    | intro _
    | with_reducible refine (State.good_onDev _).2 ?_
    | with_reducible apply State.good_spWrite
    | with_reducible refine State.good_spWrite_eq (by assumption) ?_
    | with_reducible apply State.good_withSp
    | with_reducible refine State.good_withSp_eq (by assumption) ?_
    | with_reducible apply State.good_foldl
    | with_reducible refine State.good_ite ?_ ?_
    | with_reducible refine State.good_ite_fst ?_ ?_
    | with_reducible refine State.good_ite_snd ?_ ?_
    | with_reducible refine State.good_afterRead ?_ ?_ ?_
    | split
    | dsimp only

theorem State.good_opActivation_eq {s : State} {id t : Nat} {f : Act} {x n dst : Nat} {newS : State} {newO : Bool} (hE : State.opActivation s id t f x n dst = (newS, newO)) (hG : s.Good Q R) : newS.Good Q R := by
  have hK := @State.good_opActivation Q R s id t f x n dst hG
  rwa [hE] at hK

theorem State.good_writeChoices {s : State} (id : Nat) (l : MoeLayer) (homes : List (Nat × Nat × Nat × Nat)) (cs : List Choice) (hG : s.Good Q R) :
    (s.writeChoices id l homes cs).1.Good Q R := by
  induction cs generalizing s with
  | nil => exact State.good_go hG
  | cons c rest ih =>
    unfold State.writeChoices
    generalize homes[c.home]? = o
    cases o with
    | none => exact ih hG
    | some x => exact State.good_ite_fst (ih (State.good_spWrite _ _ _ _ hG)) (State.good_spWrite _ _ _ _ hG)

theorem State.good_opRoute {s : State} (id ly : Nat) (homes : List (Nat × Nat × Nat × Nat)) (stats : Place) (c : Cmd) (hG : s.Good Q R) : (State.opRoute s id ly homes stats c).1.Good Q R := by
  unfold State.opRoute
  extract_lets hs
  generalize (s.dev.cmdCode c).moe[ly]? = o
  cases o with
  | none => exact State.good_stop hG
  | some l =>
    refine State.good_ite_fst (State.good_stop hG) ?_
    generalize homes.find? _ = h
    generalize s.logits l homes = ls
    cases h with
    | some h => exact State.good_stop (State.good_accessFault _ _ _ hG)
    | none =>
      cases ls with
      | none => exact State.good_stop hG
      | some ls =>
        have k := fun (f : Dev → Dev) cs => State.good_writeChoices id l homes cs ((State.good_onDev f).2 hG)
        exact State.good_ite_fst (State.good_placeWrite _ _ _ _ _ (k _ _)) (k _ _)

theorem State.good_opRoute_eq {s : State} {id ly : Nat} {homes : List (Nat × Nat × Nat × Nat)} {stats : Place} {c : Cmd} {newS : State} {newO : Bool} (hE : State.opRoute s id ly homes stats c = (newS, newO)) (hG : s.Good Q R) : newS.Good Q R := by
  have hK := @State.good_opRoute Q R s id ly homes stats c hG
  rwa [hE] at hK

theorem State.good_opExpertRows {s : State} (id ly e u : Nat) (srcs : List Nat) (n dst : Nat) (c : Cmd) (hG : s.Good Q R) : (State.opExpertRows s id ly e u srcs n dst c).1.Good Q R := by
  unfold State.opExpertRows
  generalize (s.dev.cmdCode c).moe[ly]? = o
  generalize KMap.find c.moe (c.keyOf u ly) = q
  cases o <;> cases q
  iterate 3 exact State.good_stop hG
  dsimp -zeta only
  extract_lets ps src
  refine State.good_ite_fst (State.good_stop hG) ?_
  generalize ps.find? _ = x
  cases x with
  | some x => exact State.good_stop (State.good_accessFault _ _ _ hG)
  | none =>
    dsimp only
    generalize ps.find? _ = x
    cases x with
    | some x => exact State.good_stop (State.good_accessFault _ _ _ hG)
    | none =>
      have k := fun b => State.good_spWrite id u dst b hG
      exact State.good_ite_fst (State.good_go ((State.good_onDev _).2 (k _))) (k _)

theorem State.good_opExpertRows_eq {s : State} {id ly e u : Nat} {srcs : List Nat} {n dst : Nat} {c : Cmd} {newS : State} {newO : Bool} (hE : State.opExpertRows s id ly e u srcs n dst c = (newS, newO)) (hG : s.Good Q R) : newS.Good Q R := by
  have hK := @State.good_opExpertRows Q R s id ly e u srcs n dst c hG
  rwa [hE] at hK

theorem State.good_opExpertOut {s : State} (id ly e u src n : Nat) (dsts : List Nat) (c : Cmd) (hG : s.Good Q R) : (State.opExpertOut s id ly e u src n dsts c).1.Good Q R := by
  unfold State.opExpertOut
  generalize (s.dev.cmdCode c).moe[ly]? = o
  generalize KMap.find c.moe (c.keyOf u ly) = q
  cases o <;> cases q
  iterate 3 exact State.good_stop hG
  dsimp -zeta only
  extract_lets ps dst
  refine State.good_ite_fst (State.good_stop hG) (State.good_ite_fst (State.good_stop (State.good_accessFault _ _ _ hG)) ?_)
  generalize ps.find? _ = x
  cases x with
  | some x => exact State.good_stop (State.good_accessFault _ _ _ hG)
  | none => exact State.good_go ((State.good_onDev _).2 (State.good_forAll _ _ (fun _ _ h => State.good_put _ _ h) hG))

theorem State.good_opExpertOut_eq {s : State} {id ly e u src n : Nat} {dsts : List Nat} {c : Cmd} {newS : State} {newO : Bool} (hE : State.opExpertOut s id ly e u src n dsts c = (newS, newO)) (hG : s.Good Q R) : newS.Good Q R := by
  have hK := @State.good_opExpertOut Q R s id ly e u src n dsts c hG
  rwa [hE] at hK

theorem State.good_opCombine {s : State} (id t ly n outs residual dst : Nat) (c : Cmd) (hG : s.Good Q R) : (State.opCombine s id t ly n outs residual dst c).1.Good Q R := by
  unfold State.opCombine
  repeat' first
    | with_reducible assumption
    | intro _
    | with_reducible refine (State.good_onDev _).2 ?_
    | simp only [State.stop]
    | with_reducible apply State.good_spWrite
    | with_reducible refine State.good_spWrite_eq (by assumption) ?_
    | with_reducible apply State.good_withSp
    | with_reducible refine State.good_withSp_eq (by assumption) ?_
    | with_reducible apply State.good_foldl
    | with_reducible refine State.good_ite ?_ ?_
    | with_reducible refine State.good_ite_fst ?_ ?_
    | with_reducible refine State.good_ite_snd ?_ ?_
    | with_reducible refine State.good_afterRead ?_ ?_ ?_
    | split
    | dsimp only

theorem State.good_opCombine_eq {s : State} {id t ly n outs residual dst : Nat} {c : Cmd} {newS : State} {newO : Bool} (hE : State.opCombine s id t ly n outs residual dst c = (newS, newO)) (hG : s.Good Q R) : newS.Good Q R := by
  have hK := @State.good_opCombine Q R s id t ly n outs residual dst c hG
  rwa [hE] at hK

/-! ### Machine/RunPlan.lean -/

theorem State.good_onTileCmd {s : State} (id t : Nat) (f : Run) (hG : s.Good Q R) (hf : f.1.Good Q R) : (s.onTileCmd id t f).1.Good Q R := by
  unfold State.onTileCmd
  exact State.good_ite_fst hf (State.good_stop hG)

theorem State.good_opEccTile {s : State} (id t : Nat) (fatal : Bool) (hG : s.Good Q R) : (State.opEccTile s id t fatal).1.Good Q R := by
  unfold State.opEccTile
  repeat' split
  all_goals simp only [State.good_onDev, State.good_ownFault, State.go, State.stop, hG]

theorem State.good_opEccTile_eq {s : State} {id t : Nat} {fatal : Bool} {newS : State} {newO : Bool} (hE : State.opEccTile s id t fatal = (newS, newO)) (hG : s.Good Q R) : newS.Good Q R := by
  have hK := @State.good_opEccTile Q R s id t fatal hG
  rwa [hE] at hK

theorem State.good_opEccScratch {s : State} (id t off : Nat) (e : Ecc) (hG : s.Good Q R) : (State.opEccScratch s id t off e).1.Good Q R := by
  unfold State.opEccScratch
  repeat' split
  all_goals simp only [State.stop, State.good_eccFound, hG]

theorem State.good_opEccScratch_eq {s : State} {id t off : Nat} {e : Ecc} {newS : State} {newO : Bool} (hE : State.opEccScratch s id t off e = (newS, newO)) (hG : s.Good Q R) : newS.Good Q R := by
  have hK := @State.good_opEccScratch Q R s id t off e hG
  rwa [hE] at hK

theorem State.good_opRetransmit {s : State} (t n : Nat) (hG : s.Good Q R) : (State.opRetransmit s t n).1.Good Q R := by
  unfold State.opRetransmit
  simp only [State.good_onDev, State.go, hG]

theorem State.good_opRetransmit_eq {s : State} {t n : Nat} {newS : State} {newO : Bool} (hE : State.opRetransmit s t n = (newS, newO)) (hG : s.Good Q R) : newS.Good Q R := by
  have hK := @State.good_opRetransmit Q R s t n hG
  rwa [hE] at hK

theorem State.good_opCycles {s : State} (t busy wait : Nat) (hG : s.Good Q R) : (State.opCycles s t busy wait).1.Good Q R := by
  unfold State.opCycles
  simp only [State.good_onDev, State.go, hG]

theorem State.good_opCycles_eq {s : State} {t busy wait : Nat} {newS : State} {newO : Bool} (hE : State.opCycles s t busy wait = (newS, newO)) (hG : s.Good Q R) : newS.Good Q R := by
  have hK := @State.good_opCycles Q R s t busy wait hG
  rwa [hE] at hK

theorem State.good_opDone {s : State} (id : Nat) (c : Cmd) (b : Bool) (hG : s.Good Q R) : (State.opDone s id c b).1.Good Q R := by
  unfold State.opDone
  repeat' split
  all_goals simp only [State.good_onDev, State.go, State.stop, hG]

theorem State.good_opDone_eq {s : State} {id : Nat} {c : Cmd} {b : Bool} {newS : State} {newO : Bool} (hE : State.opDone s id c b = (newS, newO)) (hG : s.Good Q R) : newS.Good Q R := by
  have hK := @State.good_opDone Q R s id c b hG
  rwa [hE] at hK

theorem State.good_planOp {s : State} (id : Nat) (c : Cmd) (o : PlanOp) (hG : s.Good Q R) : (State.planOp s id c o).1.Good Q R := by
  unfold State.planOp
  have T := fun (t : Nat) (f : Run) (h : f.1.Good Q R) => State.good_onTileCmd id t f hG h
  cases o with
  | wait => exact State.good_ite_fst (State.good_go hG) (State.good_stop hG)
  | token => exact State.good_ite_fst (State.good_go ((State.good_onDev _).2 hG)) (State.good_stop hG)
  | append => exact State.good_opAppend _ _ _ _ hG
  | route => exact State.good_opRoute (hG := hG) ..
  | launch => exact State.good_opLaunch (hG := hG) ..
  | done => exact State.good_opDone _ _ _ hG
  | block => exact T _ _ (State.good_opBlock (hG := hG) ..)
  | reads => exact T _ _ (State.good_opReads (hG := hG) ..)
  | arrive => exact T _ _ (State.good_opArrive (hG := hG) ..)
  | release => exact T _ _ (State.good_opRelease (hG := hG) ..)
  | matClear => exact T _ _ (State.good_opMatClear (hG := hG) ..)
  | matStep => exact T _ _ (State.good_opMatStep (hG := hG) ..)
  | attStart => exact T _ _ (State.good_opAttStart (hG := hG) ..)
  | attBlock => exact T _ _ (State.good_opAttBlock (hG := hG) ..)
  | attEnd => exact T _ _ (State.good_opAttEnd (hG := hG) ..)
  | group => exact T _ _ (State.good_opGroup (hG := hG) ..)
  | groupEnd => exact T _ _ (State.good_opGroupEnd (hG := hG) ..)
  | barrier => exact T _ _ (State.good_opBarrier (hG := hG) ..)
  | active => exact T _ _ (State.good_opActive (hG := hG) ..)
  | vec => exact T _ _ (State.good_opVec (hG := hG) ..)
  | vecImm => exact T _ _ (State.good_opVecImm (hG := hG) ..)
  | scan => exact T _ _ (State.good_opScan (hG := hG) ..)
  | vload => exact T _ _ (State.good_opVload (hG := hG) ..)
  | vstore => exact T _ _ (State.good_opVstore (hG := hG) ..)
  | gather => exact T _ _ (State.good_opGather (hG := hG) ..)
  | convert => exact T _ _ (State.good_opConvert (hG := hG) ..)
  | store => exact T _ _ (State.good_opStore (hG := hG) ..)
  | index => exact T _ _ (State.good_opIndex (hG := hG) ..)
  | tileWrite => exact T _ _ (State.good_opTileWrite (hG := hG) ..)
  | scout => exact T _ _ (State.good_opScout (hG := hG) ..)
  | pool => exact T _ _ (State.good_opPool (hG := hG) ..)
  | taps => exact T _ _ (State.good_opTaps (hG := hG) ..)
  | norm => exact T _ _ (State.good_opNorm (hG := hG) ..)
  | merge => exact T _ _ (State.good_opMerge (hG := hG) ..)
  | activation => exact T _ _ (State.good_opActivation (hG := hG) ..)
  | expertRows => exact T _ _ (State.good_opExpertRows (hG := hG) ..)
  | expertOut => exact T _ _ (State.good_opExpertOut (hG := hG) ..)
  | combine => exact T _ _ (State.good_opCombine (hG := hG) ..)
  | cycles => exact T _ _ (State.good_opCycles (hG := hG) ..)
  | eccTile => exact T _ _ (State.good_opEccTile (hG := hG) ..)
  | eccScratch => exact T _ _ (State.good_opEccScratch (hG := hG) ..)
  | retransmit => exact T _ _ (State.good_opRetransmit (hG := hG) ..)

theorem State.good_planOp_eq {s : State} {id : Nat} {c : Cmd} {o : PlanOp} {newS : State} {newO : Bool} (hE : State.planOp s id c o = (newS, newO)) (hG : s.Good Q R) : newS.Good Q R := by
  have hK := @State.good_planOp Q R s id c o hG
  rwa [hE] at hK

theorem State.good_planOps {s : State} (id : Nat) (l : List PlanOp) (hG : s.Good Q R) : (s.planOps id l).Good Q R := by
  induction l generalizing s with
  | nil => exact hG
  | cons o rest ih =>
    unfold State.planOps
    generalize s.dev.cmd id = c
    cases c with
    | none => exact hG
    | some c => exact State.good_ite (ih (State.good_planOp _ _ _ hG)) (State.good_planOp _ _ _ hG)

theorem keeps_execRunPlan {s : State} (id : Nat) (ops : List PlanOp) (hG : s.Good Q R) : Keeps (execRunPlan id ops s) (State.Good Q R) := by
  unfold execRunPlan
  refine keeps_next ?_
  generalize s.dev.cmd id = c
  cases c with
  | none => exact hG
  | some c => exact State.good_ite (State.good_planOps _ _ hG) hG

/-! ### Machine/Draw.lean -/

theorem State.good_withGfx {s : State} (id x t : Nat) (w : DrawSt) (f : Run) (hG : s.Good Q R) (hf : f.1.Good Q R) :
    (s.withGfx id x t w f).1.Good Q R := by
  unfold State.withGfx
  exact State.good_ite_fst hf (State.good_stop (State.good_accessFault _ _ _ hG))

theorem State.good_readInits {s : State} (c : Cmd) (l : List Byte) (n : Nat) (hG : s.Good Q R) : (s.readInits c l n).2.Good Q R := by
  induction n with
  | zero => exact hG
  | succ t ih =>
    unfold State.readInits
    revert ih
    generalize s.readInits c l t = x
    obtain ⟨o, u⟩ := x
    intro k
    cases o with
    | none => exact k
    | some r =>
      refine State.good_ite_snd ?_ k
      have k2 := State.good_readAs (.qe c.inst) ((c.portArg (0x10 + t)).elim 0 (fun a => a.addr)) (tgtBytes l t) k
      revert k2
      dsimp only
      generalize u.readAs (.qe c.inst) ((c.portArg (0x10 + t)).elim 0 (fun a => a.addr)) (tgtBytes l t) = y
      obtain ⟨o, v⟩ := y
      intro k2
      cases o <;> exact k2

theorem State.good_scrubCtx {s : State} (i x : Nat) (hG : s.Good Q R) : (State.scrubCtx s i x).Good Q R := by
  unfold State.scrubCtx
  repeat' first
    | with_reducible assumption
    | intro _
    | with_reducible refine (State.good_onDev _).2 ?_
    | with_reducible apply State.good_forAll
    | with_reducible apply State.good_scrub
    | with_reducible refine State.good_ite ?_ ?_
    | with_reducible refine State.good_ite_fst ?_ ?_
    | with_reducible refine State.good_ite_snd ?_ ?_
    | with_reducible refine State.good_afterRead ?_ ?_ ?_
    | split
    | dsimp only

theorem State.good_beginDraw {s : State} (id : Nat) (c : Cmd) (l : List Byte) (ow : List Nat) (hG : s.Good Q R) : (s.beginDraw id c l ow).Good Q R := by
  unfold State.beginDraw
  extract_lets x
  have k := State.good_readInits c l (tgtCount l) (State.good_scrubCtx c.inst x hG)
  revert k
  generalize (s.scrubCtx c.inst x).readInits c l (tgtCount l) = y
  obtain ⟨o, t⟩ := y
  intro k
  cases o with
  | none => exact State.good_admitAll (State.good_finish _ _ _ k)
  | some ini => exact (State.good_onDev _).2 k

theorem State.good_startDraw {s : State} (id : Nat) (c : Cmd) (hG : s.Good Q R) : (s.startDraw id c).Good Q R := by
  unfold State.startDraw
  extract_lets x
  refine State.good_ite hG ?_
  have k := State.good_readAs (.qe c.inst) (c.at 0x10 8) (c.at 0x18 4) hG
  revert k
  generalize s.readAs (.qe c.inst) (c.at 0x10 8) (c.at 0x18 4) = y
  obtain ⟨o, t⟩ := y
  intro k
  cases o with
  | none => exact State.good_admitAll (State.good_finish _ _ _ k)
  | some l =>
    dsimp only
    generalize t.dev.drawChecks c l = r
    cases r with
    | error e => exact State.good_admitAll (State.good_finish _ _ _ ((State.good_onDev _).2 k))
    | ok ow => exact State.good_beginDraw _ _ _ _ k

theorem State.good_drawBatch {s : State} (id x vertices varyings : Nat) (w : DrawSt) (hG : s.Good Q R) : (State.drawBatch s id x vertices varyings w).1.Good Q R := by
  unfold State.drawBatch
  repeat' first
    | with_reducible assumption
    | intro _
    | with_reducible refine (State.good_onDev _).2 ?_
    | simp only [State.go]
    | simp only [State.stop]
    | with_reducible refine State.good_ite ?_ ?_
    | with_reducible refine State.good_ite_fst ?_ ?_
    | with_reducible refine State.good_ite_snd ?_ ?_
    | with_reducible refine State.good_afterRead ?_ ?_ ?_
    | split
    | dsimp only

theorem State.good_drawBatch_eq {s : State} {id x vertices varyings : Nat} {w : DrawSt} {newS : State} {newO : Bool} (hE : State.drawBatch s id x vertices varyings w = (newS, newO)) (hG : s.Good Q R) : newS.Good Q R := by
  have hK := @State.good_drawBatch Q R s id x vertices varyings w hG
  rwa [hE] at hK

theorem State.good_drawPrim {s : State} (id x : Nat) (pts : List (Int × Int)) (cov : List Nat) (w : DrawSt) (hG : s.Good Q R) : (State.drawPrim s id x pts cov w).1.Good Q R := by
  unfold State.drawPrim
  repeat' first
    | with_reducible assumption
    | intro _
    | with_reducible refine (State.good_onDev _).2 ?_
    | simp only [State.go]
    | simp only [State.stop]
    | with_reducible apply State.good_foldl
    | with_reducible refine State.good_ite ?_ ?_
    | with_reducible refine State.good_ite_fst ?_ ?_
    | with_reducible refine State.good_ite_snd ?_ ?_
    | with_reducible refine State.good_afterRead ?_ ?_ ?_
    | split
    | dsimp only

theorem State.good_drawPrim_eq {s : State} {id x : Nat} {pts : List (Int × Int)} {cov : List Nat} {w : DrawSt} {newS : State} {newO : Bool} (hE : State.drawPrim s id x pts cov w = (newS, newO)) (hG : s.Good Q R) : newS.Good Q R := by
  have hK := @State.good_drawPrim Q R s id x pts cov w hG
  rwa [hE] at hK

theorem State.good_drawNext {s : State} (id x : Nat) (w : DrawSt) (hG : s.Good Q R) : (State.drawNext s id x w).1.Good Q R := by
  unfold State.drawNext
  repeat' split
  all_goals simp only [State.good_onDev, State.go, State.stop, hG]

theorem State.good_drawNext_eq {s : State} {id x : Nat} {w : DrawSt} {newS : State} {newO : Bool} (hE : State.drawNext s id x w = (newS, newO)) (hG : s.Good Q R) : newS.Good Q R := by
  have hK := @State.good_drawNext Q R s id x w hG
  rwa [hE] at hK

theorem State.good_drawJob {s : State} (id x st : Nat) (w : DrawSt) (hG : s.Good Q R) : (State.drawJob s id x st w).1.Good Q R := by
  unfold State.drawJob
  repeat' first
    | with_reducible assumption
    | intro _
    | with_reducible apply State.good_put
    | with_reducible refine (State.good_onDev _).2 ?_
    | simp only [State.go]
    | simp only [State.stop]
    | with_reducible refine State.good_ite ?_ ?_
    | with_reducible refine State.good_ite_fst ?_ ?_
    | with_reducible refine State.good_ite_snd ?_ ?_
    | with_reducible refine State.good_afterRead ?_ ?_ ?_
    | split
    | dsimp only

theorem State.good_drawJob_eq {s : State} {id x st : Nat} {w : DrawSt} {newS : State} {newO : Bool} (hE : State.drawJob s id x st w = (newS, newO)) (hG : s.Good Q R) : newS.Good Q R := by
  have hK := @State.good_drawJob Q R s id x st w hG
  rwa [hE] at hK

theorem State.good_drawShade {s : State} (id x st : Nat) (frags : List Frag) (w : DrawSt) (hG : s.Good Q R) : (State.drawShade s id x st frags w).1.Good Q R := by
  unfold State.drawShade
  repeat' split
  all_goals simp only [State.good_onDev, State.go, State.stop, hG]

theorem State.good_drawShade_eq {s : State} {id x st : Nat} {frags : List Frag} {w : DrawSt} {newS : State} {newO : Bool} (hE : State.drawShade s id x st frags w = (newS, newO)) (hG : s.Good Q R) : newS.Good Q R := by
  have hK := @State.good_drawShade Q R s id x st frags w hG
  rwa [hE] at hK

theorem State.good_drawYield {s : State} (id x st : Nat) (late : Bool) (w : DrawSt) (hG : s.Good Q R) : (State.drawYield s id x st late w).1.Good Q R := by
  unfold State.drawYield
  repeat' split
  all_goals simp only [State.good_onDev, State.go, State.stop, hG]

theorem State.good_drawYield_eq {s : State} {id x st : Nat} {late : Bool} {w : DrawSt} {newS : State} {newO : Bool} (hE : State.drawYield s id x st late w = (newS, newO)) (hG : s.Good Q R) : newS.Good Q R := by
  have hK := @State.good_drawYield Q R s id x st late w hG
  rwa [hE] at hK

theorem State.good_drawPartial {s : State} (id x : Nat) (w : DrawSt) (hG : s.Good Q R) : (State.drawPartial s id x w).1.Good Q R := by
  unfold State.drawPartial
  repeat' split
  all_goals simp only [State.good_onDev, State.go, State.stop, hG]

theorem State.good_drawPartial_eq {s : State} {id x : Nat} {w : DrawSt} {newS : State} {newO : Bool} (hE : State.drawPartial s id x w = (newS, newO)) (hG : s.Good Q R) : newS.Good Q R := by
  have hK := @State.good_drawPartial Q R s id x w hG
  rwa [hE] at hK

theorem State.good_storeRows {s : State} (id t st : Nat) (surf : Surface) (w : DrawSt) (l : List Nat) (hG : s.Good Q R) :
    (s.storeRows id t st surf w l).1.Good Q R := by
  induction l generalizing s with
  | nil => exact State.good_go hG
  | cons dy rest ih =>
    unfold State.storeRows
    extract_lets y a
    have k := State.good_storeAs (.tile (w.owner.getD st 64)) a (w.rowBytes t st dy s.dev.fresh) hG
    revert k
    generalize s.storeAs (.tile (w.owner.getD st 64)) a (w.rowBytes t st dy s.dev.fresh) = x
    obtain ⟨b, u⟩ := x
    intro k
    cases b
    · exact State.good_stop (State.good_accessFault _ _ _ k)
    · exact ih ((State.good_onDev _).2 k)

theorem State.good_storeTargets {s : State} (id st : Nat) (c : Cmd) (w : DrawSt) (n : Nat) (hG : s.Good Q R) :
    (s.storeTargets id st c w n).1.Good Q R := by
  induction n with
  | zero => exact State.good_go hG
  | succ t ih =>
    unfold State.storeTargets
    revert ih
    generalize s.storeTargets id st c w t = r
    intro ih
    dsimp only
    generalize c.target w.list t = o
    obtain ⟨u, b⟩ := r
    cases b
    · exact ih
    · cases o with
      | none => exact ih
      | some surf => exact State.good_storeRows _ _ _ _ _ _ ih

theorem State.good_drawStore {s : State} (id x st : Nat) (c : Cmd) (w : DrawSt) (hG : s.Good Q R) : (s.drawStore id x st c w).1.Good Q R := by
  unfold State.drawStore
  have k := State.good_storeTargets id st c w (tgtCount w.list) hG
  exact State.good_ite_fst (State.good_ite_fst (State.good_go ((State.good_onDev _).2 k)) k) (State.good_stop hG)

theorem State.good_drawOp {s : State} (id : Nat) (c : Cmd) (o : DrawOp) (hG : s.Good Q R) : (State.drawOp s id c o).1.Good Q R := by
  unfold State.drawOp
  extract_lets x w
  cases o with
  | batch => exact State.good_drawBatch (hG := hG) ..
  | prim => exact State.good_drawPrim (hG := hG) ..
  | drawDone => exact State.good_drawNext (hG := hG) ..
  | job => exact State.good_drawJob (hG := hG) ..
  | shade => exact State.good_withGfx _ _ _ _ _ hG (State.good_drawShade (hG := hG) ..)
  | yield => exact State.good_drawYield (hG := hG) ..
  | partialDone => exact State.good_drawPartial (hG := hG) ..
  | store => exact State.good_withGfx _ _ _ _ _ hG (State.good_drawStore (hG := hG) ..)
  | eccInput a e => exact State.good_ite_fst (State.good_stop (State.good_inputEnd _ _ ((State.good_onDev _).2 hG))) (State.good_go ((State.good_onDev _).2 hG))
  | eccScratch => exact State.good_opEccScratch (hG := hG) ..
  | eccTile => exact State.good_onTileCmd _ _ _ hG (State.good_opEccTile (hG := hG) ..)
  | cycles => exact State.good_onTileCmd _ _ _ hG (State.good_opCycles (hG := hG) ..)
  | retransmit => exact State.good_onTileCmd _ _ _ hG (State.good_opRetransmit (hG := hG) ..)

theorem State.good_drawOp_eq {s : State} {id : Nat} {c : Cmd} {o : DrawOp} {newS : State} {newO : Bool} (hE : State.drawOp s id c o = (newS, newO)) (hG : s.Good Q R) : newS.Good Q R := by
  have hK := @State.good_drawOp Q R s id c o hG
  rwa [hE] at hK

theorem State.good_drawOps {s : State} (id : Nat) (l : List DrawOp) (hG : s.Good Q R) : (s.drawOps id l).Good Q R := by
  induction l generalizing s with
  | nil => exact hG
  | cons o rest ih =>
    unfold State.drawOps
    generalize s.dev.cmd id = c
    cases c with
    | none => exact hG
    | some c => exact State.good_ite (State.good_ite (ih (State.good_drawOp _ _ _ hG)) (State.good_drawOp _ _ _ hG)) hG

theorem keeps_execDrawList {s : State} (id : Nat) (ops : List DrawOp) (hG : s.Good Q R) : Keeps (execDrawList id ops s) (State.Good Q R) := by
  unfold execDrawList
  refine keeps_next ?_
  generalize s.dev.cmd id = c
  cases c with
  | none => exact hG
  | some c => exact State.good_ite (State.good_drawOps _ _ hG) hG

/-! ### Machine/Flows.lean -/

theorem State.good_loadOne {s : State} (t n : Nat) (hG : s.Good Q R) : (State.loadOne s t n).Good Q R := by
  unfold State.loadOne
  repeat' first
    | with_reducible assumption
    | intro _
    | with_reducible refine (State.good_onDev _).2 ?_
    | with_reducible apply State.good_readAs
    | with_reducible refine State.good_readAs_eq (by assumption) ?_
    | with_reducible apply State.good_clampPush
    | with_reducible refine State.good_ite ?_ ?_
    | with_reducible refine State.good_ite_fst ?_ ?_
    | with_reducible refine State.good_ite_snd ?_ ?_
    | with_reducible refine State.good_afterRead ?_ ?_ ?_
    | split
    | dsimp only

theorem keeps_execLoadDone {s : State} (hG : s.Good Q R) : Keeps (execLoadDone s) (State.Good Q R) := by
  unfold execLoadDone
  repeat' first
    | with_reducible assumption
    | with_reducible refine keeps_next ?_
    | intro _
    | with_reducible refine (State.good_onDev _).2 ?_
    | with_reducible apply State.good_forAll
    | with_reducible apply State.good_loadOne
    | with_reducible refine keeps_ite ?_ ?_
    | with_reducible refine State.good_ite ?_ ?_
    | with_reducible refine State.good_ite_fst ?_ ?_
    | with_reducible refine State.good_ite_snd ?_ ?_
    | with_reducible refine State.good_afterRead ?_ ?_ ?_
    | split
    | dsimp only

theorem keeps_execFlowCounterWrite {s : State} (f : Nat) (hG : s.Good Q R) : Keeps (execFlowCounterWrite f s) (State.Good Q R) := by
  unfold execFlowCounterWrite
  repeat' split
  all_goals simp only [State.good_onDev, State.good_storeAs, keeps_next, hG]

theorem keeps_execRecoveryReset {s : State} (f : Nat) (hG : s.Good Q R) : Keeps (execRecoveryReset f s) (State.Good Q R) := by
  unfold execRecoveryReset
  simp only [State.good_onDev, keeps_next, hG]

theorem keeps_execTxtsPop {s : State} (m : Master) (p value : Nat) (hG : s.Good Q R) : Keeps (execTxtsPop m p value s) (State.Good Q R) := by
  unfold execTxtsPop
  simp only [State.good_onDev, keeps_next, hG]

theorem State.good_rxDeliver {s : State} (n : Nat) (bytes : List Byte) (status flow port ns ovr seq : Nat) (macsec : Bool) (hG : s.Good Q R) : (State.rxDeliver s n bytes status flow port ns ovr seq macsec).Good Q R := by
  unfold State.rxDeliver
  repeat' first
    | with_reducible assumption
    | intro _
    | with_reducible refine (State.good_onDev _).2 ?_
    | with_reducible apply State.good_storeAs
    | with_reducible refine State.good_storeAs_eq (by assumption) ?_
    | with_reducible refine State.good_ite ?_ ?_
    | with_reducible refine State.good_ite_fst ?_ ?_
    | with_reducible refine State.good_ite_snd ?_ ?_
    | with_reducible refine State.good_afterRead ?_ ?_ ?_
    | split
    | dsimp only

theorem keeps_execGclEntry {s : State} (l : Nat) (hG : s.Good Q R) : Keeps (execGclEntry l s) (State.Good Q R) := by
  unfold execGclEntry
  simp only [State.good_onDev, keeps_next, hG]

/-! ### Machine/TimeUnit.lean -/

theorem keeps_execEdgeMissed {s : State} (hG : s.Good Q R) : Keeps (execEdgeMissed s) (State.Good Q R) := by
  unfold execEdgeMissed
  simp only [State.good_onDev, keeps_next, hG]

theorem keeps_execHoldoverExpired {s : State} (hG : s.Good Q R) : Keeps (execHoldoverExpired s) (State.Good Q R) := by
  unfold execHoldoverExpired
  simp only [State.good_onDev, keeps_next, hG]

theorem keeps_execFreeRunWithoutReference {s : State} (hG : s.Good Q R) : Keeps (execFreeRunWithoutReference s) (State.Good Q R) := by
  unfold execFreeRunWithoutReference
  simp only [State.good_onDev, keeps_next, hG]

theorem keeps_execReferenceLost {s : State} (hG : s.Good Q R) : Keeps (execReferenceLost s) (State.Good Q R) := by
  unfold execReferenceLost
  simp only [State.good_onDev, keeps_next, hG]

theorem keeps_execSlewDone {s : State} (hG : s.Good Q R) : Keeps (execSlewDone s) (State.Good Q R) := by
  unfold execSlewDone
  simp only [State.good_onDev, keeps_next, hG]

theorem keeps_execAlignLost {s : State} (hG : s.Good Q R) : Keeps (execAlignLost s) (State.Good Q R) := by
  unfold execAlignLost
  simp only [State.good_onDev, keeps_next, hG]

theorem State.good_timeWrite {s : State} (m : Master) (off size : Nat) (f : State → State) (hG : s.Good Q R) (hf : (f s).Good Q R) :
    (s.timeWrite m off size f).Good Q R := by
  unfold State.timeWrite
  split
  · exact (State.good_dev _).2 hG
  · exact (State.good_onDev _).2 hf

theorem State.good_adjRate {s : State} (value : Nat) (hG : s.Good Q R) : (State.adjRate s value).Good Q R := by
  unfold State.adjRate
  simp only [State.good_onDev, State.good_when, State.good_clampPush, hG]

theorem State.good_adjOffset {s : State} (value : Nat) (hG : s.Good Q R) : (State.adjOffset s value).Good Q R := by
  unfold State.adjOffset
  simp only [State.good_onDev, hG]

theorem State.good_setTime {s : State} (ns : Nat) (hG : s.Good Q R) : (State.setTime s ns).Good Q R := by
  unfold State.setTime
  simp only [State.good_onDev, hG]

theorem keeps_execTimeAdjRate {s : State} (m : Master) (value : Nat) (hG : s.Good Q R) : Keeps (execTimeAdjRate m value s) (State.Good Q R) := by
  unfold execTimeAdjRate
  repeat' first
    | with_reducible assumption
    | with_reducible refine keeps_next ?_
    | intro _
    | with_reducible apply State.good_timeWrite
    | with_reducible apply State.good_adjRate
    | with_reducible refine keeps_ite ?_ ?_
    | with_reducible refine State.good_ite ?_ ?_
    | with_reducible refine State.good_ite_fst ?_ ?_
    | with_reducible refine State.good_ite_snd ?_ ?_
    | with_reducible refine State.good_afterRead ?_ ?_ ?_
    | split
    | dsimp only

theorem keeps_execTimeNowRead {s : State} (m : Master) (hG : s.Good Q R) : Keeps (execTimeNowRead m s) (State.Good Q R) := by
  unfold execTimeNowRead
  simp only [State.good_onDev, keeps_next, hG]

/-! ### Machine/Gateway.lean -/

theorem keeps_execRxTimeout {s : State} (n : Nat) (hG : s.Good Q R) : Keeps (execRxTimeout n s) (State.Good Q R) := by
  unfold execRxTimeout
  simp only [State.good_onDev, keeps_next, hG]

theorem keeps_execPduDue {s : State} (n : Nat) (begun : List Nat) (hG : s.Good Q R) : Keeps (execPduDue n begun s) (State.Good Q R) := by
  unfold execPduDue
  simp only [State.good_onDev, keeps_next, hG]

theorem keeps_execCanFrameReceive {s : State} (ch id : Nat) (ext : Bool) (marks : Nat) (payload : List Byte) (hG : s.Good Q R) : Keeps (execCanFrameReceive ch id ext marks payload s) (State.Good Q R) := by
  unfold execCanFrameReceive
  simp only [State.good_onDev, keeps_next, hG]

theorem keeps_execBusOff {s : State} (ch : Nat) (hG : s.Good Q R) : Keeps (execBusOff ch s) (State.Good Q R) := by
  unfold execBusOff
  simp only [State.good_onDev, keeps_next, hG]

theorem keeps_execBusOffRecovery {s : State} (ch : Nat) (hG : s.Good Q R) : Keeps (execBusOffRecovery ch s) (State.Good Q R) := by
  unfold execBusOffRecovery
  simp only [State.good_onDev, keeps_next, hG]

theorem keeps_execLinSlot {s : State} (ch : Nat) (hG : s.Good Q R) : Keeps (execLinSlot ch s) (State.Good Q R) := by
  unfold execLinSlot
  simp only [State.good_onDev, keeps_next, hG]

theorem keeps_execLinResponse {s : State} (ch : Nat) (payload : List Byte) (checksum : Nat) (hG : s.Good Q R) : Keeps (execLinResponse ch payload checksum s) (State.Good Q R) := by
  unfold execLinResponse
  simp only [State.good_onDev, keeps_next, hG]

theorem keeps_execNoResponse {s : State} (ch : Nat) (hG : s.Good Q R) : Keeps (execNoResponse ch s) (State.Good Q R) := by
  unfold execNoResponse
  simp only [State.good_onDev, keeps_next, hG]

theorem State.good_toPort {s : State} (f : Nat) (x : Flow) (bytes : List Byte) (ts : Option Nat) (i : RxInfo) (p : Nat) (hG : s.Good Q R) : (State.toPort s f x bytes ts i p).Good Q R := by
  unfold State.toPort
  repeat' split
  all_goals simp only [State.good_onDev, State.good_rxDeliver, hG]

theorem State.good_freeTag {s : State} (x : Flow) (hG : s.Good Q R) : (State.freeTag s x).2.Good Q R := by
  unfold State.freeTag
  repeat' split
  all_goals simp only [State.good_onDev, hG]

theorem State.good_freeTag_eq {s : State} {x : Flow} {newS : State} {newO : Option Nat} (hE : State.freeTag s x = (newO, newS)) (hG : s.Good Q R) : newS.Good Q R := by
  have hK := @State.good_freeTag Q R s x hG
  rwa [hE] at hK

theorem State.good_forward {s : State} (f : Nat) (x : Flow) (bytes : List Byte) (ports : List Nat) (i : RxInfo) (hG : s.Good Q R) : (State.forward s f x bytes ports i).Good Q R := by
  unfold State.forward
  repeat' first
    | with_reducible assumption
    | intro _
    | with_reducible refine (State.good_onDev _).2 ?_
    | with_reducible apply State.good_forAll
    | with_reducible apply State.good_toPort
    | with_reducible apply State.good_freeTag
    | with_reducible refine State.good_freeTag_eq (by assumption) ?_
    | with_reducible refine State.good_ite ?_ ?_
    | with_reducible refine State.good_ite_fst ?_ ?_
    | with_reducible refine State.good_ite_snd ?_ ?_
    | with_reducible refine State.good_afterRead ?_ ?_ ?_
    | split
    | dsimp only

theorem State.good_inFlow {s : State} (p f : Nat) (y : Flow) (frame : List Byte) (macsec : Bool) (ns : Nat) (hG : s.Good Q R) : (State.inFlow s p f y frame macsec ns).Good Q R := by
  unfold State.inFlow
  repeat' first
    | with_reducible assumption
    | intro _
    | with_reducible refine (State.good_onDev _).2 ?_
    | with_reducible apply State.good_forward
    | with_reducible refine State.good_ite ?_ ?_
    | with_reducible refine State.good_ite_fst ?_ ?_
    | with_reducible refine State.good_ite_snd ?_ ?_
    | with_reducible refine State.good_afterRead ?_ ?_ ?_
    | split
    | dsimp only

theorem State.good_cutFrame {s : State} (p q f : Nat) (x : Flow) (frame : List Byte) (fcsOk : Bool) (ns : Nat) (hG : s.Good Q R) : (State.cutFrame s p q f x frame fcsOk ns).Good Q R := by
  unfold State.cutFrame
  repeat' first
    | with_reducible assumption
    | intro _
    | with_reducible refine (State.good_onDev _).2 ?_
    | with_reducible apply State.good_freeTag
    | with_reducible refine State.good_freeTag_eq (by assumption) ?_
    | with_reducible refine State.good_ite ?_ ?_
    | with_reducible refine State.good_ite_fst ?_ ?_
    | with_reducible refine State.good_ite_snd ?_ ?_
    | with_reducible refine State.good_afterRead ?_ ?_ ?_
    | split
    | dsimp only

theorem keeps_execFrameReceive {s : State} (p : Nat) (frame : List Byte) (fcsOk : Bool) (sec : Option MacRx) (skew : Int) (hG : s.Good Q R) : Keeps (execFrameReceive p frame fcsOk sec skew s) (State.Good Q R) := by
  unfold execFrameReceive
  repeat' first
    | with_reducible assumption
    | with_reducible refine keeps_next ?_
    | intro _
    | with_reducible refine (State.good_onDev _).2 ?_
    | with_reducible apply State.good_rxDeliver
    | with_reducible apply State.good_inFlow
    | with_reducible apply State.good_cutFrame
    | with_reducible refine keeps_ite ?_ ?_
    | with_reducible refine State.good_ite ?_ ?_
    | with_reducible refine State.good_ite_fst ?_ ?_
    | with_reducible refine State.good_ite_snd ?_ ?_
    | with_reducible refine State.good_afterRead ?_ ?_ ?_
    | split
    | dsimp only

theorem State.good_deliverBuilt {s : State} (p : Nat) (q : QFrame) (bytes : List Byte) (hG : s.Good Q R) : (State.deliverBuilt s p q bytes).Good Q R := by
  unfold State.deliverBuilt
  repeat' split
  all_goals simp only [State.good_onDev, State.good_toPort, hG]

theorem keeps_execFrameTransmit {s : State} (p : Nat) (secured : List Byte) (skew : Int) (hG : s.Good Q R) : Keeps (execFrameTransmit p secured skew s) (State.Good Q R) := by
  unfold execFrameTransmit
  repeat' split
  all_goals simp only [State.good_onDev, State.good_deliverBuilt, keeps_next, hG]

theorem State.good_releaseFrame {s : State} (flow tsId append : Nat) (frame : List Byte) (hG : s.Good Q R) : (State.releaseFrame s flow tsId append frame).Good Q R := by
  unfold State.releaseFrame
  repeat' first
    | with_reducible assumption
    | intro _
    | with_reducible refine (State.good_onDev _).2 ?_
    | with_reducible apply State.good_forAll
    | with_reducible apply State.good_toPort
    | with_reducible refine State.good_ite ?_ ?_
    | with_reducible refine State.good_ite_fst ?_ ?_
    | with_reducible refine State.good_ite_snd ?_ ?_
    | with_reducible refine State.good_afterRead ?_ ?_ ?_
    | split
    | dsimp only

theorem keeps_execLinkDown {s : State} (p : Nat) (hG : s.Good Q R) : Keeps (execLinkDown p s) (State.Good Q R) := by
  unfold execLinkDown
  simp only [State.good_onDev, keeps_next, hG]

theorem keeps_execLinkUp {s : State} (p : Nat) (hG : s.Good Q R) : Keeps (execLinkUp p s) (State.Good Q R) := by
  unfold execLinkUp
  simp only [State.good_onDev, keeps_next, hG]

theorem keeps_execTimeCapture {s : State} (i : Nat) (rising : Bool) (hG : s.Good Q R) : Keeps (execTimeCapture i rising s) (State.Good Q R) := by
  unfold execTimeCapture
  simp only [State.good_onDev, keeps_next, hG]

theorem keeps_execCapPop {s : State} (m : Master) (i value : Nat) (hG : s.Good Q R) : Keeps (execCapPop m i value s) (State.Good Q R) := by
  unfold execCapPop
  simp only [State.good_onDev, keeps_next, hG]

theorem keeps_execPulse {s : State} (o : Nat) (hG : s.Good Q R) : Keeps (execPulse o s) (State.Good Q R) := by
  unfold execPulse
  simp only [State.good_onDev, keeps_next, hG]

theorem keeps_execTimeAdjOffset {s : State} (m : Master) (value : Nat) (hG : s.Good Q R) : Keeps (execTimeAdjOffset m value s) (State.Good Q R) := by
  unfold execTimeAdjOffset
  repeat' first
    | with_reducible assumption
    | with_reducible refine keeps_next ?_
    | intro _
    | with_reducible refine (State.good_onDev _).2 ?_
    | with_reducible apply State.good_timeWrite
    | with_reducible apply State.good_adjOffset
    | with_reducible refine keeps_ite ?_ ?_
    | with_reducible refine State.good_ite ?_ ?_
    | with_reducible refine State.good_ite_fst ?_ ?_
    | with_reducible refine State.good_ite_snd ?_ ?_
    | with_reducible refine State.good_afterRead ?_ ?_ ?_
    | split
    | dsimp only

theorem keeps_execTimeSet {s : State} (m : Master) (ns : Nat) (hG : s.Good Q R) : Keeps (execTimeSet m ns s) (State.Good Q R) := by
  unfold execTimeSet
  repeat' first
    | with_reducible assumption
    | with_reducible refine keeps_next ?_
    | intro _
    | with_reducible refine (State.good_onDev _).2 ?_
    | with_reducible apply State.good_timeWrite
    | with_reducible apply State.good_setTime
    | with_reducible refine keeps_ite ?_ ?_
    | with_reducible refine State.good_ite ?_ ?_
    | with_reducible refine State.good_ite_fst ?_ ?_
    | with_reducible refine State.good_ite_snd ?_ ?_
    | with_reducible refine State.good_afterRead ?_ ?_ ?_
    | split
    | dsimp only

theorem keeps_execSidebandAligned {s : State} (count : Nat) (err : Int) (steps balls phase : Nat) (hG : s.Good Q R) : Keeps (execSidebandAligned count err steps balls phase s) (State.Good Q R) := by
  unfold execSidebandAligned
  simp only [State.good_onDev, keeps_next, hG]

/-! ### Machine/Commands.lean -/

theorem State.good_startRun {s : State} (id : Nat) (c : Cmd) (hG : s.Good Q R) : (State.startRun s id c).Good Q R := by
  unfold State.startRun
  repeat' first
    | with_reducible assumption
    | intro _
    | with_reducible refine (State.good_onDev _).2 ?_
    | with_reducible apply State.good_finish
    | with_reducible apply State.good_admitAll
    | with_reducible refine State.good_ite ?_ ?_
    | with_reducible refine State.good_ite_fst ?_ ?_
    | with_reducible refine State.good_ite_snd ?_ ?_
    | with_reducible refine State.good_afterRead ?_ ?_ ?_
    | split
    | dsimp only

theorem State.good_startOther {s : State} (id : Nat) (c : Cmd) (hG : s.Good Q R) : (State.startOther s id c).Good Q R := by
  unfold State.startOther
  repeat' first
    | with_reducible assumption
    | intro _
    | with_reducible refine (State.good_onDev _).2 ?_
    | with_reducible apply State.good_finish
    | with_reducible apply State.good_admitAll
    | with_reducible refine State.good_ite ?_ ?_
    | with_reducible refine State.good_ite_fst ?_ ?_
    | with_reducible refine State.good_ite_snd ?_ ?_
    | with_reducible refine State.good_afterRead ?_ ?_ ?_
    | split
    | dsimp only

theorem keeps_execCommandStart {s : State} (id : Nat) (hG : s.Good Q R) : Keeps (execCommandStart id s) (State.Good Q R) := by
  unfold execCommandStart
  repeat' split
  all_goals simp only [State.good_endCmd, State.good_startDraw, State.good_startRun, State.good_startOther, keeps_next, hG]

theorem State.good_onRunning {s : State} (id op : Nat) (f : Cmd → State) (hG : s.Good Q R) (hf : ∀ c, (f c).Good Q R) :
    (s.onRunning id op f).Good Q R := by
  unfold State.onRunning
  split
  · exact hG
  · split
    · exact hf _
    · exact hG

theorem State.good_ended {s : State} (id : Nat) (hG : s.Good Q R) : (State.ended s id).Good Q R := by
  unfold State.ended
  simp only [State.good_onDev, hG]

theorem State.good_copyOut {s : State} (id : Nat) (c : Cmd) (src r dst n : Nat) (bs : List Byte) (hG : s.Good Q R) : (State.copyOut s id c src r dst n bs).Good Q R := by
  unfold State.copyOut
  repeat' first
    | with_reducible assumption
    | intro _
    | with_reducible refine (State.good_onDev _).2 ?_
    | with_reducible apply State.good_storeAs
    | with_reducible refine State.good_storeAs_eq (by assumption) ?_
    | with_reducible apply State.good_inputEnd
    | with_reducible apply State.good_ended
    | with_reducible refine State.good_ite ?_ ?_
    | with_reducible refine State.good_ite_fst ?_ ?_
    | with_reducible refine State.good_ite_snd ?_ ?_
    | with_reducible refine State.good_afterRead ?_ ?_ ?_
    | split
    | dsimp only

theorem keeps_execCopy {s : State} (id : Nat) (ecc : Ecc) (hG : s.Good Q R) : Keeps (execCopy id ecc s) (State.Good Q R) := by
  unfold execCopy
  repeat' first
    | with_reducible assumption
    | with_reducible refine keeps_next ?_
    | intro _
    | with_reducible refine (State.good_onDev _).2 ?_
    | with_reducible apply State.good_inputEnd
    | with_reducible apply State.good_onRunning
    | with_reducible apply State.good_copyOut
    | with_reducible refine keeps_ite ?_ ?_
    | with_reducible refine State.good_ite ?_ ?_
    | with_reducible refine State.good_ite_fst ?_ ?_
    | with_reducible refine State.good_ite_snd ?_ ?_
    | with_reducible refine State.good_afterRead ?_ ?_ ?_
    | split
    | dsimp only

theorem keeps_execFill {s : State} (id : Nat) (hG : s.Good Q R) : Keeps (execFill id s) (State.Good Q R) := by
  unfold execFill
  repeat' first
    | with_reducible assumption
    | with_reducible refine keeps_next ?_
    | intro _
    | with_reducible apply State.good_onRunning
    | with_reducible apply State.good_copyOut
    | with_reducible refine keeps_ite ?_ ?_
    | with_reducible refine State.good_ite ?_ ?_
    | with_reducible refine State.good_ite_fst ?_ ?_
    | with_reducible refine State.good_ite_snd ?_ ?_
    | with_reducible refine State.good_afterRead ?_ ?_ ?_
    | split
    | dsimp only

theorem keeps_execCheck {s : State} (id : Nat) (ecc : Ecc) (hG : s.Good Q R) : Keeps (execCheck id ecc s) (State.Good Q R) := by
  unfold execCheck
  repeat' first
    | with_reducible assumption
    | with_reducible refine keeps_next ?_
    | intro _
    | with_reducible refine (State.good_onDev _).2 ?_
    | with_reducible apply State.good_inputEnd
    | with_reducible apply State.good_readInput
    | with_reducible refine State.good_readInput_eq (by assumption) ?_
    | with_reducible apply State.good_onRunning
    | with_reducible apply State.good_ended
    | with_reducible refine keeps_ite ?_ ?_
    | with_reducible refine State.good_ite ?_ ?_
    | with_reducible refine State.good_ite_fst ?_ ?_
    | with_reducible refine State.good_ite_snd ?_ ?_
    | with_reducible refine State.good_afterRead ?_ ?_ ?_
    | split
    | dsimp only

theorem State.good_kvMake {s : State} (id : Nat) (r : Except Nat (Nat × KvRec × Dev)) (hG : s.Good Q R) : (State.kvMake s id r).Good Q R := by
  unfold State.kvMake
  repeat' split
  all_goals simp only [State.good_onDev, State.good_finish, State.good_admitAll, hG]

theorem keeps_execKvAlloc {s : State} (id : Nat) (hG : s.Good Q R) : Keeps (execKvAlloc id s) (State.Good Q R) := by
  unfold execKvAlloc
  repeat' first
    | with_reducible assumption
    | with_reducible refine keeps_next ?_
    | intro _
    | with_reducible apply State.good_onRunning
    | with_reducible apply State.good_kvMake
    | with_reducible refine keeps_ite ?_ ?_
    | with_reducible refine State.good_ite ?_ ?_
    | with_reducible refine State.good_ite_fst ?_ ?_
    | with_reducible refine State.good_ite_snd ?_ ?_
    | with_reducible refine State.good_afterRead ?_ ?_ ?_
    | split
    | dsimp only

theorem keeps_execKvFork {s : State} (id : Nat) (hG : s.Good Q R) : Keeps (execKvFork id s) (State.Good Q R) := by
  unfold execKvFork
  repeat' first
    | with_reducible assumption
    | with_reducible refine keeps_next ?_
    | intro _
    | with_reducible apply State.good_onRunning
    | with_reducible apply State.good_kvMake
    | with_reducible refine keeps_ite ?_ ?_
    | with_reducible refine State.good_ite ?_ ?_
    | with_reducible refine State.good_ite_fst ?_ ?_
    | with_reducible refine State.good_ite_snd ?_ ?_
    | with_reducible refine State.good_afterRead ?_ ?_ ?_
    | split
    | dsimp only

theorem keeps_execKvFree {s : State} (id : Nat) (hG : s.Good Q R) : Keeps (execKvFree id s) (State.Good Q R) := by
  unfold execKvFree
  repeat' first
    | with_reducible assumption
    | with_reducible refine keeps_next ?_
    | intro _
    | with_reducible apply State.good_finish
    | with_reducible apply State.good_admitAll
    | with_reducible apply State.good_onRunning
    | with_reducible apply State.good_ended
    | with_reducible refine keeps_ite ?_ ?_
    | with_reducible refine State.good_ite ?_ ?_
    | with_reducible refine State.good_ite_fst ?_ ?_
    | with_reducible refine State.good_ite_snd ?_ ?_
    | with_reducible refine State.good_afterRead ?_ ?_ ?_
    | split
    | dsimp only

theorem keeps_execFence {s : State} (id : Nat) (hG : s.Good Q R) : Keeps (execFence id s) (State.Good Q R) := by
  unfold execFence
  repeat' first
    | with_reducible assumption
    | with_reducible refine keeps_next ?_
    | intro _
    | with_reducible apply State.good_onRunning
    | with_reducible apply State.good_ended
    | with_reducible refine keeps_ite ?_ ?_
    | with_reducible refine State.good_ite ?_ ?_
    | with_reducible refine State.good_ite_fst ?_ ?_
    | with_reducible refine State.good_ite_snd ?_ ?_
    | with_reducible refine State.good_afterRead ?_ ?_ ?_
    | split
    | dsimp only

theorem keeps_execTimestamp {s : State} (id : Nat) (hG : s.Good Q R) : Keeps (execTimestamp id s) (State.Good Q R) := by
  unfold execTimestamp
  repeat' first
    | with_reducible assumption
    | with_reducible refine keeps_next ?_
    | intro _
    | with_reducible apply State.good_onRunning
    | with_reducible apply State.good_ended
    | with_reducible refine keeps_ite ?_ ?_
    | with_reducible refine State.good_ite ?_ ?_
    | with_reducible refine State.good_ite_fst ?_ ?_
    | with_reducible refine State.good_ite_snd ?_ ?_
    | with_reducible refine State.good_afterRead ?_ ?_ ?_
    | split
    | dsimp only

theorem keeps_execSend {s : State} (id : Nat) (ecc : Ecc) (hG : s.Good Q R) : Keeps (execSend id ecc s) (State.Good Q R) := by
  unfold execSend
  repeat' first
    | with_reducible assumption
    | with_reducible refine keeps_next ?_
    | intro _
    | with_reducible refine (State.good_onDev _).2 ?_
    | with_reducible apply State.good_inputEnd
    | with_reducible apply State.good_readInput
    | with_reducible refine State.good_readInput_eq (by assumption) ?_
    | with_reducible apply State.good_onRunning
    | with_reducible apply State.good_ended
    | with_reducible refine keeps_ite ?_ ?_
    | with_reducible refine State.good_ite ?_ ?_
    | with_reducible refine State.good_ite_fst ?_ ?_
    | with_reducible refine State.good_ite_snd ?_ ?_
    | with_reducible refine State.good_afterRead ?_ ?_ ?_
    | split
    | dsimp only

theorem State.good_publish {s : State} (c : Cmd) (a : Nat) (bs : List Byte) (hG : s.Good Q R) : (State.publish s c a bs).Good Q R := by
  unfold State.publish
  simp only [State.good_storeAs, hG]

theorem State.good_publishNew {s : State} (c : Cmd) (hG : s.Good Q R) : (State.publishNew s c).Good Q R := by
  unfold State.publishNew
  repeat' split
  all_goals simp only [State.good_kvPut, State.good_publish, hG]

theorem State.good_publishEntries {s : State} (c : Cmd) (hG : s.Good Q R) : (State.publishEntries s c).Good Q R := by
  unfold State.publishEntries
  repeat' split
  all_goals simp only [State.good_onDev, hG]

theorem State.good_publishOutputs {s : State} (c : Cmd) (hG : s.Good Q R) : (State.publishOutputs s c).Good Q R := by
  unfold State.publishOutputs
  repeat' split
  all_goals simp only [State.good_publish, hG]

theorem State.good_publishFrame {s : State} (c : Cmd) (hG : s.Good Q R) : (State.publishFrame s c).Good Q R := by
  unfold State.publishFrame
  repeat' split
  all_goals simp only [State.good_releaseFrame, hG]

theorem State.good_publishAll {s : State} (id : Nat) (c : Cmd) (hG : s.Good Q R) : (State.publishAll s id c).Good Q R := by
  unfold State.publishAll
  repeat' first
    | with_reducible assumption
    | intro _
    | with_reducible refine (State.good_onDev _).2 ?_
    | with_reducible apply State.good_forAll
    | with_reducible apply State.good_writeRecord
    | with_reducible apply State.good_kvPublish
    | with_reducible apply State.good_kvFreeSeq
    | with_reducible apply State.good_admitAll
    | with_reducible apply State.good_publish
    | with_reducible apply State.good_publishNew
    | with_reducible apply State.good_publishEntries
    | with_reducible apply State.good_publishOutputs
    | with_reducible apply State.good_publishFrame
    | with_reducible refine State.good_ite ?_ ?_
    | with_reducible refine State.good_ite_fst ?_ ?_
    | with_reducible refine State.good_ite_snd ?_ ?_
    | with_reducible refine State.good_afterRead ?_ ?_ ?_
    | split
    | dsimp only

theorem keeps_execCommitPoint {s : State} (id : Nat) (hG : s.Good Q R) : Keeps (execCommitPoint id s) (State.Good Q R) := by
  unfold execCommitPoint
  repeat' first
    | with_reducible assumption
    | with_reducible refine keeps_next ?_
    | intro _
    | with_reducible refine (State.good_onDev _).2 ?_
    | with_reducible apply State.good_releaseTiles
    | with_reducible apply State.good_finish
    | with_reducible apply State.good_admitAll
    | with_reducible apply State.good_endCmd
    | with_reducible apply State.good_ended
    | with_reducible apply State.good_publishAll
    | with_reducible refine keeps_ite ?_ ?_
    | with_reducible refine State.good_ite ?_ ?_
    | with_reducible refine State.good_ite_fst ?_ ?_
    | with_reducible refine State.good_ite_snd ?_ ?_
    | with_reducible refine State.good_afterRead ?_ ?_ ?_
    | split
    | dsimp only

/-! ### Machine/Media.lean -/

theorem keeps_execDisplayLatch {s : State} (p : Nat) (hG : s.Good Q R) : Keeps (execDisplayLatch p s) (State.Good Q R) := by
  unfold execDisplayLatch
  simp only [State.good_onDev, keeps_next, hG]

theorem keeps_execDisplayFrameEnd {s : State} (p : Nat) (late : List (Nat × Nat)) (hG : s.Good Q R) : Keeps (execDisplayFrameEnd p late s) (State.Good Q R) := by
  unfold execDisplayFrameEnd
  repeat' first
    | with_reducible assumption
    | with_reducible refine keeps_next ?_
    | intro _
    | with_reducible refine (State.good_onDev _).2 ?_
    | with_reducible apply State.good_when
    | with_reducible apply State.good_readAs
    | with_reducible refine State.good_readAs_eq (by assumption) ?_
    | with_reducible refine keeps_ite ?_ ?_
    | with_reducible refine State.good_ite ?_ ?_
    | with_reducible refine State.good_ite_fst ?_ ?_
    | with_reducible refine State.good_ite_snd ?_ ?_
    | with_reducible refine State.good_afterRead ?_ ?_ ?_
    | split
    | dsimp only

theorem keeps_execDisplayLinkTrained {s : State} (p : Nat) (hG : s.Good Q R) : Keeps (execDisplayLinkTrained p s) (State.Good Q R) := by
  unfold execDisplayLinkTrained
  simp only [State.good_onDev, keeps_next, hG]

theorem keeps_execDisplayLinkDown {s : State} (p : Nat) (hG : s.Good Q R) : Keeps (execDisplayLinkDown p s) (State.Good Q R) := by
  unfold execDisplayLinkDown
  simp only [State.good_onDev, keeps_next, hG]

theorem State.good_camOutput {s : State} (c o : Nat) (f : CamFrame) (e : CamEnd) (timeout : Bool) (hG : s.Good Q R) : (State.camOutput s c o f e timeout).Good Q R := by
  unfold State.camOutput
  repeat' first
    | with_reducible assumption
    | intro _
    | with_reducible apply State.good_fillFree
    | with_reducible refine (State.good_onDev _).2 ?_
    | with_reducible apply State.good_when
    | with_reducible apply State.good_storeAs
    | with_reducible refine State.good_storeAs_eq (by assumption) ?_
    | with_reducible refine State.good_ite ?_ ?_
    | with_reducible refine State.good_ite_fst ?_ ?_
    | with_reducible refine State.good_ite_snd ?_ ?_
    | with_reducible refine State.good_afterRead ?_ ?_ ?_
    | split
    | dsimp only

theorem State.good_camEnd {s : State} (c : Nat) (e : CamEnd) (timeout : Bool) (hG : s.Good Q R) : (State.camEnd s c e timeout).Good Q R := by
  unfold State.camEnd
  repeat' first
    | with_reducible assumption
    | intro _
    | with_reducible refine (State.good_onDev _).2 ?_
    | with_reducible apply State.good_when
    | with_reducible apply State.good_forAll
    | with_reducible apply State.good_camOutput
    | with_reducible refine State.good_ite ?_ ?_
    | with_reducible refine State.good_ite_fst ?_ ?_
    | with_reducible refine State.good_ite_snd ?_ ?_
    | with_reducible refine State.good_afterRead ?_ ?_ ?_
    | split
    | dsimp only

theorem keeps_execCameraFrameEnd {s : State} (c : Nat) (e : CamEnd) (hG : s.Good Q R) : Keeps (execCameraFrameEnd c e s) (State.Good Q R) := by
  unfold execCameraFrameEnd
  simp only [State.good_camEnd, keeps_next, hG]

theorem keeps_execCameraFrameTimeout {s : State} (c : Nat) (e : CamEnd) (hG : s.Good Q R) : Keeps (execCameraFrameTimeout c e s) (State.Good Q R) := by
  unfold execCameraFrameTimeout
  repeat' split
  all_goals simp only [State.good_camEnd, keeps_next, hG]

theorem keeps_execCameraFrameStart {s : State} (c : Nat) (prev : CamEnd) (hG : s.Good Q R) : Keeps (execCameraFrameStart c prev s) (State.Good Q R) := by
  unfold execCameraFrameStart
  repeat' first
    | with_reducible assumption
    | with_reducible refine keeps_next ?_
    | intro _
    | with_reducible refine (State.good_onDev _).2 ?_
    | with_reducible apply State.good_readAs
    | with_reducible refine State.good_readAs_eq (by assumption) ?_
    | with_reducible apply State.good_camEnd
    | with_reducible refine keeps_ite ?_ ?_
    | with_reducible refine State.good_ite ?_ ?_
    | with_reducible refine State.good_ite_fst ?_ ?_
    | with_reducible refine State.good_ite_snd ?_ ?_
    | with_reducible refine State.good_afterRead ?_ ?_ ?_
    | split
    | dsimp only

theorem keeps_execCameraLinkUp {s : State} (c : Nat) (hG : s.Good Q R) : Keeps (execCameraLinkUp c s) (State.Good Q R) := by
  unfold execCameraLinkUp
  simp only [State.good_onDev, keeps_next, hG]

theorem keeps_execCameraLinkDown {s : State} (c : Nat) (hG : s.Good Q R) : Keeps (execCameraLinkDown c s) (State.Good Q R) := by
  unfold execCameraLinkDown
  simp only [State.good_onDev, keeps_next, hG]

/-! ### Machine/Cores.lean -/

theorem State.good_serveSecure {s : State} (n : Nat) (hG : s.Good Q R) : (State.serveSecure s n).Good Q R := by
  unfold State.serveSecure
  repeat' first
    | with_reducible assumption
    | intro _
    | with_reducible refine (State.good_onDev _).2 ?_
    | with_reducible apply State.good_storeAs
    | with_reducible refine State.good_storeAs_eq (by assumption) ?_
    | with_reducible refine State.good_ite ?_ ?_
    | with_reducible refine State.good_ite_fst ?_ ?_
    | with_reducible refine State.good_ite_snd ?_ ?_
    | with_reducible refine State.good_afterRead ?_ ?_ ?_
    | split
    | dsimp only

theorem State.good_onCoreRun {s : State} (n : Nat) (f : State → State) (hG : s.Good Q R) (hf : (f s).Good Q R) : (s.onCoreRun n f).Good Q R := by
  unfold State.onCoreRun
  split <;> assumption

theorem keeps_execGate {s : State} (n : Nat) (hG : s.Good Q R) : Keeps (execGate n s) (State.Good Q R) := by
  unfold execGate
  simp only [State.good_onDev, State.good_onCoreRun, keeps_next, hG]

theorem keeps_execWgate {s : State} (n rd rs1 : Nat) (hG : s.Good Q R) : Keeps (execWgate n rd rs1 s) (State.Good Q R) := by
  unfold execWgate
  repeat' first
    | with_reducible assumption
    | with_reducible refine keeps_next ?_
    | intro _
    | with_reducible refine (State.good_onDev _).2 ?_
    | with_reducible apply State.good_onCoreRun
    | with_reducible refine keeps_ite ?_ ?_
    | with_reducible refine State.good_ite ?_ ?_
    | with_reducible refine State.good_ite_fst ?_ ?_
    | with_reducible refine State.good_ite_snd ?_ ?_
    | with_reducible refine State.good_afterRead ?_ ?_ ?_
    | split
    | dsimp only

theorem keeps_execWret {s : State} (n rs1 : Nat) (hG : s.Good Q R) : Keeps (execWret n rs1 s) (State.Good Q R) := by
  unfold execWret
  repeat' first
    | with_reducible assumption
    | with_reducible refine keeps_next ?_
    | intro _
    | with_reducible refine (State.good_onDev _).2 ?_
    | with_reducible apply State.good_readAs
    | with_reducible refine State.good_readAs_eq (by assumption) ?_
    | with_reducible apply State.good_serveSecure
    | with_reducible apply State.good_onCoreRun
    | with_reducible refine keeps_ite ?_ ?_
    | with_reducible refine State.good_ite ?_ ?_
    | with_reducible refine State.good_ite_fst ?_ ?_
    | with_reducible refine State.good_ite_snd ?_ ?_
    | with_reducible refine State.good_afterRead ?_ ?_ ?_
    | split
    | dsimp only

theorem keeps_execSecureInterrupt {s : State} (n cause : Nat) (hG : s.Good Q R) : Keeps (execSecureInterrupt n cause s) (State.Good Q R) := by
  unfold execSecureInterrupt
  repeat' first
    | with_reducible assumption
    | with_reducible refine keeps_next ?_
    | intro _
    | with_reducible refine (State.good_onDev _).2 ?_
    | with_reducible apply State.good_serveSecure
    | with_reducible apply State.good_onCoreRun
    | with_reducible refine keeps_ite ?_ ?_
    | with_reducible refine State.good_ite ?_ ?_
    | with_reducible refine State.good_ite_fst ?_ ?_
    | with_reducible refine State.good_ite_snd ?_ ?_
    | with_reducible refine State.good_afterRead ?_ ?_ ?_
    | split
    | dsimp only

theorem keeps_execWsaveWrite {s : State} (n : Nat) (value : W64) (hG : s.Good Q R) : Keeps (execWsaveWrite n value s) (State.Good Q R) := by
  unfold execWsaveWrite
  simp only [State.good_onDev, State.good_onCoreRun, keeps_next, hG]

theorem keeps_execControlTransfer {s : State} (n target priv : Nat) (hG : s.Good Q R) : Keeps (execControlTransfer n target priv s) (State.Good Q R) := by
  unfold execControlTransfer
  simp only [State.good_onDev, State.good_onCoreRun, keeps_next, hG]

/-! ### Machine/Judge.lean -/

theorem keeps_execLineJudgeCompare {s : State} (id : Nat) (hG : s.Good Q R) : Keeps (execLineJudgeCompare id s) (State.Good Q R) := by
  unfold execLineJudgeCompare
  repeat' split
  all_goals simp only [State.good_onDev, keeps_next, hG]

theorem keeps_execLjShadowChange {s : State} (hG : s.Good Q R) : Keeps (execLjShadowChange s) (State.Good Q R) := by
  unfold execLjShadowChange
  simp only [State.good_onDev, keeps_next, hG]

theorem keeps_execLockstepMismatch {s : State} (p : Nat) (what : LockFault) (retired : Nat) (hG : s.Good Q R) : Keeps (execLockstepMismatch p what retired s) (State.Good Q R) := by
  unfold execLockstepMismatch
  simp only [State.good_onDev, keeps_next, hG]

theorem keeps_execPairRestart {s : State} (p : Nat) (hG : s.Good Q R) : Keeps (execPairRestart p s) (State.Good Q R) := by
  unfold execPairRestart
  simp only [State.good_onDev, keeps_next, hG]

theorem keeps_execDebugHalt {s : State} (p : Nat) (run : Bool) (hG : s.Good Q R) : Keeps (execDebugHalt p run s) (State.Good Q R) := by
  unfold execDebugHalt
  simp only [State.good_onDev, keeps_next, hG]

theorem keeps_execDebugRegisterWrite {s : State} (p reg : Nat) (value : W64) (hG : s.Good Q R) : Keeps (execDebugRegisterWrite p reg value s) (State.Good Q R) := by
  unfold execDebugRegisterWrite
  simp only [State.good_onDev, keeps_next, hG]

theorem keeps_execDebugSingleStep {s : State} (p : Nat) (hG : s.Good Q R) : Keeps (execDebugSingleStep p s) (State.Good Q R) := by
  unfold execDebugSingleStep
  simp only [State.good_onDev, keeps_next, hG]

theorem keeps_execSelftestPieceDone {s : State} (t : Nat) (ok : Bool) (hG : s.Good Q R) : Keeps (execSelftestPieceDone t ok s) (State.Good Q R) := by
  unfold execSelftestPieceDone
  repeat' first
    | with_reducible assumption
    | with_reducible refine keeps_next ?_
    | intro _
    | with_reducible refine (State.good_onDev _).2 ?_
    | with_reducible apply State.good_when
    | with_reducible apply State.good_admitAll
    | with_reducible apply State.good_partReset
    | with_reducible refine keeps_ite ?_ ?_
    | with_reducible refine State.good_ite ?_ ?_
    | with_reducible refine State.good_ite_fst ?_ ?_
    | with_reducible refine State.good_ite_snd ?_ ?_
    | with_reducible refine State.good_afterRead ?_ ?_ ?_
    | split
    | dsimp only

theorem keeps_execLatent {s : State} (t : Nat) (logic scratch : Bool) (hG : s.Good Q R) : Keeps (execLatent t logic scratch s) (State.Good Q R) := by
  unfold execLatent
  simp only [State.good_onDev, keeps_next, hG]

/-! ### Machine/Hub.lean -/

theorem State.good_dmaMove {s : State} (c : Nat) (j : DmaJob) (n : Nat) (hG : s.Good Q R) : (State.dmaMove s c j n).2.Good Q R := by
  unfold State.dmaMove
  repeat' first
    | with_reducible assumption
    | intro _
    | with_reducible apply State.good_readAs
    | with_reducible refine State.good_readAs_eq (by assumption) ?_
    | with_reducible apply State.good_storeAs
    | with_reducible refine State.good_storeAs_eq (by assumption) ?_
    | with_reducible refine State.good_ite ?_ ?_
    | with_reducible refine State.good_ite_fst ?_ ?_
    | with_reducible refine State.good_ite_snd ?_ ?_
    | with_reducible refine State.good_afterRead ?_ ?_ ?_
    | split
    | dsimp only

theorem State.good_dmaMove_eq {s : State} {c : Nat} {j : DmaJob} {n : Nat} {newS : State} {newO : Bool} (hE : State.dmaMove s c j n = (newO, newS)) (hG : s.Good Q R) : newS.Good Q R := by
  have hK := @State.good_dmaMove Q R s c j n hG
  rwa [hE] at hK

theorem State.good_dmaAbort {s : State} (c done : Nat) (hG : s.Good Q R) : (State.dmaAbort s c done).Good Q R := by
  unfold State.dmaAbort
  repeat' split
  all_goals simp only [State.good_onDev, State.good_dmaMove, hG]

theorem State.good_dmaCommand {s : State} (m : Master) (c value done : Nat) (hG : s.Good Q R) : (State.dmaCommand s m c value done).Good Q R := by
  unfold State.dmaCommand
  repeat' split
  all_goals simp only [State.good_onDev, State.good_writeRejected, State.good_dmaAbort, hG]

theorem State.good_dmaWrite {s : State} (m : Master) (c value done : Nat) (hG : s.Good Q R) : (State.dmaWrite s m c value done).Good Q R := by
  unfold State.dmaWrite
  repeat' split
  all_goals simp only [State.good_onDev, State.good_dmaCommand, State.good_dev, hG]

theorem keeps_execDmaStart {s : State} (m : Master) (c value : Nat) (hG : s.Good Q R) : Keeps (execDmaStart m c value s) (State.Good Q R) := by
  unfold execDmaStart
  simp only [State.good_dmaWrite, keeps_next, hG]

theorem keeps_execDmaAbort {s : State} (m : Master) (c value done : Nat) (hG : s.Good Q R) : Keeps (execDmaAbort m c value done s) (State.Good Q R) := by
  unfold execDmaAbort
  simp only [State.good_dmaWrite, keeps_next, hG]

theorem keeps_execDmaDone {s : State} (c done : Nat) (ecc : Ecc) (hG : s.Good Q R) : Keeps (execDmaDone c done ecc s) (State.Good Q R) := by
  unfold execDmaDone
  repeat' first
    | with_reducible assumption
    | with_reducible refine keeps_next ?_
    | intro _
    | with_reducible refine (State.good_onDev _).2 ?_
    | with_reducible apply State.good_serveReset
    | with_reducible apply State.good_dmaMove
    | with_reducible refine State.good_dmaMove_eq (by assumption) ?_
    | with_reducible refine keeps_ite ?_ ?_
    | with_reducible refine State.good_ite ?_ ?_
    | with_reducible refine State.good_ite_fst ?_ ?_
    | with_reducible refine State.good_ite_snd ?_ ?_
    | with_reducible refine State.good_afterRead ?_ ?_ ?_
    | split
    | dsimp only

theorem keeps_execWdgService {s : State} (m : Master) (value : Nat) (hG : s.Good Q R) : Keeps (execWdgService m value s) (State.Good Q R) := by
  unfold execWdgService
  repeat' split
  all_goals simp only [State.good_onDev, State.good_dev, keeps_next, hG]

theorem keeps_execPreWarning {s : State} (hG : s.Good Q R) : Keeps (execPreWarning s) (State.Good Q R) := by
  unfold execPreWarning
  simp only [State.good_onDev, keeps_next, hG]

theorem keeps_execWatchdogExpiry {s : State} (hG : s.Good Q R) : Keeps (execWatchdogExpiry s) (State.Good Q R) := by
  unfold execWatchdogExpiry
  refine keeps_next ?_
  split
  · exact ⟨hG.1, fun k => ⟨Memory.wf_filter _ _ _ (hG.2 k).1, (hG.2 k).2⟩⟩
  · exact hG

theorem keeps_execWatchdogRestart {s : State} (straps modId modCnt : Nat) (hG : s.Good Q R) : Keeps (execWatchdogRestart straps modId modCnt s) (State.Good Q R) := by
  unfold execWatchdogRestart
  simp only [State.good_onDev, keeps_next, hG]

/-! ### Machine/TileEvents.lean -/

theorem keeps_execThermalDerate {s : State} (t : Nat) (temp : Int) (hG : s.Good Q R) : Keeps (execThermalDerate t temp s) (State.Good Q R) := by
  unfold execThermalDerate
  repeat' split
  all_goals simp only [State.good_onDev, keeps_next, hG]

theorem keeps_execDerateRelease {s : State} (t : Nat) (temp : Int) (hG : s.Good Q R) : Keeps (execDerateRelease t temp s) (State.Good Q R) := by
  unfold execDerateRelease
  repeat' split
  all_goals simp only [State.good_onDev, keeps_next, hG]

theorem keeps_execRouterLinkFail {s : State} (t link : Nat) (ids : List Nat) (hG : s.Good Q R) : Keeps (execRouterLinkFail t link ids s) (State.Good Q R) := by
  unfold execRouterLinkFail
  repeat' first
    | with_reducible assumption
    | with_reducible refine keeps_next ?_
    | intro _
    | with_reducible refine (State.good_onDev _).2 ?_
    | with_reducible apply State.good_forAll
    | with_reducible apply State.good_admitAll
    | with_reducible apply State.good_inputEnd
    | with_reducible refine keeps_ite ?_ ?_
    | with_reducible refine State.good_ite ?_ ?_
    | with_reducible refine State.good_ite_fst ?_ ?_
    | with_reducible refine State.good_ite_snd ?_ ?_
    | with_reducible refine State.good_afterRead ?_ ?_ ?_
    | split
    | dsimp only

theorem keeps_execBtestRegion {s : State} (t cycles : Nat) (failWord : Option Nat) (hG : s.Good Q R) : Keeps (execBtestRegion t cycles failWord s) (State.Good Q R) := by
  unfold execBtestRegion
  simp only [State.good_onDev, keeps_next, hG]

theorem State.good_busRead {s : State} (m : Master) (a n : Nat) (ecc : Ecc) (hG : s.Good Q R) : (State.busRead s m a n ecc).Good Q R := by
  unfold State.busRead
  repeat' first
    | with_reducible assumption
    | intro _
    | with_reducible refine (State.good_onDev _).2 ?_
    | with_reducible apply State.good_readAs
    | with_reducible refine State.good_readAs_eq (by assumption) ?_
    | with_reducible apply State.good_serveReset
    | with_reducible refine State.good_ite ?_ ?_
    | with_reducible refine State.good_ite_fst ?_ ?_
    | with_reducible refine State.good_ite_snd ?_ ?_
    | with_reducible refine State.good_afterRead ?_ ?_ ?_
    | split
    | dsimp only

theorem State.good_busWrite {s : State} (m : Master) (a : Nat) (bs : List Byte) (hG : s.Good Q R) : (State.busWrite s m a bs).Good Q R := by
  unfold State.busWrite
  repeat' first
    | with_reducible assumption
    | intro _
    | with_reducible refine (State.good_onDev _).2 ?_
    | with_reducible apply State.good_storeAs
    | with_reducible refine State.good_storeAs_eq (by assumption) ?_
    | with_reducible refine State.good_ite ?_ ?_
    | with_reducible refine State.good_ite_fst ?_ ?_
    | with_reducible refine State.good_ite_snd ?_ ?_
    | with_reducible refine State.good_afterRead ?_ ?_ ?_
    | split
    | dsimp only

theorem keeps_execScratchpadMainAccess {s : State} (m : Master) (addr : Nat) (k : AccessKind) (bytes : List Byte) (len : Nat) (ecc : Ecc) (hG : s.Good Q R) : Keeps (execScratchpadMainAccess m addr k bytes len ecc s) (State.Good Q R) := by
  unfold execScratchpadMainAccess
  repeat' split
  all_goals simp only [State.good_onDev, State.good_busRead, State.good_busWrite, keeps_next, hG]

theorem keeps_execDoorbellWrite {s : State} (m : Master) (db : DbTarget) (w : DbWord) (hG : s.Good Q R) : Keeps (execDoorbellWrite m db w s) (State.Good Q R) := by
  unfold execDoorbellWrite
  repeat' first
    | with_reducible assumption
    | with_reducible refine keeps_next ?_
    | intro _
    | with_reducible refine (State.good_onDev _).2 ?_
    | with_reducible apply State.good_serveReset
    | with_reducible apply State.good_busWrite
    | with_reducible refine keeps_ite ?_ ?_
    | with_reducible refine State.good_ite ?_ ?_
    | with_reducible refine State.good_ite_fst ?_ ?_
    | with_reducible refine State.good_ite_snd ?_ ?_
    | with_reducible refine State.good_afterRead ?_ ?_ ?_
    | split
    | dsimp only

theorem keeps_execQeCplConsWrite {s : State} (m : Master) (inst c value : Nat) (hG : s.Good Q R) : Keeps (execQeCplConsWrite m inst c value s) (State.Good Q R) := by
  unfold execQeCplConsWrite
  repeat' split
  all_goals simp only [State.good_onDev, State.good_nsWrite, State.good_dev, keeps_next, hG]

theorem keeps_execKvInitDone {s : State} (hG : s.Good Q R) : Keeps (execKvInitDone s) (State.Good Q R) := by
  unfold execKvInitDone
  simp only [State.good_onDev, keeps_next, hG]

theorem keeps_execKvRsvSeqChange {s : State} (r : Nat) (hG : s.Good Q R) : Keeps (execKvRsvSeqChange r s) (State.Good Q R) := by
  unfold execKvRsvSeqChange
  simp only [State.good_onDev, keeps_next, hG]

/-! ### Machine/Power.lean -/

theorem State.good_domWrite {s : State} (m : Master) (k op tag : Nat) (halted : Bool) (hG : s.Good Q R) : (s.domWrite m k op tag halted).Good Q R := by
  unfold State.domWrite
  split
  · exact (State.good_dev _).2 hG
  · exact State.good_when _ _ ((State.good_onDev _).2 hG) (State.good_admitAll ((State.good_onDev _).2 hG))

theorem keeps_execDomainOn {s : State} (m : Master) (dom tag : Nat) (hG : s.Good Q R) : Keeps (execDomainOn m dom tag s) (State.Good Q R) := by
  unfold execDomainOn
  simp only [State.good_domWrite, keeps_next, hG]

theorem keeps_execDomainGate {s : State} (m : Master) (dom tag : Nat) (halted : Bool) (hG : s.Good Q R) : Keeps (execDomainGate m dom tag halted s) (State.Good Q R) := by
  unfold execDomainGate
  simp only [State.good_domWrite, keeps_next, hG]

theorem keeps_execDomainOff {s : State} (m : Master) (dom tag : Nat) (halted : Bool) (hG : s.Good Q R) : Keeps (execDomainOff m dom tag halted s) (State.Good Q R) := by
  unfold execDomainOff
  simp only [State.good_domWrite, keeps_next, hG]

theorem State.good_tileWake {s : State} (t : Nat) (hG : s.Good Q R) : (State.tileWake s t).Good Q R := by
  unfold State.tileWake
  repeat' split
  all_goals simp only [State.good_zero, State.good_onDev, hG]

theorem keeps_execDomainWakeDone {s : State} (dom : Nat) (hG : s.Good Q R) : Keeps (execDomainWakeDone dom s) (State.Good Q R) := by
  unfold execDomainWakeDone
  repeat' first
    | with_reducible assumption
    | with_reducible refine keeps_next ?_
    | intro _
    | with_reducible refine (State.good_onDev _).2 ?_
    | with_reducible apply State.good_when
    | with_reducible apply State.good_forAll
    | with_reducible apply State.good_admitAll
    | with_reducible apply State.good_tileWake
    | with_reducible refine keeps_ite ?_ ?_
    | with_reducible refine State.good_ite ?_ ?_
    | with_reducible refine State.good_ite_fst ?_ ?_
    | with_reducible refine State.good_ite_snd ?_ ?_
    | with_reducible refine State.good_afterRead ?_ ?_ ?_
    | split
    | dsimp only

theorem keeps_execSupplyLimitFall {s : State} (mv : Nat) (hG : s.Good Q R) : Keeps (execSupplyLimitFall mv s) (State.Good Q R) := by
  unfold execSupplyLimitFall
  simp only [State.good_onDev, keeps_next, hG]

theorem keeps_execSupplyLimitRise {s : State} (mv : Nat) (hG : s.Good Q R) : Keeps (execSupplyLimitRise mv s) (State.Good Q R) := by
  unfold execSupplyLimitRise
  simp only [State.good_onDev, keeps_next, hG]

theorem keeps_execPowerLimitExceeded {s : State} (mw : Nat) (hG : s.Good Q R) : Keeps (execPowerLimitExceeded mw s) (State.Good Q R) := by
  unfold execPowerLimitExceeded
  simp only [State.good_onDev, keeps_next, hG]

theorem keeps_execThermalCrit {s : State} (r : HotReport) (hG : s.Good Q R) : Keeps (execThermalCrit r s) (State.Good Q R) := by
  unfold execThermalCrit
  simp only [State.good_onDev, keeps_next, hG]

theorem keeps_execThermalTrip {s : State} (temp : Nat) (hG : s.Good Q R) : Keeps (execThermalTrip temp s) (State.Good Q R) := by
  unfold execThermalTrip
  refine keeps_next (State.good_ite ?_ hG)
  exact (State.good_onDev _).2 ⟨hG.1, fun k => ⟨Memory.wf_filter _ _ _ (hG.2 k).1, (hG.2 k).2⟩⟩

theorem keeps_execVoxHeartbeat {s : State} (m : Master) (_value : Nat) (hG : s.Good Q R) : Keeps (execVoxHeartbeat m _value s) (State.Good Q R) := by
  unfold execVoxHeartbeat
  repeat' split
  all_goals simp only [State.good_onDev, State.good_dev, keeps_next, hG]

/-! ### Machine/Mailbox.lean -/

theorem State.good_mbxWrite {s : State} (m : Master) (c value : Nat) (hG : s.Good Q R) : Keeps (s.mbxWrite m c value) (State.Good Q R) := by
  unfold State.mbxWrite
  split
  · exact keeps_next ((State.good_dev _).2 hG)
  · split
    · split
      · exact keeps_fault _
      · exact keeps_next ((State.good_onDev _).2 hG)
    · exact keeps_next ((State.good_onDev _).2 hG)

theorem keeps_execMbxSubmit {s : State} (m : Master) (c value : Nat) (hG : s.Good Q R) : Keeps (execMbxSubmit m c value s) (State.Good Q R) := by
  unfold execMbxSubmit
  simp only [State.good_mbxWrite, hG]

theorem keeps_execMbxTimeout {s : State} (c k : Nat) (hG : s.Good Q R) : Keeps (execMbxTimeout c k s) (State.Good Q R) := by
  unfold execMbxTimeout
  simp only [State.good_onDev, keeps_next, hG]

theorem keeps_execMbxResponse {s : State} (c k : Nat) (hG : s.Good Q R) : Keeps (execMbxResponse c k s) (State.Good Q R) := by
  unfold execMbxResponse
  simp only [State.good_onDev, keeps_next, hG]

theorem keeps_execPwrGet {s : State} (c k : Nat) (temps : List (Nat × Int)) (hG : s.Good Q R) : Keeps (execPwrGet c k temps s) (State.Good Q R) := by
  unfold execPwrGet
  simp only [State.good_onDev, keeps_next, hG]

theorem keeps_execPwrSetCap {s : State} (c k : Nat) (hG : s.Good Q R) : Keeps (execPwrSetCap c k s) (State.Good Q R) := by
  unfold execPwrSetCap
  simp only [State.good_onDev, keeps_next, hG]

theorem keeps_execThermSetTarget {s : State} (c k : Nat) (hG : s.Good Q R) : Keeps (execThermSetTarget c k s) (State.Good Q R) := by
  unfold execThermSetTarget
  simp only [State.good_onDev, keeps_next, hG]

theorem keeps_execDomSet {s : State} (c k : Nat) (halted : Bool) (hG : s.Good Q R) : Keeps (execDomSet c k halted s) (State.Good Q R) := by
  unfold execDomSet
  simp only [State.good_onDev, State.good_admitAll, keeps_next, hG]

theorem keeps_execDomGet {s : State} (c k : Nat) (hG : s.Good Q R) : Keeps (execDomGet c k s) (State.Good Q R) := by
  unfold execDomGet
  simp only [State.good_onDev, keeps_next, hG]

theorem State.good_oppWrite {s : State} (copy : List Byte) (hG : s.Good Q R) : (State.oppWrite s copy).Good Q R := by
  unfold State.oppWrite
  simp only [State.good_flashProgram, State.good_flashErase, State.good_onDev, hG]

theorem keeps_execOppStore {s : State} (c k : Nat) (copy : List Byte) (hG : s.Good Q R) : Keeps (execOppStore c k copy s) (State.Good Q R) := by
  unfold execOppStore
  repeat' split
  all_goals simp only [State.good_onDev, State.good_oppWrite, keeps_next, hG]

theorem keeps_execOppStoreTimer {s : State} (copy : List Byte) (hG : s.Good Q R) : Keeps (execOppStoreTimer copy s) (State.Good Q R) := by
  unfold execOppStoreTimer
  repeat' split
  all_goals simp only [State.good_onDev, State.good_oppWrite, keeps_next, hG]

theorem keeps_execAttest {s : State} (c k : Nat) (report : List Byte) (hG : s.Good Q R) : Keeps (execAttest c k report s) (State.Good Q R) := by
  unfold execAttest
  repeat' first
    | with_reducible assumption
    | with_reducible refine keeps_next ?_
    | intro _
    | with_reducible apply State.good_put
    | with_reducible refine (State.good_onDev _).2 ?_
    | with_reducible apply State.good_watchLines
    | with_reducible refine keeps_ite ?_ ?_
    | with_reducible refine State.good_ite ?_ ?_
    | with_reducible refine State.good_ite_fst ?_ ?_
    | with_reducible refine State.good_ite_snd ?_ ?_
    | with_reducible refine State.good_afterRead ?_ ?_ ?_
    | split
    | dsimp only

/-! ### Machine/Links.lean -/

theorem keeps_execPortUp {s : State} (p peer peerPort : Nat) (peerHalf : Bool) (lanes : Nat) (known : PeerInfo) (hG : s.Good Q R) : Keeps (execPortUp p peer peerPort peerHalf lanes known s) (State.Good Q R) := by
  unfold execPortUp
  simp only [State.good_onDev, keeps_next, hG]

theorem keeps_execFlitRetry {s : State} (f : FlitTry) (hG : s.Good Q R) : Keeps (execFlitRetry f s) (State.Good Q R) := by
  unfold execFlitRetry
  simp only [State.good_onDev, keeps_next, hG]

theorem keeps_execPortDown {s : State} (p : Nat) (ids : List Nat) (hG : s.Good Q R) : Keeps (execPortDown p ids s) (State.Good Q R) := by
  unfold execPortDown
  repeat' first
    | with_reducible assumption
    | with_reducible refine keeps_next ?_
    | intro _
    | with_reducible refine (State.good_onDev _).2 ?_
    | with_reducible apply State.good_forAll
    | with_reducible apply State.good_admitAll
    | with_reducible apply State.good_inputEnd
    | with_reducible refine keeps_ite ?_ ?_
    | with_reducible refine State.good_ite ?_ ?_
    | with_reducible refine State.good_ite_fst ?_ ?_
    | with_reducible refine State.good_ite_snd ?_ ?_
    | with_reducible refine State.good_afterRead ?_ ?_ ?_
    | split
    | dsimp only

theorem keeps_execModuleStart {s : State} (hG : s.Good Q R) : Keeps (execModuleStart s) (State.Good Q R) := by
  unfold execModuleStart
  simp only [State.good_onDev, keeps_next, hG]

theorem keeps_execModuleTurnOff {s : State} (overcurrent : Bool) (hG : s.Good Q R) : Keeps (execModuleTurnOff overcurrent s) (State.Good Q R) :=
  keeps_next ⟨hG.1, fun k => ⟨rfl, (hG.2 k).2⟩⟩

theorem keeps_execOvercurrentHoldoff {s : State} (hG : s.Good Q R) : Keeps (execOvercurrentHoldoff s) (State.Good Q R) := by
  unfold execOvercurrentHoldoff
  simp only [State.good_onDev, keeps_next, hG]

theorem keeps_execTapReset {s : State} (hG : s.Good Q R) : Keeps (execTapReset s) (State.Good Q R) := by
  unfold execTapReset
  simp only [State.good_onDev, keeps_next, hG]

theorem keeps_execIdcode {s : State} (hG : s.Good Q R) : Keeps (execIdcode s) (State.Good Q R) := by
  unfold execIdcode
  simp only [State.good_onDev, keeps_next, hG]

theorem keeps_execSamplePreload {s : State} (pins cells : Nat) (hG : s.Good Q R) : Keeps (execSamplePreload pins cells s) (State.Good Q R) := by
  unfold execSamplePreload
  simp only [State.good_onDev, keeps_next, hG]

theorem keeps_execExtest {s : State} (pins cells : Nat) (hG : s.Good Q R) : Keeps (execExtest pins cells s) (State.Good Q R) := by
  unfold execExtest
  simp only [State.good_onDev, keeps_next, hG]

theorem keeps_execHighz {s : State} (hG : s.Good Q R) : Keeps (execHighz s) (State.Good Q R) := by
  unfold execHighz
  simp only [State.good_onDev, keeps_next, hG]

theorem keeps_execClamp {s : State} (hG : s.Good Q R) : Keeps (execClamp s) (State.Good Q R) := by
  unfold execClamp
  simp only [State.good_onDev, keeps_next, hG]

theorem keeps_execExtestPulse {s : State} (hG : s.Good Q R) : Keeps (execExtestPulse s) (State.Good Q R) := by
  unfold execExtestPulse
  simp only [State.good_onDev, keeps_next, hG]

theorem keeps_execExtestTrain {s : State} (hG : s.Good Q R) : Keeps (execExtestTrain s) (State.Good Q R) := by
  unfold execExtestTrain
  simp only [State.good_onDev, keeps_next, hG]

theorem keeps_execDebug {s : State} (hG : s.Good Q R) : Keeps (execDebug s) (State.Good Q R) := by
  unfold execDebug
  simp only [State.good_onDev, keeps_next, hG]

theorem keeps_execBypass {s : State} (hG : s.Good Q R) : Keeps (execBypass s) (State.Good Q R) := by
  unfold execBypass
  simp only [State.good_onDev, keeps_next, hG]

/-! ### Machine/Edges.lean -/

theorem State.good_enterS5 {s : State} (hG : s.Good Q R) : (State.enterS5 s).Good Q R := by
  unfold State.enterS5
  repeat' split
  all_goals simp only [State.good_onDev, State.good_readAllDoorbells, State.good_readAllSessions, hG]

theorem State.good_redReset {s : State} (red : Bool) (hG : s.Good Q R) : (State.redReset s red).Good Q R := by
  unfold State.redReset
  repeat' split
  all_goals simp only [State.good_partReset, hG]

theorem State.good_keeperEdge {s : State} (ovr : Nat) (wasDead isDead : Bool) (hG : s.Good Q R) : (State.keeperEdge s ovr wasDead isDead).Good Q R := by
  unfold State.keeperEdge
  simp only [State.good_onDev, State.good_redReset, hG]

theorem State.good_settingsEdge {s : State} (hG : s.Good Q R) : (State.settingsEdge s).Good Q R := by
  unfold State.settingsEdge
  repeat' first
    | with_reducible assumption
    | intro _
    | with_reducible refine (State.good_onDev _).2 ?_
    | with_reducible apply State.good_partReset
    | with_reducible refine State.good_ite ?_ ?_
    | with_reducible refine State.good_ite_fst ?_ ?_
    | with_reducible refine State.good_ite_snd ?_ ?_
    | with_reducible refine State.good_afterRead ?_ ?_ ?_
    | split
    | dsimp only

theorem State.good_faultyEdge {s : State} (hG : s.Good Q R) : (State.faultyEdge s).Good Q R := by
  unfold State.faultyEdge
  repeat' first
    | with_reducible assumption
    | intro _
    | with_reducible refine (State.good_onDev _).2 ?_
    | with_reducible apply State.good_forAll
    | with_reducible apply State.good_partReset
    | with_reducible refine State.good_ite ?_ ?_
    | with_reducible refine State.good_ite_fst ?_ ?_
    | with_reducible refine State.good_ite_snd ?_ ?_
    | with_reducible refine State.good_afterRead ?_ ?_ ?_
    | split
    | dsimp only

theorem State.good_schedEdge {s : State} (wasDead isDead geom : Bool) (hG : s.Good Q R) : (State.schedEdge s wasDead isDead geom).Good Q R := by
  unfold State.schedEdge
  repeat' first
    | with_reducible assumption
    | intro _
    | with_reducible refine (State.good_onDev _).2 ?_
    | with_reducible apply State.good_when
    | with_reducible apply State.good_admitOthers
    | with_reducible apply State.good_admitAll
    | with_reducible apply State.good_deadlines
    | with_reducible apply State.good_settingsEdge
    | with_reducible apply State.good_faultyEdge
    | with_reducible refine State.good_ite ?_ ?_
    | with_reducible refine State.good_ite_fst ?_ ?_
    | with_reducible refine State.good_ite_snd ?_ ?_
    | with_reducible refine State.good_afterRead ?_ ?_ ?_
    | split
    | dsimp only

theorem State.good_ballActions {s : State} (k : Nat) (hG : s.Good Q R) : (State.ballActions s k).Good Q R := by
  unfold State.ballActions
  repeat' first
    | with_reducible assumption
    | intro _
    | with_reducible refine (State.good_onDev _).2 ?_
    | with_reducible apply State.good_pollDoorbells
    | with_reducible apply State.good_pollSessions
    | with_reducible apply State.good_admitAll
    | with_reducible refine State.good_ite ?_ ?_
    | with_reducible refine State.good_ite_fst ?_ ?_
    | with_reducible refine State.good_ite_snd ?_ ?_
    | with_reducible refine State.good_afterRead ?_ ?_ ?_
    | split
    | dsimp only

theorem keeps_execBallEdge {s : State} (hG : s.Good Q R) : Keeps (execBallEdge s) (State.Good Q R) := by
  unfold execBallEdge
  repeat' first
    | with_reducible assumption
    | with_reducible refine keeps_next ?_
    | intro _
    | with_reducible refine (State.good_onDev _).2 ?_
    | with_reducible apply State.good_serveReset
    | with_reducible apply State.good_ballActions
    | with_reducible refine keeps_ite ?_ ?_
    | with_reducible refine State.good_ite ?_ ?_
    | with_reducible refine State.good_ite_fst ?_ ?_
    | with_reducible refine State.good_ite_snd ?_ ?_
    | with_reducible refine State.good_afterRead ?_ ?_ ?_
    | split
    | dsimp only

theorem State.good_overEdge {s : State} (sbDelayPs : Nat) (retrained : List (Nat × Nat)) (temps : List (Nat × Int)) (hG : s.Good Q R) : (State.overEdge s sbDelayPs retrained temps).Good Q R := by
  unfold State.overEdge
  repeat' first
    | with_reducible assumption
    | intro _
    | with_reducible refine (State.good_onDev _).2 ?_
    | with_reducible apply State.good_enterS5
    | with_reducible apply State.good_keeperEdge
    | with_reducible apply State.good_schedEdge
    | with_reducible apply State.good_ballActions
    | with_reducible refine State.good_ite ?_ ?_
    | with_reducible refine State.good_ite_fst ?_ ?_
    | with_reducible refine State.good_ite_snd ?_ ?_
    | with_reducible refine State.good_afterRead ?_ ?_ ?_
    | split
    | dsimp only

theorem keeps_execOverEdge {s : State} (sbDelayPs : Nat) (r : EdgeReport) (hG : s.Good Q R) : Keeps (execOverEdge sbDelayPs r s) (State.Good Q R) := by
  unfold execOverEdge
  repeat' first
    | with_reducible assumption
    | with_reducible refine keeps_next ?_
    | intro _
    | with_reducible refine (State.good_onDev _).2 ?_
    | with_reducible apply State.good_serveReset
    | with_reducible apply State.good_overEdge
    | with_reducible refine keeps_ite ?_ ?_
    | with_reducible refine State.good_ite ?_ ?_
    | with_reducible refine State.good_ite_fst ?_ ?_
    | with_reducible refine State.good_ite_snd ?_ ?_
    | with_reducible refine State.good_afterRead ?_ ?_ ?_
    | split
    | dsimp only

/-! ### Machine/Apply.lean -/

theorem State.good_glbApplied {s : State} (old : Dev) (hG : s.Good Q R) : (State.glbApplied old s).Good Q R := by
  unfold State.glbApplied
  repeat' first
    | with_reducible assumption
    | intro _
    | with_reducible refine (State.good_onDev _).2 ?_
    | with_reducible apply State.good_forAll
    | with_reducible apply State.good_serveSecure
    | with_reducible refine State.good_ite ?_ ?_
    | with_reducible refine State.good_ite_fst ?_ ?_
    | with_reducible refine State.good_ite_snd ?_ ?_
    | with_reducible refine State.good_afterRead ?_ ?_ ?_
    | split
    | dsimp only

theorem State.good_cfgApplied {s : State} (m : Master) (source lo hi : Nat) (hG : s.Good Q R) : (State.cfgApplied s m source lo hi).Good Q R := by
  unfold State.cfgApplied
  repeat' first
    | with_reducible assumption
    | intro _
    | with_reducible refine (State.good_onDev _).2 ?_
    | with_reducible apply State.good_when
    | with_reducible apply State.good_clampMove
    | with_reducible apply State.good_applyBlock
    | with_reducible refine State.good_ite ?_ ?_
    | with_reducible refine State.good_ite_fst ?_ ?_
    | with_reducible refine State.good_ite_snd ?_ ?_
    | with_reducible refine State.good_afterRead ?_ ?_ ?_
    | split
    | dsimp only

theorem State.good_tileApplied {s : State} (old : Dev) (t : Nat) (hG : s.Good Q R) : (State.tileApplied old t s).Good Q R := by
  unfold State.tileApplied
  repeat' first
    | with_reducible assumption
    | intro _
    | with_reducible refine (State.good_onDev _).2 ?_
    | with_reducible apply State.good_when
    | with_reducible apply State.good_forAll
    | with_reducible apply State.good_ownerApplied
    | with_reducible apply State.good_admitAll
    | with_reducible refine State.good_ite ?_ ?_
    | with_reducible refine State.good_ite_fst ?_ ?_
    | with_reducible refine State.good_ite_snd ?_ ?_
    | with_reducible refine State.good_afterRead ?_ ?_ ?_
    | split
    | dsimp only

theorem State.good_instApplied {s : State} (old : Dev) (i : Nat) (hG : s.Good Q R) : (State.instApplied old i s).Good Q R := by
  unfold State.instApplied
  repeat' first
    | with_reducible assumption
    | intro _
    | with_reducible refine (State.good_onDev _).2 ?_
    | with_reducible apply State.good_tearDown
    | with_reducible refine State.good_ite ?_ ?_
    | with_reducible refine State.good_ite_fst ?_ ?_
    | with_reducible refine State.good_ite_snd ?_ ?_
    | with_reducible refine State.good_afterRead ?_ ?_ ?_
    | split
    | dsimp only

theorem State.good_qeApplied {s : State} (old : Dev) (i : Nat) (hG : s.Good Q R) : (State.qeApplied old i s).Good Q R := by
  unfold State.qeApplied
  simp only [State.good_onDev, State.good_admitAll, State.good_instApplied, hG]

theorem State.good_kvFreeAll {s : State} (hG : s.Good Q R) : (State.kvFreeAll s).Good Q R := by
  unfold State.kvFreeAll
  repeat' first
    | with_reducible assumption
    | intro _
    | with_reducible refine (State.good_onDev _).2 ?_
    | with_reducible apply State.good_forAll
    | with_reducible apply State.good_kvPut
    | with_reducible refine State.good_ite ?_ ?_
    | with_reducible refine State.good_ite_fst ?_ ?_
    | with_reducible refine State.good_ite_snd ?_ ?_
    | with_reducible refine State.good_afterRead ?_ ?_ ?_
    | split
    | dsimp only

theorem State.good_kvSwitch {s : State} (old : Dev) (hG : s.Good Q R) : (State.kvSwitch s old).Good Q R := by
  unfold State.kvSwitch
  repeat' split
  all_goals simp only [State.good_onDev, State.good_kvFreeAll, hG]

theorem State.good_kvApplied {s : State} (old : Dev) (reports : List Report) (hG : s.Good Q R) : (State.kvApplied old reports s).Good Q R := by
  unfold State.kvApplied
  simp only [State.good_onDev, State.good_kvSwitch, hG]

theorem State.good_applyThen {s : State} (m : Master) (source lo : Nat) (f : Dev → State → State) (hG : s.Good Q R)
    (hf : ∀ d t, t.Good Q R → (f d t).Good Q R) : (s.applyThen m source lo f).Good Q R := by
  unfold State.applyThen
  exact hf _ _ (State.good_applyBlock _ _ _ _ hG)

theorem State.good_applyAt {s : State} (m : Master) (source lo : Nat) (hG : s.Good Q R) : (State.applyAt s m source lo).Good Q R := by
  unfold State.applyAt
  repeat' first
    | with_reducible assumption
    | intro _
    | with_reducible refine (State.good_onDev _).2 ?_
    | simp only []
    | with_reducible apply State.good_glbApplied
    | with_reducible apply State.good_cfgApplied
    | with_reducible apply State.good_tileApplied
    | with_reducible apply State.good_qeApplied
    | with_reducible apply State.good_kvApplied
    | with_reducible apply State.good_applyThen
    | with_reducible refine State.good_ite ?_ ?_
    | with_reducible refine State.good_ite_fst ?_ ?_
    | with_reducible refine State.good_ite_snd ?_ ?_
    | with_reducible refine State.good_afterRead ?_ ?_ ?_
    | split
    | dsimp only

theorem State.good_applyWrite {s : State} (m : Master) (off value : Nat) (hG : s.Good Q R) : (State.applyWrite s m off value).Good Q R := by
  unfold State.applyWrite
  repeat' split
  all_goals simp only [State.good_onDev, State.good_applyAt, State.good_dev, hG]

theorem keeps_execGlbCfgApply {s : State} (m : Master) (value : Nat) (hG : s.Good Q R) : Keeps (execGlbCfgApply m value s) (State.Good Q R) := by
  unfold execGlbCfgApply
  simp only [State.good_applyWrite, keeps_next, hG]

theorem keeps_execCfgApply {s : State} (m : Master) (value : Nat) (hG : s.Good Q R) : Keeps (execCfgApply m value s) (State.Good Q R) := by
  unfold execCfgApply
  simp only [State.good_applyWrite, keeps_next, hG]

theorem keeps_execQeCfgApply {s : State} (m : Master) (inst value : Nat) (hG : s.Good Q R) : Keeps (execQeCfgApply m inst value s) (State.Good Q R) := by
  unfold execQeCfgApply
  simp only [State.good_applyWrite, keeps_next, hG]

theorem keeps_execTileCfgApply {s : State} (m : Master) (t value : Nat) (hG : s.Good Q R) : Keeps (execTileCfgApply m t value s) (State.Good Q R) := by
  unfold execTileCfgApply
  simp only [State.good_applyWrite, keeps_next, hG]

theorem keeps_execUmpCfgApply {s : State} (m : Master) (k value : Nat) (hG : s.Good Q R) : Keeps (execUmpCfgApply m k value s) (State.Good Q R) := by
  unfold execUmpCfgApply
  simp only [State.good_applyWrite, keeps_next, hG]

theorem keeps_execKvCfgApply {s : State} (m : Master) (value : Nat) (hG : s.Good Q R) : Keeps (execKvCfgApply m value s) (State.Good Q R) := by
  unfold execKvCfgApply
  simp only [State.good_applyWrite, keeps_next, hG]

theorem keeps_execGfxCfgApply {s : State} (m : Master) (page value : Nat) (hG : s.Good Q R) : Keeps (execGfxCfgApply m page value s) (State.Good Q R) := by
  unfold execGfxCfgApply
  simp only [State.good_applyWrite, keeps_next, hG]

theorem keeps_execGwCfgApply {s : State} (m : Master) (page value : Nat) (hG : s.Good Q R) : Keeps (execGwCfgApply m page value s) (State.Good Q R) := by
  unfold execGwCfgApply
  simp only [State.good_applyWrite, keeps_next, hG]

theorem keeps_execIbrCfgApply {s : State} (m : Master) (value : Nat) (hG : s.Good Q R) : Keeps (execIbrCfgApply m value s) (State.Good Q R) := by
  unfold execIbrCfgApply
  simp only [State.good_applyWrite, keeps_next, hG]

theorem keeps_execIslCfgApply {s : State} (m : Master) (value : Nat) (hG : s.Good Q R) : Keeps (execIslCfgApply m value s) (State.Good Q R) := by
  unfold execIslCfgApply
  simp only [State.good_applyWrite, keeps_next, hG]

theorem keeps_execLjCfgApply {s : State} (m : Master) (value : Nat) (hG : s.Good Q R) : Keeps (execLjCfgApply m value s) (State.Good Q R) := by
  unfold execLjCfgApply
  simp only [State.good_applyWrite, keeps_next, hG]

theorem keeps_execKprCfgApply {s : State} (m : Master) (value : Nat) (hG : s.Good Q R) : Keeps (execKprCfgApply m value s) (State.Good Q R) := by
  unfold execKprCfgApply
  simp only [State.good_applyWrite, keeps_next, hG]

theorem keeps_execStestCfgApply {s : State} (m : Master) (value : Nat) (hG : s.Good Q R) : Keeps (execStestCfgApply m value s) (State.Good Q R) := by
  unfold execStestCfgApply
  simp only [State.good_applyWrite, keeps_next, hG]

theorem keeps_execWldCfgApply {s : State} (m : Master) (value : Nat) (hG : s.Good Q R) : Keeps (execWldCfgApply m value s) (State.Good Q R) := by
  unfold execWldCfgApply
  simp only [State.good_applyWrite, keeps_next, hG]

theorem keeps_execPwrCfgApply {s : State} (m : Master) (value : Nat) (hG : s.Good Q R) : Keeps (execPwrCfgApply m value s) (State.Good Q R) := by
  unfold execPwrCfgApply
  simp only [State.good_applyWrite, keeps_next, hG]

theorem keeps_execMbxCfgApply {s : State} (m : Master) (c value : Nat) (hG : s.Good Q R) : Keeps (execMbxCfgApply m c value s) (State.Good Q R) := by
  unfold execMbxCfgApply
  simp only [State.good_applyWrite, keeps_next, hG]

theorem keeps_execIvmCfgApply {s : State} (m : Master) (value : Nat) (hG : s.Good Q R) : Keeps (execIvmCfgApply m value s) (State.Good Q R) := by
  unfold execIvmCfgApply
  simp only [State.good_applyWrite, keeps_next, hG]

/-! ### Machine/Pickup.lean -/

theorem State.good_queueRead {s : State} (i a n : Nat) (ecc : Ecc) (hG : s.Good Q R) : (State.queueRead s i a n ecc).2.Good Q R := by
  unfold State.queueRead
  have k := State.good_readAs (.qe i) a n hG
  revert k
  generalize s.readAs (.qe i) a n = x
  obtain ⟨o, t⟩ := x
  intro k
  cases o
  · exact k
  · exact (State.good_onDev _).2 k

theorem State.good_queueRead_eq {s : State} {i a n : Nat} {ecc : Ecc} {newS : State} {newO : Option (List Byte)} (hE : State.queueRead s i a n ecc = (newO, newS)) (hG : s.Good Q R) : newS.Good Q R := by
  have hK := @State.good_queueRead Q R s i a n ecc hG
  rwa [hE] at hK

theorem State.good_enter {s : State} (id : Nat) (c : Cmd) (raw : List Byte) (hG : s.Good Q R) : (State.enter s id c raw).Good Q R := by
  unfold State.enter
  repeat' split
  all_goals simp only [State.good_finish, State.good_admitAll, hG]

theorem State.good_pickup {s : State} (i r : Nat) (descEcc argsEcc : Ecc) (hG : s.Good Q R) : (State.pickup s i r descEcc argsEcc).Good Q R := by
  unfold State.pickup
  extract_lets d cons a
  refine State.good_afterRead (State.good_queueRead _ _ _ _ hG) (fun _ h => (State.good_onDev _).2 h) (fun desc t k => ?_)
  generalize d.cplOf i desc = o
  cases o with
  | none => exact (State.good_onDev _).2 k
  | some cpl =>
    refine State.good_ite k (State.good_afterRead ?_ (fun _ h => (State.good_onDev _).2 h) (fun raw u k2 => State.good_enter _ _ _ ((State.good_onDev _).2 k2)))
    generalize argBlock desc = b
    cases b with
    | none => exact k
    | some b => exact State.good_queueRead _ _ _ _ k

theorem keeps_execCommandPickup {s : State} (inst : Nat) (r : RingRead) (hG : s.Good Q R) : Keeps (execCommandPickup inst r s) (State.Good Q R) := by
  unfold execCommandPickup
  repeat' first
    | with_reducible assumption
    | with_reducible refine keeps_next ?_
    | intro _
    | with_reducible apply State.good_serveReset
    | with_reducible apply State.good_pickup
    | with_reducible refine keeps_ite ?_ ?_
    | with_reducible refine State.good_ite ?_ ?_
    | with_reducible refine State.good_ite_fst ?_ ?_
    | with_reducible refine State.good_ite_snd ?_ ?_
    | with_reducible refine State.good_afterRead ?_ ?_ ?_
    | split
    | dsimp only

/-! ### Machine/Freeze.lean -/

theorem State.good_freezeOp {s : State} (m : Master) (i op : Nat) (pre : Dev → Bool) (f : State → State) (hG : s.Good Q R) (hf : (f s).Good Q R) :
    (s.freezeOp m i op pre f).Good Q R := by
  unfold State.freezeOp
  split
  · exact (State.good_dev _).2 hG
  · refine (State.good_onDev _).2 ?_
    split
    · exact (State.good_onDev _).2 hG
    · split
      · exact (State.good_onDev _).2 hG
      · exact hf

theorem State.good_holdCmd {s : State} (id : Nat) (hG : s.Good Q R) : (State.holdCmd s id).Good Q R := by
  unfold State.holdCmd
  repeat' split
  all_goals simp only [State.good_onDev, State.good_requeue, hG]

theorem keeps_execFreeze {s : State} (m : Master) (inst : Nat) (hG : s.Good Q R) : Keeps (execFreeze m inst s) (State.Good Q R) := by
  unfold execFreeze
  repeat' first
    | with_reducible assumption
    | with_reducible refine keeps_next ?_
    | intro _
    | with_reducible refine (State.good_onDev _).2 ?_
    | with_reducible apply State.good_forAll
    | with_reducible apply State.good_freezeOp
    | with_reducible apply State.good_holdCmd
    | with_reducible refine keeps_ite ?_ ?_
    | with_reducible refine State.good_ite ?_ ?_
    | with_reducible refine State.good_ite_fst ?_ ?_
    | with_reducible refine State.good_ite_snd ?_ ?_
    | with_reducible refine State.good_afterRead ?_ ?_ ?_
    | split
    | dsimp only

theorem keeps_execFreezeDone {s : State} (inst : Nat) (hG : s.Good Q R) : Keeps (execFreezeDone inst s) (State.Good Q R) := by
  unfold execFreezeDone
  repeat' first
    | with_reducible assumption
    | with_reducible refine keeps_next ?_
    | intro _
    | with_reducible refine (State.good_onDev _).2 ?_
    | with_reducible apply State.good_forAll
    | with_reducible apply State.good_finish
    | with_reducible apply State.good_admitAll
    | with_reducible apply State.good_requeue
    | with_reducible refine keeps_ite ?_ ?_
    | with_reducible refine State.good_ite ?_ ?_
    | with_reducible refine State.good_ite_fst ?_ ?_
    | with_reducible refine State.good_ite_snd ?_ ?_
    | with_reducible refine State.good_afterRead ?_ ?_ ?_
    | split
    | dsimp only

theorem keeps_execThaw {s : State} (m : Master) (inst : Nat) (hG : s.Good Q R) : Keeps (execThaw m inst s) (State.Good Q R) := by
  unfold execThaw
  repeat' first
    | with_reducible assumption
    | with_reducible refine keeps_next ?_
    | intro _
    | with_reducible refine (State.good_onDev _).2 ?_
    | with_reducible apply State.good_admitAll
    | with_reducible apply State.good_deadlines
    | with_reducible apply State.good_freezeOp
    | with_reducible refine keeps_ite ?_ ?_
    | with_reducible refine State.good_ite ?_ ?_
    | with_reducible refine State.good_ite_fst ?_ ?_
    | with_reducible refine State.good_ite_snd ?_ ?_
    | with_reducible refine State.good_afterRead ?_ ?_ ?_
    | split
    | dsimp only

theorem keeps_execDiscard {s : State} (m : Master) (inst : Nat) (hG : s.Good Q R) : Keeps (execDiscard m inst s) (State.Good Q R) := by
  unfold execDiscard
  simp only [State.good_onDev, State.good_freezeOp, keeps_next, hG]

theorem keeps_execSave {s : State} (m : Master) (inst : Nat) (hG : s.Good Q R) : Keeps (execSave m inst s) (State.Good Q R) := by
  unfold execSave
  repeat' first
    | with_reducible assumption
    | with_reducible refine keeps_next ?_
    | intro _
    | with_reducible refine (State.good_onDev _).2 ?_
    | with_reducible apply State.good_writeAs
    | with_reducible refine State.good_writeAs_eq (by assumption) ?_
    | with_reducible apply State.good_freezeOp
    | with_reducible refine keeps_ite ?_ ?_
    | with_reducible refine State.good_ite ?_ ?_
    | with_reducible refine State.good_ite_fst ?_ ?_
    | with_reducible refine State.good_ite_snd ?_ ?_
    | with_reducible refine State.good_afterRead ?_ ?_ ?_
    | split
    | dsimp only

theorem keeps_execSaveDone {s : State} (inst : Nat) (hG : s.Good Q R) : Keeps (execSaveDone inst s) (State.Good Q R) := by
  unfold execSaveDone
  repeat' split
  all_goals simp only [State.good_onDev, keeps_next, hG]

theorem State.good_restoreFail {s : State} (i st : Nat) (hG : s.Good Q R) : (s.restoreFail i st).Good Q R := by
  unfold State.restoreFail
  exact (State.good_onDev _).2 hG

theorem State.good_restoreImage {s : State} (i : Nat) (img : List Byte) (hG : s.Good Q R) : (State.restoreImage s i img).Good Q R := by
  unfold State.restoreImage
  refine State.good_ite (State.good_restoreFail _ _ hG) (State.good_ite (State.good_restoreFail _ _ hG) ?_)
  generalize s.dev.restoreAll img i = r
  cases r with
  | error e => exact State.good_restoreFail _ _ hG
  | ok e => exact (State.good_onDev _).2 hG

theorem keeps_execRestore {s : State} (m : Master) (inst : Nat) (hG : s.Good Q R) : Keeps (execRestore m inst s) (State.Good Q R) := by
  unfold execRestore
  refine keeps_next (State.good_freezeOp _ _ _ _ _ hG ?_)
  exact State.good_afterRead (State.good_readAs _ _ _ ((State.good_onDev _).2 hG)) (fun _ h => State.good_restoreFail _ _ h) (fun _ _ h =>
    State.good_afterRead (State.good_readAs _ _ _ h) (fun _ h => State.good_restoreFail _ _ h) (fun _ _ h => State.good_restoreImage _ _ h))

theorem State.good_restoreCopy {s : State} (m : List Byte) (o : Nat) (k : KvRec) (hG : s.Good Q R) : (State.restoreCopy s m o k).Good Q R := by
  unfold State.restoreCopy
  repeat' first
    | with_reducible assumption
    | intro _
    | with_reducible apply State.good_put
    | with_reducible apply State.good_forAll
    | with_reducible refine State.good_ite ?_ ?_
    | with_reducible refine State.good_ite_fst ?_ ?_
    | with_reducible refine State.good_ite_snd ?_ ?_
    | with_reducible refine State.good_afterRead ?_ ?_ ?_
    | split
    | dsimp only

theorem State.good_restoreLoad {s v : State} (i : Nat) (x : Plan) (e : s.restoreLoad i x = some (some v)) (hG : s.Good Q R) : v.Good Q R := by
  unfold State.restoreLoad at e
  extract_lets d p at e
  split at e
  · cases e
  · obtain ⟨y, -, e⟩ := Option.bind_eq_some_iff.1 e
    obtain ⟨z, -, e⟩ := Option.map_eq_some_iff.1 e
    cases e
    exact (State.good_onDev _).2 (State.good_fillBanks _ ((State.good_onDev _).2 hG))

theorem State.good_restorePlan {s u : State} (m : List Byte) (i o : Nat) (code : CodeInfo) (e : s.restorePlan m i o code = .ok u) (hG : s.Good Q R) :
    u.Good Q R := by
  unfold State.restorePlan at e
  extract_lets n pin res addr at e
  have k := State.good_readAs (.qe i) addr n hG
  revert k e
  generalize s.readAs (.qe i) addr n = x
  obtain ⟨b, t⟩ := x
  intro e k
  cases b with
  | none => cases e
  | some img =>
    simp only at e
    have kl := fun (w : Dev) (x : Plan) v h => State.good_restoreLoad (v := v) i x h ((State.good_dev w).2 k)
    repeat' split at e
    all_goals first
      | cases e; exact (State.good_dev _).2 k
      | cases e; exact kl _ _ _ (by assumption)
      | cases e

theorem State.good_restorePlans {s u : State} (m : List Byte) (i : Nat) (l : List (Nat × CodeInfo)) (e : s.restorePlans m i l = .ok u)
    (hG : s.Good Q R) : u.Good Q R := by
  induction l generalizing s with
  | nil => cases e; exact hG
  | cons o t ih =>
    unfold State.restorePlans at e
    have k := fun v h => State.good_restorePlan (u := v) m i o.1 o.2 h hG
    revert e k
    generalize s.restorePlan m i o.1 o.2 = x
    intro e k
    cases x with
    | error x => cases e
    | ok v => exact ih e (k v rfl)

theorem State.good_restoreEnd {s : State} (m : List Byte) (i : Nat) (hG : s.Good Q R) : (State.restoreEnd s m i).Good Q R := by
  unfold State.restoreEnd
  repeat' first
    | with_reducible assumption
    | intro _
    | with_reducible refine (State.good_onDev _).2 ?_
    | with_reducible apply State.good_forAll
    | with_reducible apply State.good_kvPut
    | with_reducible apply State.good_deadlines
    | with_reducible refine State.good_ite ?_ ?_
    | with_reducible refine State.good_ite_fst ?_ ?_
    | with_reducible refine State.good_ite_snd ?_ ?_
    | with_reducible refine State.good_afterRead ?_ ?_ ?_
    | split
    | dsimp only

theorem keeps_execRestoreDone {s : State} (inst : Nat) (ecc : Ecc) (codes : List CodeInfo) (hG : s.Good Q R) : Keeps (execRestoreDone inst ecc codes s) (State.Good Q R) := by
  unfold execRestoreDone
  refine keeps_next (State.good_ite hG ?_)
  extract_lets x fail t l
  have hf : ∀ st, (fail st).Good Q R := fun st => (State.good_onDev _).2 hG
  clear_value fail
  have ht : t.Good Q R := State.good_forAll _ _ (fun _ _ h => State.good_restoreCopy _ _ _ h) hG
  clear_value t
  refine State.good_ite (hf _) (State.good_ite (hf _) ?_)
  have k := fun v h => State.good_restorePlans (u := v) x.image inst ((List.range l.length).map (fun k => (l.getD k 0, codes.getD k noCode))) h ht
  revert k
  generalize t.restorePlans x.image inst ((List.range l.length).map (fun k => (l.getD k 0, codes.getD k noCode))) = y
  intro k
  match y with
  | .error none => exact hG
  | .error (some e) => exact hf _
  | .ok u => exact State.good_admitAll (State.good_restoreEnd _ _ (k u rfl))

/-! ### Machine/RegWrite.lean -/

theorem keeps_andThen {o : Host.Outcome State Fault Refusal} {f : State → Host.Outcome State Fault Refusal} (h : Keeps o (State.Good Q R))
    (hf : ∀ t, t.Good Q R → Keeps (f t) (State.Good Q R)) : Keeps (andThen o f) (State.Good Q R) := by
  unfold andThen
  cases o with
  | next t => exact hf _ (h _ rfl)
  | fault x => intro u e; cases e
  | refused x => intro u e; cases e

theorem State.good_freezeWrite {s : State} (m : Master) (i value : Nat) (hG : s.Good Q R) : Keeps (s.freezeWrite m i value) (State.Good Q R) := by
  unfold State.freezeWrite
  split
  · exact keeps_execFreeze _ _ hG
  · exact keeps_execSave _ _ hG
  · exact keeps_execRestore _ _ hG
  · exact keeps_execThaw _ _ hG
  · exact keeps_execDiscard _ _ hG
  · exact keeps_next hG

theorem State.good_domReqWrite {s : State} (m : Master) (value : Nat) (hG : s.Good Q R) : (State.domReqWrite s m value).Good Q R := by
  unfold State.domReqWrite
  simp only [State.good_onDev, State.good_domWrite, hG]

theorem State.good_dmaCmdWrite {s : State} (m : Master) (c value : Nat) (hG : s.Good Q R) : (State.dmaCmdWrite s m c value).Good Q R := by
  unfold State.dmaCmdWrite
  simp only [State.good_onDev, State.good_dmaWrite, hG]

theorem State.good_woWrite {s : State} (m : Master) (off value : Nat) (hG : s.Good Q R) : Keeps (State.woWrite s m off value) (State.Good Q R) := by
  unfold State.woWrite
  refine keeps_ite (keeps_next (State.good_applyWrite _ _ _ hG)) ?_
  refine keeps_ite (keeps_execSchPartReset _ _ _ hG) ?_
  refine keeps_ite (keeps_execStartCtrlReady _ _ hG) ?_
  refine keeps_ite (keeps_execUmpCntClear _ _ _ hG) ?_
  refine keeps_ite (State.good_freezeWrite _ _ _ hG) ?_
  refine keeps_ite (keeps_execTimeAdjRate _ _ hG) ?_
  refine keeps_ite (keeps_execTimeAdjOffset _ _ hG) ?_
  refine keeps_ite (keeps_execTimeSet _ _ hG) ?_
  refine keeps_ite (keeps_next ((State.good_onDev _).2 hG)) ?_
  refine keeps_ite (keeps_next ((State.good_onDev _).2 hG)) ?_
  refine keeps_ite (keeps_execCapPop _ _ _ hG) ?_
  refine keeps_ite (keeps_execTxtsPop _ _ _ hG) ?_
  refine keeps_ite (keeps_execKprRelease _ _ hG) ?_
  refine keeps_ite (State.good_mbxWrite _ _ _ hG) ?_
  refine keeps_ite (keeps_execVoxHeartbeat _ _ hG) ?_
  refine keeps_ite (keeps_next (State.good_domReqWrite _ _ hG)) ?_
  refine keeps_ite (keeps_execWdgService _ _ hG) ?_
  exact keeps_ite (keeps_next (State.good_dmaCmdWrite _ _ _ hG)) (keeps_next hG)

theorem State.good_plainWrite {s : State} (m : Master) (p : RegPart) (hG : s.Good Q R) : (State.plainWrite s m p).Good Q R := by
  unfold State.plainWrite
  repeat' split
  all_goals simp only [State.good_onDev, State.good_nsWrite, hG]

theorem State.good_writeParts {s : State} (m : Master) (l : List RegPart) (hG : s.Good Q R) : Keeps (s.writeParts m l) (State.Good Q R) := by
  induction l generalizing s with
  | nil => exact keeps_next hG
  | cons p t ih =>
    unfold State.writeParts
    exact keeps_ite (keeps_andThen (State.good_woWrite _ _ _ hG) (fun _ h => ih h)) (ih (State.good_plainWrite _ _ hG))

theorem State.good_windowWrite {s : State} (m : Master) (off size value : Nat) (hG : s.Good Q R) : (State.windowWrite s m off size value).Good Q R := by
  unfold State.windowWrite
  repeat' first
    | with_reducible assumption
    | intro _
    | with_reducible refine (State.good_onDev _).2 ?_
    | with_reducible refine State.good_ite ?_ ?_
    | with_reducible refine State.good_ite_fst ?_ ?_
    | with_reducible refine State.good_ite_snd ?_ ?_
    | with_reducible refine State.good_afterRead ?_ ?_ ?_
    | split
    | dsimp only

theorem State.good_setupWrite {s : State} (m : Master) (off size value : Nat) (hG : s.Good Q R) :
    Keeps (s.setupWrite m off size value) (State.Good Q R) := by
  unfold State.setupWrite
  generalize s.dev.setupRefused m off size = o
  cases o with
  | some d => exact keeps_next ((State.good_dev _).2 hG)
  | none =>
    exact keeps_andThen (keeps_ite (keeps_next (State.good_windowWrite _ _ _ _ hG)) (State.good_writeParts _ _ hG))
      (fun _ h => keeps_next ((State.good_onDev _).2 h))

theorem keeps_execRegisterWrite {s : State} (m : Master) (off size value : Nat) (hG : s.Good Q R) :
    Keeps (execRegisterWrite m off size value s) (State.Good Q R) := by
  unfold execRegisterWrite
  exact State.good_setupWrite _ _ _ _ hG

/-! ### Machine/Bridge.lean -/

theorem State.good_fabricWrite {s : State} (m : Master) (a : Nat) (bs : List Byte) (hG : s.Good Q R) :
    Keeps (s.fabricWrite m a bs) (State.Good Q R) := by
  unfold State.fabricWrite
  generalize setupOff a = o
  cases o with
  | some off => exact State.good_setupWrite _ _ _ _ hG
  | none => exact keeps_next (State.good_busWrite _ _ _ hG)

theorem State.good_fabricRead {s : State} (m : Master) (a n : Nat) (ecc : Ecc) (hG : s.Good Q R) : (State.fabricRead s m a n ecc).Good Q R := by
  unfold State.fabricRead
  repeat' split
  all_goals simp only [State.good_onDev, State.good_busRead, hG]

theorem keeps_execMainFabricAccess {s : State} (m : Master) (addr : Nat) (k : AccessKind) (bytes : List Byte) (len : Nat) (ecc : Ecc) (hG : s.Good Q R) :
    Keeps (execMainFabricAccess m addr k bytes len ecc s) (State.Good Q R) := by
  unfold execMainFabricAccess
  cases k
  · exact keeps_next (State.good_fabricRead _ _ _ _ hG)
  · exact State.good_fabricWrite _ _ _ hG

theorem State.good_drainOne {s : State} (hG : s.Good Q R) : Keeps s.drainOne (State.Good Q R) := by
  unfold State.drainOne
  generalize s.dev.bridge.posted = l
  cases l with
  | nil => exact keeps_next hG
  | cons x rest => exact keeps_andThen (State.good_fabricWrite _ _ _ ((State.good_onDev _).2 hG)) (fun _ h => keeps_next ((State.good_onDev _).2 h))

theorem State.good_drain {s : State} (n : Nat) (hG : s.Good Q R) : Keeps (State.drain n s) (State.Good Q R) := by
  induction n generalizing s with
  | zero => exact keeps_next hG
  | succ n ih =>
    unfold State.drain
    exact keeps_andThen (State.good_drainOne hG) (fun _ h => ih h)

theorem State.good_drainAll {s : State} (hG : s.Good Q R) : Keeps s.drainAll (State.Good Q R) := by
  unfold State.drainAll
  exact State.good_drain _ hG

theorem State.good_holding {s : State} (ns : Nat) (late : Dev → Dev) (f : State → Host.Outcome State Fault Refusal) (hG : s.Good Q R)
    (hf : ∀ t, t.Good Q R → Keeps (f t) (State.Good Q R)) : Keeps (s.holding ns late f) (State.Good Q R) := by
  unfold State.holding
  exact keeps_ite (keeps_next ((State.good_onDev _).2 hG)) (keeps_andThen (State.good_drainAll hG) (fun _ h => hf _ ((State.good_onDev _).2 h)))

theorem keeps_execIslandRead {s : State} (p addr len ns : Nat) (crossing : Bool) (ecc : Ecc) (hG : s.Good Q R) :
    Keeps (execIslandRead p addr len ns crossing ecc s) (State.Good Q R) := by
  unfold execIslandRead
  exact keeps_ite (keeps_next hG) (keeps_ite (keeps_next (State.good_busRead _ _ _ _ hG)) (State.good_holding _ _ _ hG
    (fun _ h => keeps_next (State.good_fabricRead _ _ _ _ ((State.good_onDev _).2 h)))))

theorem keeps_execReadTimeout {s : State} (p addr : Nat) (hG : s.Good Q R) : Keeps (execReadTimeout p addr s) (State.Good Q R) := by
  unfold execReadTimeout
  repeat' split
  all_goals simp only [State.good_onDev, keeps_next, hG]

theorem State.good_islandWrite {s : State} (p addr : Nat) (bytes : List Byte) (drained ns : Nat) (hG : s.Good Q R) :
    Keeps (s.islandWrite p addr bytes drained ns) (State.Good Q R) := by
  unfold State.islandWrite
  refine keeps_ite (keeps_next (State.good_busWrite _ _ _ hG)) (keeps_ite (keeps_andThen (State.good_drain _ hG) (fun t h => ?_))
    (State.good_holding _ _ _ hG (fun _ h => State.good_fabricWrite _ _ _ h)))
  exact keeps_ite (keeps_next ((State.good_onDev _).2 h)) (keeps_ite (keeps_next ((State.good_onDev _).2 h))
    (keeps_andThen (State.good_drainOne h) (fun _ k => keeps_next ((State.good_onDev _).2 k))))

theorem keeps_execIslandWrite {s : State} (p addr : Nat) (bytes : List Byte) (drained ns : Nat) (hG : s.Good Q R) :
    Keeps (execIslandWrite p addr bytes drained ns s) (State.Good Q R) := by
  unfold execIslandWrite
  exact keeps_ite (State.good_islandWrite _ _ _ _ _ hG) (keeps_next hG)

theorem keeps_execWriteError {s : State} (hG : s.Good Q R) : Keeps (execWriteError s) (State.Good Q R) := by
  unfold execWriteError
  simp only [State.good_onDev, keeps_next, hG]

theorem keeps_execDebugMemoryWrite {s : State} (p addr : Nat) (bytes : List Byte) (hG : s.Good Q R) :
    Keeps (execDebugMemoryWrite p addr bytes s) (State.Good Q R) := by
  unfold execDebugMemoryWrite
  exact keeps_ite (State.good_islandWrite _ _ _ _ _ hG) (keeps_next hG)

theorem State.good_exLoad {s : State} (p a n : Nat) (ecc : Ecc) (hG : s.Good Q R) : (State.exLoad s p a n ecc).Good Q R := by
  unfold State.exLoad
  simp only [State.good_onDev, State.good_fabricRead, hG]

theorem State.good_exStore {s : State} (p a : Nat) (bs : List Byte) (hG : s.Good Q R) : (State.exStore s p a bs).2.Good Q R := by
  unfold State.exStore
  repeat' split
  all_goals simp only [State.good_onDev, State.good_busWrite, hG]

theorem State.good_exStore_eq {s : State} {p a : Nat} {bs : List Byte} {newS : State} {newO : Bool} (hE : State.exStore s p a bs = (newO, newS)) (hG : s.Good Q R) : newS.Good Q R := by
  have hK := @State.good_exStore Q R s p a bs hG
  rwa [hE] at hK

theorem State.good_onMemType {s : State} (p a n : Nat) (f : Host.Outcome State Fault Refusal) (hG : s.Good Q R) (hf : Keeps f (State.Good Q R)) :
    Keeps (s.onMemType p a n f) (State.Good Q R) := by
  unfold State.onMemType
  exact keeps_ite (keeps_next hG) (keeps_ite hf (keeps_next ((State.good_onDev _).2 hG)))

theorem keeps_execExclusiveLoad {s : State} (p addr len : Nat) (h : Hold) (hG : s.Good Q R) : Keeps (execExclusiveLoad p addr len h s) (State.Good Q R) := by
  unfold execExclusiveLoad
  exact State.good_onMemType _ _ _ _ hG (State.good_holding _ _ _ hG (fun _ h => keeps_next (State.good_exLoad (hG := h) ..)))

theorem keeps_execExclusiveStore {s : State} (p addr : Nat) (bytes : List Byte) (hG : s.Good Q R) :
    Keeps (execExclusiveStore p addr bytes s) (State.Good Q R) := by
  unfold execExclusiveStore
  refine State.good_onMemType _ _ _ _ hG (keeps_andThen (State.good_drainAll hG) (fun t h => ?_))
  have k := State.good_exStore p addr bytes h
  revert k
  generalize t.exStore p addr bytes = x
  obtain ⟨b, u⟩ := x
  intro k
  cases b <;> exact keeps_next ((State.good_onDev _).2 k)

theorem State.good_lockedStore {s : State} (p a : Nat) (bs : List Byte) (hG : s.Good Q R) : (State.lockedStore s p a bs).Good Q R := by
  unfold State.lockedStore
  split
  · have k := State.good_exStore p a bs hG
    revert k
    generalize s.exStore p a bs = x
    obtain ⟨b, v⟩ := x
    intro k
    cases b
    · exact (State.good_onDev _).2 k
    · exact k
  · exact (State.good_onDev _).2 hG

theorem keeps_execLockedReadWrite {s : State} (p addr : Nat) (bytes : List Byte) (h : Hold) (hG : s.Good Q R) : Keeps (execLockedReadWrite p addr bytes h s) (State.Good Q R) := by
  unfold execLockedReadWrite
  exact State.good_onMemType _ _ _ _ hG (State.good_holding _ _ _ hG (fun _ h =>
    keeps_next (State.good_lockedStore _ _ _ ((State.good_onDev _).2 (State.good_exLoad (hG := h) ..)))))

theorem State.good_atomicTry {s : State} (p a w : Nat) (op : AtomicOp) (x : W64) (ecc : Ecc) (n fails : Nat) (hG : s.Good Q R) :
    (State.atomicTry p a w op x ecc n fails s).Good Q R := by
  induction n generalizing s fails with
  | zero => exact (State.good_onDev _).2 hG
  | succ n ih =>
    unfold State.atomicTry
    extract_lets t
    have ht : t.Good Q R := (State.good_onDev _).2 (State.good_exLoad (hG := hG) ..)
    clear_value t
    split
    · rename_i bs _
      have k := State.good_exStore p a (leBytes w (atomicValue op w (leNat bs) x.toNat)) ht
      revert k
      generalize t.exStore p a (leBytes w (atomicValue op w (leNat bs) x.toNat)) = y
      obtain ⟨b, u⟩ := y
      intro k
      cases b
      · exact ih _ k
      · exact (State.good_onDev _).2 k
    · exact (State.good_onDev _).2 ht

theorem keeps_execAtomicOperation {s : State} (p addr width : Nat) (op : AtomicOp) (operand : W64) (h : Hold) (hG : s.Good Q R) : Keeps (execAtomicOperation p addr width op operand h s) (State.Good Q R) := by
  unfold execAtomicOperation
  exact State.good_onMemType _ _ _ _ hG (State.good_holding _ _ _ hG (fun _ h => keeps_next (State.good_atomicTry (hG := h) ..)))

theorem keeps_execSemaphoreClear {s : State} (m : Master) (addr : Nat) (bytes : List Byte) (hG : s.Good Q R) : Keeps (execSemaphoreClear m addr bytes s) (State.Good Q R) := by
  unfold execSemaphoreClear
  repeat' split
  all_goals simp only [State.good_busWrite, keeps_next, hG]

theorem State.good_mainLate {s : State} (m : Master) (addr : Nat) (k : AccessKind) (bytes : List Byte) (len made : Nat) (hG : s.Good Q R) : (State.mainLate s m addr k bytes len made).Good Q R := by
  unfold State.mainLate
  repeat' first
    | with_reducible assumption
    | intro _
    | with_reducible refine (State.good_onDev _).2 ?_
    | with_reducible apply State.good_storeAs
    | with_reducible refine State.good_storeAs_eq (by assumption) ?_
    | with_reducible refine State.good_ite ?_ ?_
    | with_reducible refine State.good_ite_fst ?_ ?_
    | with_reducible refine State.good_ite_snd ?_ ?_
    | with_reducible refine State.good_afterRead ?_ ?_ ?_
    | split
    | dsimp only

theorem keeps_execMainIslandAccess {s : State} (m : Master) (addr : Nat) (k : AccessKind) (bytes : List Byte) (len : Nat) (exclusive : Bool) (bus : BusGrants) (ecc : Ecc) (hG : s.Good Q R) : Keeps (execMainIslandAccess m addr k bytes len exclusive bus ecc s) (State.Good Q R) := by
  unfold execMainIslandAccess
  repeat' first
    | with_reducible assumption
    | with_reducible refine keeps_next ?_
    | intro _
    | with_reducible refine (State.good_onDev _).2 ?_
    | with_reducible apply State.good_busRead
    | with_reducible apply State.good_busWrite
    | with_reducible apply State.good_mainLate
    | with_reducible refine keeps_ite ?_ ?_
    | with_reducible refine State.good_ite ?_ ?_
    | with_reducible refine State.good_ite_fst ?_ ?_
    | with_reducible refine State.good_ite_snd ?_ ?_
    | with_reducible refine State.good_afterRead ?_ ?_ ?_
    | split
    | dsimp only

theorem keeps_execMainTimeout {s : State} (m : Master) (addr : Nat) (k : AccessKind) (bytes : List Byte) (len : Nat) (bus : List (Nat × Bool)) (hG : s.Good Q R) : Keeps (execMainTimeout m addr k bytes len bus s) (State.Good Q R) := by
  unfold execMainTimeout
  repeat' first
    | with_reducible assumption
    | with_reducible refine keeps_next ?_
    | intro _
    | with_reducible apply State.good_mainLate
    | with_reducible refine keeps_ite ?_ ?_
    | with_reducible refine State.good_ite ?_ ?_
    | with_reducible refine State.good_ite_fst ?_ ?_
    | with_reducible refine State.good_ite_snd ?_ ?_
    | with_reducible refine State.good_afterRead ?_ ?_ ?_
    | split
    | dsimp only

/-! ### Machine/ServicePort.lean -/

theorem State.good_spCommand {s : State} (op : Nat) (frame : List Byte) (bell : Nat) (f : Nat → List Byte → State → State) (hG : s.Good Q R)
    (hf : ∀ a b t, t.Good Q R → (f a b t).Good Q R) : (s.spCommand op frame bell f).Good Q R := by
  unfold State.spCommand
  have ht : (s.onDev (fun d => d.spFill frame)).Good Q R := (State.good_onDev _).2 hG
  exact State.good_ite hG (State.good_ite ht (State.good_ite ((State.good_onDev _).2 ht) (State.good_ite ht (hf _ _ _ ht))))

theorem keeps_execSpIdent {s : State} (frame : List Byte) (bell : Nat) (hG : s.Good Q R) : Keeps (execSpIdent frame bell s) (State.Good Q R) := keeps_next (State.good_spCommand _ _ _ _ hG (fun _ _ _ h => (State.good_onDev _).2 h))

theorem keeps_execSpStatus {s : State} (frame : List Byte) (bell : Nat) (hG : s.Good Q R) : Keeps (execSpStatus frame bell s) (State.Good Q R) := keeps_next (State.good_spCommand _ _ _ _ hG (fun _ _ _ h => (State.good_onDev _).2 h))

theorem keeps_execSpClampRead {s : State} (frame : List Byte) (bell : Nat) (hG : s.Good Q R) : Keeps (execSpClampRead frame bell s) (State.Good Q R) := keeps_next (State.good_spCommand _ _ _ _ hG (fun _ _ _ h => State.good_ite ((State.good_onDev _).2 h) ((State.good_onDev _).2 h)))

theorem keeps_execSpKeeperGet {s : State} (frame : List Byte) (bell : Nat) (hG : s.Good Q R) : Keeps (execSpKeeperGet frame bell s) (State.Good Q R) := keeps_next (State.good_spCommand _ _ _ _ hG (fun _ _ _ h => (State.good_onDev _).2 h))

theorem keeps_execSpKeeperSet {s : State} (frame : List Byte) (bell : Nat) (hG : s.Good Q R) : Keeps (execSpKeeperSet frame bell s) (State.Good Q R) := by
  refine keeps_next (State.good_spCommand _ _ _ _ hG (fun _ payload t h => ?_))
  extract_lets l v
  generalize (if payload.length = 8 ∧ leAt payload 1 3 = 0 ∧ f32IsNan v = false then t.dev.spLoop l else none) = o
  cases o with
  | none => exact (State.good_onDev _).2 h
  | some c =>
    exact State.good_ite ((State.good_onDev _).2 h) ((State.good_onDev _).2 (State.good_when _ _ ((State.good_onDev _).2 h)
      (State.good_clampPush _ _ ((State.good_onDev _).2 h))))

theorem State.good_keepTable {s : State} (hG : s.Good Q R) : (State.keepTable s).Good Q R := by
  unfold State.keepTable
  exact State.good_ite ((State.good_onDev _).2 hG) hG

theorem keeps_execSpFlashErase {s : State} (frame : List Byte) (bell : Nat) (hG : s.Good Q R) : Keeps (execSpFlashErase frame bell s) (State.Good Q R) := keeps_next (State.good_spCommand _ _ _ _ hG (fun _ _ _ h => State.good_ite ((State.good_onDev _).2 h) (State.good_ite ((State.good_onDev _).2 h)
    ((State.good_onDev _).2 (State.good_flashErase _ _ (State.good_keepTable h))))))

theorem keeps_execSpFlashEraseDone {s : State} (hG : s.Good Q R) : Keeps (execSpFlashEraseDone s) (State.Good Q R) := by
  unfold execSpFlashEraseDone
  simp only [State.good_onDev, keeps_next, hG]

theorem keeps_execSpFlashWrite {s : State} (frame : List Byte) (bell : Nat) (hG : s.Good Q R) : Keeps (execSpFlashWrite frame bell s) (State.Good Q R) := keeps_next (State.good_spCommand _ _ _ _ hG (fun _ _ _ h => State.good_ite ((State.good_onDev _).2 h) (State.good_ite ((State.good_onDev _).2 h)
    ((State.good_onDev _).2 (State.good_flashProgram _ _ (State.good_keepTable h))))))

theorem keeps_execSpFlashRead {s : State} (frame : List Byte) (bell : Nat) (hG : s.Good Q R) : Keeps (execSpFlashRead frame bell s) (State.Good Q R) := keeps_next (State.good_spCommand _ _ _ _ hG (fun _ _ _ h => State.good_ite ((State.good_onDev _).2 h) (State.good_ite ((State.good_onDev _).2 h)
    ((State.good_onDev _).2 h))))

theorem keeps_execSpFlashVerify {s : State} (frame : List Byte) (bell : Nat) (hG : s.Good Q R) : Keeps (execSpFlashVerify frame bell s) (State.Good Q R) := keeps_next (State.good_spCommand _ _ _ _ hG (fun _ _ _ h => State.good_ite ((State.good_onDev _).2 h) (State.good_ite ((State.good_onDev _).2 h)
    ((State.good_onDev _).2 h))))

/-! ### Machine/StartRecord.lean -/

theorem RecordRun.good_leave {x : RecordRun} (hG : x.s.Good Q R) : x.leave.s.Good Q R := by
  unfold RecordRun.leave
  obtain ⟨s, b, n⟩ := x
  cases b with
  | none => exact hG
  | some lo => exact State.good_applyAt _ _ _ hG

theorem RecordRun.good_entry {x : RecordRun} (e : List Byte) (hG : x.s.Good Q R) : (x.entry e).s.Good Q R := by
  unfold RecordRun.entry
  extract_lets off size value src y
  have k : y.s.Good Q R := by
    dsimp only [y]
    generalize blockNamed off = b
    cases b with
    | none => exact hG
    | some lo =>
      dsimp only
      split
      · exact hG
      · exact RecordRun.good_leave hG
  clear_value y
  split
  · exact State.good_forAll _ _ (fun _ _ h => State.good_plainWrite _ _ h) k
  · exact State.good_clampPush _ _ k

theorem State.good_applyRecord {s : State} (sigs : Bool) (hG : s.Good Q R) : (s.applyRecord sigs).Good Q R := by
  unfold State.applyRecord
  extract_lets h t es x
  refine State.good_ite ((State.good_onDev _).2 hG) (State.good_ite ((State.good_onDev _).2 hG) (State.good_ite ((State.good_onDev _).2 hG)
    (State.good_ite ((State.good_onDev _).2 hG) ((State.good_onDev _).2 ?_))))
  have ht : t.Good Q R := (State.good_onDev _).2 hG
  clear_value t es
  have kf : ∀ (l : List (List Byte)) (r : RecordRun), r.s.Good Q R → (l.foldl RecordRun.entry r).s.Good Q R := by
    intro l
    induction l with
    | nil => exact fun _ h => h
    | cons e l ih => exact fun r h => ih _ (RecordRun.good_entry _ h)
  exact RecordRun.good_leave (kf _ _ ht)

theorem keeps_execConfigRecordApply {s : State} (rsaOk mldsaOk : Bool) (hG : s.Good Q R) : Keeps (execConfigRecordApply rsaOk mldsaOk s) (State.Good Q R) := by
  unfold execConfigRecordApply
  exact keeps_next (State.good_ite (State.good_applyRecord _ hG) hG)

theorem keeps_execHbmTrainingDone {s : State} (failed : Nat) (results : List (Nat × List Byte)) (hG : s.Good Q R) : Keeps (execHbmTrainingDone failed results s) (State.Good Q R) := by
  unfold execHbmTrainingDone
  repeat' first
    | with_reducible assumption
    | with_reducible refine keeps_next ?_
    | intro _
    | with_reducible refine (State.good_onDev _).2 ?_
    | with_reducible apply State.good_forAll
    | with_reducible apply State.good_storeTraining
    | with_reducible refine keeps_ite ?_ ?_
    | with_reducible refine State.good_ite ?_ ?_
    | with_reducible refine State.good_ite_fst ?_ ?_
    | with_reducible refine State.good_ite_snd ?_ ?_
    | with_reducible refine State.good_afterRead ?_ ?_ ?_
    | split
    | dsimp only

theorem keeps_execLoaderRelease {s : State} (sigOk : Bool) (image : List Byte) (entry : Nat) (hG : s.Good Q R) : Keeps (execLoaderRelease sigOk image entry s) (State.Good Q R) := by
  unfold execLoaderRelease
  repeat' first
    | with_reducible assumption
    | with_reducible refine keeps_next ?_
    | intro _
    | with_reducible apply State.good_put
    | with_reducible refine (State.good_onDev _).2 ?_
    | with_reducible apply State.good_entry
    | with_reducible refine keeps_ite ?_ ?_
    | with_reducible refine State.good_ite ?_ ?_
    | with_reducible refine State.good_ite_fst ?_ ?_
    | with_reducible refine State.good_ite_snd ?_ ?_
    | with_reducible refine State.good_afterRead ?_ ?_ ?_
    | split
    | dsimp only

end Sys2Proof.Machine
end

