-- ==== Sys2Proof/Laws/State.lean ====
section
/-! SUPPORT. Laws/State.lean: what each named update of the state leaves, field by field, and reading registers after writing them. -/

namespace Sys2Proof.Machine

variable (d : Dev) (s : State)

/-! ### Dev.w -/

@[simp] theorem Dev.w_hbmStacks (o : Nat) (v : W64) : (d.w o v).hbmStacks = d.hbmStacks := rfl
@[simp] theorem Dev.w_ioDies (o : Nat) (v : W64) : (d.w o v).ioDies = d.ioDies := rfl
@[simp] theorem Dev.w_stepping (o : Nat) (v : W64) : (d.w o v).stepping = d.stepping := rfl
@[simp] theorem Dev.w_staged (o : Nat) (v : W64) : (d.w o v).staged = d.staged := rfl
@[simp] theorem Dev.w_now (o : Nat) (v : W64) : (d.w o v).now = d.now := rfl
@[simp] theorem Dev.w_time (o : Nat) (v : W64) : (d.w o v).time = d.time := rfl
@[simp] theorem Dev.w_start (o : Nat) (v : W64) : (d.w o v).start = d.start := rfl
@[simp] theorem Dev.w_sp (o : Nat) (v : W64) : (d.w o v).sp = d.sp := rfl
@[simp] theorem Dev.w_clampFrom (o : Nat) (v : W64) : (d.w o v).clampFrom = d.clampFrom := rfl
@[simp] theorem Dev.w_badDb (o : Nat) (v : W64) : (d.w o v).badDb = d.badDb := rfl
@[simp] theorem Dev.w_badLater (o : Nat) (v : W64) : (d.w o v).badLater = d.badLater := rfl
@[simp] theorem Dev.w_safetyReset (o : Nat) (v : W64) : (d.w o v).safetyReset = d.safetyReset := rfl
@[simp] theorem Dev.w_cmds (o : Nat) (v : W64) : (d.w o v).cmds = d.cmds := rfl
@[simp] theorem Dev.w_nextCmd (o : Nat) (v : W64) : (d.w o v).nextCmd = d.nextCmd := rfl
@[simp] theorem Dev.w_insts (o : Nat) (v : W64) : (d.w o v).insts = d.insts := rfl
@[simp] theorem Dev.w_plans (o : Nat) (v : W64) : (d.w o v).plans = d.plans := rfl
@[simp] theorem Dev.w_parts (o : Nat) (v : W64) : (d.w o v).parts = d.parts := rfl
@[simp] theorem Dev.w_tiles (o : Nat) (v : W64) : (d.w o v).tiles = d.tiles := rfl
@[simp] theorem Dev.w_banks (o : Nat) (v : W64) : (d.w o v).banks = d.banks := rfl
@[simp] theorem Dev.w_fresh (o : Nat) (v : W64) : (d.w o v).fresh = d.fresh := rfl
@[simp] theorem Dev.w_resp (o : Nat) (v : W64) : (d.w o v).resp = d.resp := rfl
@[simp] theorem Dev.w_out (o : Nat) (v : W64) : (d.w o v).out = d.out := rfl
@[simp] theorem Dev.w_cores (o : Nat) (v : W64) : (d.w o v).cores = d.cores := rfl
@[simp] theorem Dev.w_keeper (o : Nat) (v : W64) : (d.w o v).keeper = d.keeper := rfl
@[simp] theorem Dev.w_judge (o : Nat) (v : W64) : (d.w o v).judge = d.judge := rfl
@[simp] theorem Dev.w_pairs (o : Nat) (v : W64) : (d.w o v).pairs = d.pairs := rfl
@[simp] theorem Dev.w_kv (o : Nat) (v : W64) : (d.w o v).kv = d.kv := rfl
@[simp] theorem Dev.w_sched (o : Nat) (v : W64) : (d.w o v).sched = d.sched := rfl
@[simp] theorem Dev.w_media (o : Nat) (v : W64) : (d.w o v).media = d.media := rfl
@[simp] theorem Dev.w_discards (o : Nat) (v : W64) : (d.w o v).discards = d.discards := rfl
@[simp] theorem Dev.w_umps (o : Nat) (v : W64) : (d.w o v).umps = d.umps := rfl
@[simp] theorem Dev.w_bridge (o : Nat) (v : W64) : (d.w o v).bridge = d.bridge := rfl
@[simp] theorem Dev.w_gw (o : Nat) (v : W64) : (d.w o v).gw = d.gw := rfl
@[simp] theorem Dev.w_dma (o : Nat) (v : W64) : (d.w o v).dma = d.dma := rfl
@[simp] theorem Dev.w_vox (o : Nat) (v : W64) : (d.w o v).vox = d.vox := rfl
@[simp] theorem Dev.w_wdg (o : Nat) (v : W64) : (d.w o v).wdg = d.wdg := rfl
@[simp] theorem Dev.w_power (o : Nat) (v : W64) : (d.w o v).power = d.power := rfl
@[simp] theorem Dev.w_tap (o : Nat) (v : W64) : (d.w o v).tap = d.tap := rfl
@[simp] theorem Dev.w_peers (o : Nat) (v : W64) : (d.w o v).peers = d.peers := rfl
@[simp] theorem Dev.w_peerStacks (o : Nat) (v : W64) : (d.w o v).peerStacks = d.peerStacks := rfl
@[simp] theorem Dev.w_linkFails (o : Nat) (v : W64) : (d.w o v).linkFails = d.linkFails := rfl

/-! ### Dev.emit -/

@[simp] theorem Dev.emit_hbmStacks (e : Emit) : (d.emit e).hbmStacks = d.hbmStacks := rfl
@[simp] theorem Dev.emit_ioDies (e : Emit) : (d.emit e).ioDies = d.ioDies := rfl
@[simp] theorem Dev.emit_stepping (e : Emit) : (d.emit e).stepping = d.stepping := rfl
@[simp] theorem Dev.emit_regs (e : Emit) : (d.emit e).regs = d.regs := rfl
@[simp] theorem Dev.emit_staged (e : Emit) : (d.emit e).staged = d.staged := rfl
@[simp] theorem Dev.emit_now (e : Emit) : (d.emit e).now = d.now := rfl
@[simp] theorem Dev.emit_time (e : Emit) : (d.emit e).time = d.time := rfl
@[simp] theorem Dev.emit_start (e : Emit) : (d.emit e).start = d.start := rfl
@[simp] theorem Dev.emit_sp (e : Emit) : (d.emit e).sp = d.sp := rfl
@[simp] theorem Dev.emit_clampFrom (e : Emit) : (d.emit e).clampFrom = d.clampFrom := rfl
@[simp] theorem Dev.emit_badDb (e : Emit) : (d.emit e).badDb = d.badDb := rfl
@[simp] theorem Dev.emit_badLater (e : Emit) : (d.emit e).badLater = d.badLater := rfl
@[simp] theorem Dev.emit_safetyReset (e : Emit) : (d.emit e).safetyReset = d.safetyReset := rfl
@[simp] theorem Dev.emit_cmds (e : Emit) : (d.emit e).cmds = d.cmds := rfl
@[simp] theorem Dev.emit_nextCmd (e : Emit) : (d.emit e).nextCmd = d.nextCmd := rfl
@[simp] theorem Dev.emit_insts (e : Emit) : (d.emit e).insts = d.insts := rfl
@[simp] theorem Dev.emit_plans (e : Emit) : (d.emit e).plans = d.plans := rfl
@[simp] theorem Dev.emit_parts (e : Emit) : (d.emit e).parts = d.parts := rfl
@[simp] theorem Dev.emit_tiles (e : Emit) : (d.emit e).tiles = d.tiles := rfl
@[simp] theorem Dev.emit_banks (e : Emit) : (d.emit e).banks = d.banks := rfl
@[simp] theorem Dev.emit_fresh (e : Emit) : (d.emit e).fresh = d.fresh := rfl
@[simp] theorem Dev.emit_resp (e : Emit) : (d.emit e).resp = d.resp := rfl
@[simp] theorem Dev.emit_cores (e : Emit) : (d.emit e).cores = d.cores := rfl
@[simp] theorem Dev.emit_keeper (e : Emit) : (d.emit e).keeper = d.keeper := rfl
@[simp] theorem Dev.emit_judge (e : Emit) : (d.emit e).judge = d.judge := rfl
@[simp] theorem Dev.emit_pairs (e : Emit) : (d.emit e).pairs = d.pairs := rfl
@[simp] theorem Dev.emit_kv (e : Emit) : (d.emit e).kv = d.kv := rfl
@[simp] theorem Dev.emit_sched (e : Emit) : (d.emit e).sched = d.sched := rfl
@[simp] theorem Dev.emit_media (e : Emit) : (d.emit e).media = d.media := rfl
@[simp] theorem Dev.emit_discards (e : Emit) : (d.emit e).discards = d.discards := rfl
@[simp] theorem Dev.emit_umps (e : Emit) : (d.emit e).umps = d.umps := rfl
@[simp] theorem Dev.emit_bridge (e : Emit) : (d.emit e).bridge = d.bridge := rfl
@[simp] theorem Dev.emit_gw (e : Emit) : (d.emit e).gw = d.gw := rfl
@[simp] theorem Dev.emit_dma (e : Emit) : (d.emit e).dma = d.dma := rfl
@[simp] theorem Dev.emit_vox (e : Emit) : (d.emit e).vox = d.vox := rfl
@[simp] theorem Dev.emit_wdg (e : Emit) : (d.emit e).wdg = d.wdg := rfl
@[simp] theorem Dev.emit_power (e : Emit) : (d.emit e).power = d.power := rfl
@[simp] theorem Dev.emit_tap (e : Emit) : (d.emit e).tap = d.tap := rfl
@[simp] theorem Dev.emit_peers (e : Emit) : (d.emit e).peers = d.peers := rfl
@[simp] theorem Dev.emit_peerStacks (e : Emit) : (d.emit e).peerStacks = d.peerStacks := rfl
@[simp] theorem Dev.emit_linkFails (e : Emit) : (d.emit e).linkFails = d.linkFails := rfl

/-! ### Dev.answer -/

@[simp] theorem Dev.answer_hbmStacks (x : Resp) : (d.answer x).hbmStacks = d.hbmStacks := rfl
@[simp] theorem Dev.answer_ioDies (x : Resp) : (d.answer x).ioDies = d.ioDies := rfl
@[simp] theorem Dev.answer_stepping (x : Resp) : (d.answer x).stepping = d.stepping := rfl
@[simp] theorem Dev.answer_regs (x : Resp) : (d.answer x).regs = d.regs := rfl
@[simp] theorem Dev.answer_staged (x : Resp) : (d.answer x).staged = d.staged := rfl
@[simp] theorem Dev.answer_now (x : Resp) : (d.answer x).now = d.now := rfl
@[simp] theorem Dev.answer_time (x : Resp) : (d.answer x).time = d.time := rfl
@[simp] theorem Dev.answer_start (x : Resp) : (d.answer x).start = d.start := rfl
@[simp] theorem Dev.answer_sp (x : Resp) : (d.answer x).sp = d.sp := rfl
@[simp] theorem Dev.answer_clampFrom (x : Resp) : (d.answer x).clampFrom = d.clampFrom := rfl
@[simp] theorem Dev.answer_badDb (x : Resp) : (d.answer x).badDb = d.badDb := rfl
@[simp] theorem Dev.answer_badLater (x : Resp) : (d.answer x).badLater = d.badLater := rfl
@[simp] theorem Dev.answer_safetyReset (x : Resp) : (d.answer x).safetyReset = d.safetyReset := rfl
@[simp] theorem Dev.answer_cmds (x : Resp) : (d.answer x).cmds = d.cmds := rfl
@[simp] theorem Dev.answer_nextCmd (x : Resp) : (d.answer x).nextCmd = d.nextCmd := rfl
@[simp] theorem Dev.answer_insts (x : Resp) : (d.answer x).insts = d.insts := rfl
@[simp] theorem Dev.answer_plans (x : Resp) : (d.answer x).plans = d.plans := rfl
@[simp] theorem Dev.answer_parts (x : Resp) : (d.answer x).parts = d.parts := rfl
@[simp] theorem Dev.answer_tiles (x : Resp) : (d.answer x).tiles = d.tiles := rfl
@[simp] theorem Dev.answer_banks (x : Resp) : (d.answer x).banks = d.banks := rfl
@[simp] theorem Dev.answer_fresh (x : Resp) : (d.answer x).fresh = d.fresh := rfl
@[simp] theorem Dev.answer_out (x : Resp) : (d.answer x).out = d.out := rfl
@[simp] theorem Dev.answer_cores (x : Resp) : (d.answer x).cores = d.cores := rfl
@[simp] theorem Dev.answer_keeper (x : Resp) : (d.answer x).keeper = d.keeper := rfl
@[simp] theorem Dev.answer_judge (x : Resp) : (d.answer x).judge = d.judge := rfl
@[simp] theorem Dev.answer_pairs (x : Resp) : (d.answer x).pairs = d.pairs := rfl
@[simp] theorem Dev.answer_kv (x : Resp) : (d.answer x).kv = d.kv := rfl
@[simp] theorem Dev.answer_sched (x : Resp) : (d.answer x).sched = d.sched := rfl
@[simp] theorem Dev.answer_media (x : Resp) : (d.answer x).media = d.media := rfl
@[simp] theorem Dev.answer_discards (x : Resp) : (d.answer x).discards = d.discards := rfl
@[simp] theorem Dev.answer_umps (x : Resp) : (d.answer x).umps = d.umps := rfl
@[simp] theorem Dev.answer_bridge (x : Resp) : (d.answer x).bridge = d.bridge := rfl
@[simp] theorem Dev.answer_gw (x : Resp) : (d.answer x).gw = d.gw := rfl
@[simp] theorem Dev.answer_dma (x : Resp) : (d.answer x).dma = d.dma := rfl
@[simp] theorem Dev.answer_vox (x : Resp) : (d.answer x).vox = d.vox := rfl
@[simp] theorem Dev.answer_wdg (x : Resp) : (d.answer x).wdg = d.wdg := rfl
@[simp] theorem Dev.answer_power (x : Resp) : (d.answer x).power = d.power := rfl
@[simp] theorem Dev.answer_tap (x : Resp) : (d.answer x).tap = d.tap := rfl
@[simp] theorem Dev.answer_peers (x : Resp) : (d.answer x).peers = d.peers := rfl
@[simp] theorem Dev.answer_peerStacks (x : Resp) : (d.answer x).peerStacks = d.peerStacks := rfl
@[simp] theorem Dev.answer_linkFails (x : Resp) : (d.answer x).linkFails = d.linkFails := rfl

/-! ### Dev.onMedia -/

@[simp] theorem Dev.onMedia_hbmStacks (g : Media → Media) : (d.onMedia g).hbmStacks = d.hbmStacks := rfl
@[simp] theorem Dev.onMedia_ioDies (g : Media → Media) : (d.onMedia g).ioDies = d.ioDies := rfl
@[simp] theorem Dev.onMedia_stepping (g : Media → Media) : (d.onMedia g).stepping = d.stepping := rfl
@[simp] theorem Dev.onMedia_regs (g : Media → Media) : (d.onMedia g).regs = d.regs := rfl
@[simp] theorem Dev.onMedia_staged (g : Media → Media) : (d.onMedia g).staged = d.staged := rfl
@[simp] theorem Dev.onMedia_now (g : Media → Media) : (d.onMedia g).now = d.now := rfl
@[simp] theorem Dev.onMedia_time (g : Media → Media) : (d.onMedia g).time = d.time := rfl
@[simp] theorem Dev.onMedia_start (g : Media → Media) : (d.onMedia g).start = d.start := rfl
@[simp] theorem Dev.onMedia_sp (g : Media → Media) : (d.onMedia g).sp = d.sp := rfl
@[simp] theorem Dev.onMedia_clampFrom (g : Media → Media) : (d.onMedia g).clampFrom = d.clampFrom := rfl
@[simp] theorem Dev.onMedia_badDb (g : Media → Media) : (d.onMedia g).badDb = d.badDb := rfl
@[simp] theorem Dev.onMedia_badLater (g : Media → Media) : (d.onMedia g).badLater = d.badLater := rfl
@[simp] theorem Dev.onMedia_safetyReset (g : Media → Media) : (d.onMedia g).safetyReset = d.safetyReset := rfl
@[simp] theorem Dev.onMedia_cmds (g : Media → Media) : (d.onMedia g).cmds = d.cmds := rfl
@[simp] theorem Dev.onMedia_nextCmd (g : Media → Media) : (d.onMedia g).nextCmd = d.nextCmd := rfl
@[simp] theorem Dev.onMedia_insts (g : Media → Media) : (d.onMedia g).insts = d.insts := rfl
@[simp] theorem Dev.onMedia_plans (g : Media → Media) : (d.onMedia g).plans = d.plans := rfl
@[simp] theorem Dev.onMedia_parts (g : Media → Media) : (d.onMedia g).parts = d.parts := rfl
@[simp] theorem Dev.onMedia_tiles (g : Media → Media) : (d.onMedia g).tiles = d.tiles := rfl
@[simp] theorem Dev.onMedia_banks (g : Media → Media) : (d.onMedia g).banks = d.banks := rfl
@[simp] theorem Dev.onMedia_fresh (g : Media → Media) : (d.onMedia g).fresh = d.fresh := rfl
@[simp] theorem Dev.onMedia_resp (g : Media → Media) : (d.onMedia g).resp = d.resp := rfl
@[simp] theorem Dev.onMedia_out (g : Media → Media) : (d.onMedia g).out = d.out := rfl
@[simp] theorem Dev.onMedia_cores (g : Media → Media) : (d.onMedia g).cores = d.cores := rfl
@[simp] theorem Dev.onMedia_keeper (g : Media → Media) : (d.onMedia g).keeper = d.keeper := rfl
@[simp] theorem Dev.onMedia_judge (g : Media → Media) : (d.onMedia g).judge = d.judge := rfl
@[simp] theorem Dev.onMedia_pairs (g : Media → Media) : (d.onMedia g).pairs = d.pairs := rfl
@[simp] theorem Dev.onMedia_kv (g : Media → Media) : (d.onMedia g).kv = d.kv := rfl
@[simp] theorem Dev.onMedia_sched (g : Media → Media) : (d.onMedia g).sched = d.sched := rfl
@[simp] theorem Dev.onMedia_discards (g : Media → Media) : (d.onMedia g).discards = d.discards := rfl
@[simp] theorem Dev.onMedia_umps (g : Media → Media) : (d.onMedia g).umps = d.umps := rfl
@[simp] theorem Dev.onMedia_bridge (g : Media → Media) : (d.onMedia g).bridge = d.bridge := rfl
@[simp] theorem Dev.onMedia_gw (g : Media → Media) : (d.onMedia g).gw = d.gw := rfl
@[simp] theorem Dev.onMedia_dma (g : Media → Media) : (d.onMedia g).dma = d.dma := rfl
@[simp] theorem Dev.onMedia_vox (g : Media → Media) : (d.onMedia g).vox = d.vox := rfl
@[simp] theorem Dev.onMedia_wdg (g : Media → Media) : (d.onMedia g).wdg = d.wdg := rfl
@[simp] theorem Dev.onMedia_power (g : Media → Media) : (d.onMedia g).power = d.power := rfl
@[simp] theorem Dev.onMedia_tap (g : Media → Media) : (d.onMedia g).tap = d.tap := rfl
@[simp] theorem Dev.onMedia_peers (g : Media → Media) : (d.onMedia g).peers = d.peers := rfl
@[simp] theorem Dev.onMedia_peerStacks (g : Media → Media) : (d.onMedia g).peerStacks = d.peerStacks := rfl
@[simp] theorem Dev.onMedia_linkFails (g : Media → Media) : (d.onMedia g).linkFails = d.linkFails := rfl

@[simp] theorem Dev.emit_out (e : Emit) : (d.emit e).out = e :: d.out := rfl
@[simp] theorem Dev.answer_resp (x : Resp) : (d.answer x).resp = x := rfl
@[simp] theorem Dev.onMedia_media (g : Media → Media) : (d.onMedia g).media = g d.media := rfl

/-! ### State -/

@[simp] theorem State.onDev_dev (f : Dev → Dev) : (s.onDev f).dev = f s.dev := rfl
@[simp] theorem State.onDev_mem (f : Dev → Dev) : (s.onDev f).mem = s.mem := rfl
@[simp] theorem State.onDev_flash (f : Dev → Dev) : (s.onDev f).flash = s.flash := rfl
@[simp] theorem State.onDev_pending (f : Dev → Dev) : (s.onDev f).pending = s.pending := rfl
@[simp] theorem State.onDev_onDev (f g : Dev → Dev) : (s.onDev f).onDev g = s.onDev (fun d => g (f d)) := rfl
@[simp] theorem State.zero_dev (a n : Nat) : (s.zero a n).dev = s.dev := rfl
@[simp] theorem State.zero_flash (a n : Nat) : (s.zero a n).flash = s.flash := rfl
@[simp] theorem State.zero_pending (a n : Nat) : (s.zero a n).pending = s.pending := rfl
@[simp] theorem State.flashProgram_dev (a : Nat) (bs : List Byte) : (s.flashProgram a bs).dev = s.dev := rfl
@[simp] theorem State.flashProgram_mem (a : Nat) (bs : List Byte) : (s.flashProgram a bs).mem = s.mem := rfl
@[simp] theorem State.flashProgram_pending (a : Nat) (bs : List Byte) : (s.flashProgram a bs).pending = s.pending := rfl
@[simp] theorem State.flashErase_dev (a n : Nat) : (s.flashErase a n).dev = s.dev := rfl
@[simp] theorem State.flashErase_mem (a n : Nat) : (s.flashErase a n).mem = s.mem := rfl
@[simp] theorem State.flashErase_pending (a n : Nat) : (s.flashErase a n).pending = s.pending := rfl
@[simp] theorem State.put_dev (a : Nat) (bs : List Byte) : (s.put a bs).dev = s.dev := by
  unfold State.put; split <;> rfl
@[simp] theorem State.put_flash (a : Nat) (bs : List Byte) : (s.put a bs).flash = s.flash := by
  unfold State.put; split <;> rfl
@[simp] theorem State.put_pending (a : Nat) (bs : List Byte) : (s.put a bs).pending = s.pending := by
  unfold State.put; split <;> rfl

/-! ### Registers -/

/-- The sparse map's three laws, as the register laws use them. -/
theorem KMap.find_put_eq {α : Type} (m : KMap α) (k j : Nat) (v : α) :
    KMap.find (KMap.put m k v) j = if j = k then some v else KMap.find m j := by
  induction m with
  | nil => simp only [KMap.put, KMap.find, eq_comm]
  | cons x t ih =>
    obtain ⟨a, b⟩ := x
    simp only [KMap.put]
    split
    · simp only [KMap.find, eq_comm (a := j)]
    · split
      · subst_vars; simp only [KMap.find, eq_comm (a := j)]; split <;> rfl
      · simp only [KMap.find, ih]
        split
        · rename_i h; subst h; rw [if_neg (by omega)]
        · rfl

@[simp] theorem Dev.w_r (o j : Nat) (v : W64) : (d.w o v).r j = if j = o then v else d.r j := by
  unfold Dev.w Dev.r; rw [KMap.find_put_eq]; split <;> simp

@[simp] theorem Dev.wn_r (o j n : Nat) : (d.wn o n).r j = if j = o then BitVec.ofNat 64 n else d.r j := Dev.w_r ..
@[simp] theorem Dev.setF_r (o hi lo x j : Nat) : (d.setF o hi lo x).r j = if j = o then setFld (d.r o) hi lo x else d.r j := Dev.w_r ..
@[simp] theorem Dev.setB_r (o b j : Nat) (x : Bool) : (d.setB o b x).r j = if j = o then setBit (d.r o) b x else d.r j := Dev.w_r ..
@[simp] theorem Dev.incSat_r (o j : Nat) : (d.incSat o).r j = if j = o then BitVec.ofNat 64 (satInc 32 (d.n o)) else d.r j := Dev.w_r ..
@[simp] theorem Dev.addSat_r (o k j : Nat) : (d.addSat o k).r j = if j = o then BitVec.ofNat 64 (satAdd 32 (d.n o) k) else d.r j := Dev.w_r ..
@[simp] theorem Dev.incWrap_r (o j : Nat) : (d.incWrap o).r j = if j = o then BitVec.ofNat 64 ((d.n o + 1) % 2 ^ 32) else d.r j := Dev.w_r ..
@[simp] theorem Dev.emit_r (e : Emit) (j : Nat) : (d.emit e).r j = d.r j := rfl
@[simp] theorem Dev.answer_r (x : Resp) (j : Nat) : (d.answer x).r j = d.r j := rfl
@[simp] theorem Dev.onMedia_r (g : Media → Media) (j : Nat) : (d.onMedia g).r j = d.r j := rfl
@[simp] theorem Dev.emit_n (e : Emit) (j : Nat) : (d.emit e).n j = d.n j := rfl
@[simp] theorem Dev.answer_n (x : Resp) (j : Nat) : (d.answer x).n j = d.n j := rfl

@[simp] theorem Dev.wn_hbmStacks (o n : Nat) : (d.wn o n).hbmStacks = d.hbmStacks := rfl
@[simp] theorem Dev.wn_ioDies (o n : Nat) : (d.wn o n).ioDies = d.ioDies := rfl
@[simp] theorem Dev.wn_stepping (o n : Nat) : (d.wn o n).stepping = d.stepping := rfl
@[simp] theorem Dev.wn_staged (o n : Nat) : (d.wn o n).staged = d.staged := rfl
@[simp] theorem Dev.wn_now (o n : Nat) : (d.wn o n).now = d.now := rfl
@[simp] theorem Dev.wn_time (o n : Nat) : (d.wn o n).time = d.time := rfl
@[simp] theorem Dev.wn_start (o n : Nat) : (d.wn o n).start = d.start := rfl
@[simp] theorem Dev.wn_sp (o n : Nat) : (d.wn o n).sp = d.sp := rfl
@[simp] theorem Dev.wn_clampFrom (o n : Nat) : (d.wn o n).clampFrom = d.clampFrom := rfl
@[simp] theorem Dev.wn_badDb (o n : Nat) : (d.wn o n).badDb = d.badDb := rfl
@[simp] theorem Dev.wn_badLater (o n : Nat) : (d.wn o n).badLater = d.badLater := rfl
@[simp] theorem Dev.wn_safetyReset (o n : Nat) : (d.wn o n).safetyReset = d.safetyReset := rfl
@[simp] theorem Dev.wn_cmds (o n : Nat) : (d.wn o n).cmds = d.cmds := rfl
@[simp] theorem Dev.wn_nextCmd (o n : Nat) : (d.wn o n).nextCmd = d.nextCmd := rfl
@[simp] theorem Dev.wn_insts (o n : Nat) : (d.wn o n).insts = d.insts := rfl
@[simp] theorem Dev.wn_plans (o n : Nat) : (d.wn o n).plans = d.plans := rfl
@[simp] theorem Dev.wn_parts (o n : Nat) : (d.wn o n).parts = d.parts := rfl
@[simp] theorem Dev.wn_tiles (o n : Nat) : (d.wn o n).tiles = d.tiles := rfl
@[simp] theorem Dev.wn_banks (o n : Nat) : (d.wn o n).banks = d.banks := rfl
@[simp] theorem Dev.wn_fresh (o n : Nat) : (d.wn o n).fresh = d.fresh := rfl
@[simp] theorem Dev.wn_resp (o n : Nat) : (d.wn o n).resp = d.resp := rfl
@[simp] theorem Dev.wn_out (o n : Nat) : (d.wn o n).out = d.out := rfl
@[simp] theorem Dev.wn_cores (o n : Nat) : (d.wn o n).cores = d.cores := rfl
@[simp] theorem Dev.wn_keeper (o n : Nat) : (d.wn o n).keeper = d.keeper := rfl
@[simp] theorem Dev.wn_judge (o n : Nat) : (d.wn o n).judge = d.judge := rfl
@[simp] theorem Dev.wn_pairs (o n : Nat) : (d.wn o n).pairs = d.pairs := rfl
@[simp] theorem Dev.wn_kv (o n : Nat) : (d.wn o n).kv = d.kv := rfl
@[simp] theorem Dev.wn_sched (o n : Nat) : (d.wn o n).sched = d.sched := rfl
@[simp] theorem Dev.wn_media (o n : Nat) : (d.wn o n).media = d.media := rfl
@[simp] theorem Dev.wn_discards (o n : Nat) : (d.wn o n).discards = d.discards := rfl
@[simp] theorem Dev.wn_umps (o n : Nat) : (d.wn o n).umps = d.umps := rfl
@[simp] theorem Dev.wn_bridge (o n : Nat) : (d.wn o n).bridge = d.bridge := rfl
@[simp] theorem Dev.wn_gw (o n : Nat) : (d.wn o n).gw = d.gw := rfl
@[simp] theorem Dev.wn_dma (o n : Nat) : (d.wn o n).dma = d.dma := rfl
@[simp] theorem Dev.wn_vox (o n : Nat) : (d.wn o n).vox = d.vox := rfl
@[simp] theorem Dev.wn_wdg (o n : Nat) : (d.wn o n).wdg = d.wdg := rfl
@[simp] theorem Dev.wn_power (o n : Nat) : (d.wn o n).power = d.power := rfl
@[simp] theorem Dev.wn_tap (o n : Nat) : (d.wn o n).tap = d.tap := rfl
@[simp] theorem Dev.wn_peers (o n : Nat) : (d.wn o n).peers = d.peers := rfl
@[simp] theorem Dev.wn_peerStacks (o n : Nat) : (d.wn o n).peerStacks = d.peerStacks := rfl
@[simp] theorem Dev.wn_linkFails (o n : Nat) : (d.wn o n).linkFails = d.linkFails := rfl

@[simp] theorem Dev.setF_hbmStacks (o hi lo x : Nat) : (d.setF o hi lo x).hbmStacks = d.hbmStacks := rfl
@[simp] theorem Dev.setF_ioDies (o hi lo x : Nat) : (d.setF o hi lo x).ioDies = d.ioDies := rfl
@[simp] theorem Dev.setF_stepping (o hi lo x : Nat) : (d.setF o hi lo x).stepping = d.stepping := rfl
@[simp] theorem Dev.setF_staged (o hi lo x : Nat) : (d.setF o hi lo x).staged = d.staged := rfl
@[simp] theorem Dev.setF_now (o hi lo x : Nat) : (d.setF o hi lo x).now = d.now := rfl
@[simp] theorem Dev.setF_time (o hi lo x : Nat) : (d.setF o hi lo x).time = d.time := rfl
@[simp] theorem Dev.setF_start (o hi lo x : Nat) : (d.setF o hi lo x).start = d.start := rfl
@[simp] theorem Dev.setF_sp (o hi lo x : Nat) : (d.setF o hi lo x).sp = d.sp := rfl
@[simp] theorem Dev.setF_clampFrom (o hi lo x : Nat) : (d.setF o hi lo x).clampFrom = d.clampFrom := rfl
@[simp] theorem Dev.setF_badDb (o hi lo x : Nat) : (d.setF o hi lo x).badDb = d.badDb := rfl
@[simp] theorem Dev.setF_badLater (o hi lo x : Nat) : (d.setF o hi lo x).badLater = d.badLater := rfl
@[simp] theorem Dev.setF_safetyReset (o hi lo x : Nat) : (d.setF o hi lo x).safetyReset = d.safetyReset := rfl
@[simp] theorem Dev.setF_cmds (o hi lo x : Nat) : (d.setF o hi lo x).cmds = d.cmds := rfl
@[simp] theorem Dev.setF_nextCmd (o hi lo x : Nat) : (d.setF o hi lo x).nextCmd = d.nextCmd := rfl
@[simp] theorem Dev.setF_insts (o hi lo x : Nat) : (d.setF o hi lo x).insts = d.insts := rfl
@[simp] theorem Dev.setF_plans (o hi lo x : Nat) : (d.setF o hi lo x).plans = d.plans := rfl
@[simp] theorem Dev.setF_parts (o hi lo x : Nat) : (d.setF o hi lo x).parts = d.parts := rfl
@[simp] theorem Dev.setF_tiles (o hi lo x : Nat) : (d.setF o hi lo x).tiles = d.tiles := rfl
@[simp] theorem Dev.setF_banks (o hi lo x : Nat) : (d.setF o hi lo x).banks = d.banks := rfl
@[simp] theorem Dev.setF_fresh (o hi lo x : Nat) : (d.setF o hi lo x).fresh = d.fresh := rfl
@[simp] theorem Dev.setF_resp (o hi lo x : Nat) : (d.setF o hi lo x).resp = d.resp := rfl
@[simp] theorem Dev.setF_out (o hi lo x : Nat) : (d.setF o hi lo x).out = d.out := rfl
@[simp] theorem Dev.setF_cores (o hi lo x : Nat) : (d.setF o hi lo x).cores = d.cores := rfl
@[simp] theorem Dev.setF_keeper (o hi lo x : Nat) : (d.setF o hi lo x).keeper = d.keeper := rfl
@[simp] theorem Dev.setF_judge (o hi lo x : Nat) : (d.setF o hi lo x).judge = d.judge := rfl
@[simp] theorem Dev.setF_pairs (o hi lo x : Nat) : (d.setF o hi lo x).pairs = d.pairs := rfl
@[simp] theorem Dev.setF_kv (o hi lo x : Nat) : (d.setF o hi lo x).kv = d.kv := rfl
@[simp] theorem Dev.setF_sched (o hi lo x : Nat) : (d.setF o hi lo x).sched = d.sched := rfl
@[simp] theorem Dev.setF_media (o hi lo x : Nat) : (d.setF o hi lo x).media = d.media := rfl
@[simp] theorem Dev.setF_discards (o hi lo x : Nat) : (d.setF o hi lo x).discards = d.discards := rfl
@[simp] theorem Dev.setF_umps (o hi lo x : Nat) : (d.setF o hi lo x).umps = d.umps := rfl
@[simp] theorem Dev.setF_bridge (o hi lo x : Nat) : (d.setF o hi lo x).bridge = d.bridge := rfl
@[simp] theorem Dev.setF_gw (o hi lo x : Nat) : (d.setF o hi lo x).gw = d.gw := rfl
@[simp] theorem Dev.setF_dma (o hi lo x : Nat) : (d.setF o hi lo x).dma = d.dma := rfl
@[simp] theorem Dev.setF_vox (o hi lo x : Nat) : (d.setF o hi lo x).vox = d.vox := rfl
@[simp] theorem Dev.setF_wdg (o hi lo x : Nat) : (d.setF o hi lo x).wdg = d.wdg := rfl
@[simp] theorem Dev.setF_power (o hi lo x : Nat) : (d.setF o hi lo x).power = d.power := rfl
@[simp] theorem Dev.setF_tap (o hi lo x : Nat) : (d.setF o hi lo x).tap = d.tap := rfl
@[simp] theorem Dev.setF_peers (o hi lo x : Nat) : (d.setF o hi lo x).peers = d.peers := rfl
@[simp] theorem Dev.setF_peerStacks (o hi lo x : Nat) : (d.setF o hi lo x).peerStacks = d.peerStacks := rfl
@[simp] theorem Dev.setF_linkFails (o hi lo x : Nat) : (d.setF o hi lo x).linkFails = d.linkFails := rfl

@[simp] theorem Dev.setB_hbmStacks (o b : Nat) (x : Bool) : (d.setB o b x).hbmStacks = d.hbmStacks := rfl
@[simp] theorem Dev.setB_ioDies (o b : Nat) (x : Bool) : (d.setB o b x).ioDies = d.ioDies := rfl
@[simp] theorem Dev.setB_stepping (o b : Nat) (x : Bool) : (d.setB o b x).stepping = d.stepping := rfl
@[simp] theorem Dev.setB_staged (o b : Nat) (x : Bool) : (d.setB o b x).staged = d.staged := rfl
@[simp] theorem Dev.setB_now (o b : Nat) (x : Bool) : (d.setB o b x).now = d.now := rfl
@[simp] theorem Dev.setB_time (o b : Nat) (x : Bool) : (d.setB o b x).time = d.time := rfl
@[simp] theorem Dev.setB_start (o b : Nat) (x : Bool) : (d.setB o b x).start = d.start := rfl
@[simp] theorem Dev.setB_sp (o b : Nat) (x : Bool) : (d.setB o b x).sp = d.sp := rfl
@[simp] theorem Dev.setB_clampFrom (o b : Nat) (x : Bool) : (d.setB o b x).clampFrom = d.clampFrom := rfl
@[simp] theorem Dev.setB_badDb (o b : Nat) (x : Bool) : (d.setB o b x).badDb = d.badDb := rfl
@[simp] theorem Dev.setB_badLater (o b : Nat) (x : Bool) : (d.setB o b x).badLater = d.badLater := rfl
@[simp] theorem Dev.setB_safetyReset (o b : Nat) (x : Bool) : (d.setB o b x).safetyReset = d.safetyReset := rfl
@[simp] theorem Dev.setB_cmds (o b : Nat) (x : Bool) : (d.setB o b x).cmds = d.cmds := rfl
@[simp] theorem Dev.setB_nextCmd (o b : Nat) (x : Bool) : (d.setB o b x).nextCmd = d.nextCmd := rfl
@[simp] theorem Dev.setB_insts (o b : Nat) (x : Bool) : (d.setB o b x).insts = d.insts := rfl
@[simp] theorem Dev.setB_plans (o b : Nat) (x : Bool) : (d.setB o b x).plans = d.plans := rfl
@[simp] theorem Dev.setB_parts (o b : Nat) (x : Bool) : (d.setB o b x).parts = d.parts := rfl
@[simp] theorem Dev.setB_tiles (o b : Nat) (x : Bool) : (d.setB o b x).tiles = d.tiles := rfl
@[simp] theorem Dev.setB_banks (o b : Nat) (x : Bool) : (d.setB o b x).banks = d.banks := rfl
@[simp] theorem Dev.setB_fresh (o b : Nat) (x : Bool) : (d.setB o b x).fresh = d.fresh := rfl
@[simp] theorem Dev.setB_resp (o b : Nat) (x : Bool) : (d.setB o b x).resp = d.resp := rfl
@[simp] theorem Dev.setB_out (o b : Nat) (x : Bool) : (d.setB o b x).out = d.out := rfl
@[simp] theorem Dev.setB_cores (o b : Nat) (x : Bool) : (d.setB o b x).cores = d.cores := rfl
@[simp] theorem Dev.setB_keeper (o b : Nat) (x : Bool) : (d.setB o b x).keeper = d.keeper := rfl
@[simp] theorem Dev.setB_judge (o b : Nat) (x : Bool) : (d.setB o b x).judge = d.judge := rfl
@[simp] theorem Dev.setB_pairs (o b : Nat) (x : Bool) : (d.setB o b x).pairs = d.pairs := rfl
@[simp] theorem Dev.setB_kv (o b : Nat) (x : Bool) : (d.setB o b x).kv = d.kv := rfl
@[simp] theorem Dev.setB_sched (o b : Nat) (x : Bool) : (d.setB o b x).sched = d.sched := rfl
@[simp] theorem Dev.setB_media (o b : Nat) (x : Bool) : (d.setB o b x).media = d.media := rfl
@[simp] theorem Dev.setB_discards (o b : Nat) (x : Bool) : (d.setB o b x).discards = d.discards := rfl
@[simp] theorem Dev.setB_umps (o b : Nat) (x : Bool) : (d.setB o b x).umps = d.umps := rfl
@[simp] theorem Dev.setB_bridge (o b : Nat) (x : Bool) : (d.setB o b x).bridge = d.bridge := rfl
@[simp] theorem Dev.setB_gw (o b : Nat) (x : Bool) : (d.setB o b x).gw = d.gw := rfl
@[simp] theorem Dev.setB_dma (o b : Nat) (x : Bool) : (d.setB o b x).dma = d.dma := rfl
@[simp] theorem Dev.setB_vox (o b : Nat) (x : Bool) : (d.setB o b x).vox = d.vox := rfl
@[simp] theorem Dev.setB_wdg (o b : Nat) (x : Bool) : (d.setB o b x).wdg = d.wdg := rfl
@[simp] theorem Dev.setB_power (o b : Nat) (x : Bool) : (d.setB o b x).power = d.power := rfl
@[simp] theorem Dev.setB_tap (o b : Nat) (x : Bool) : (d.setB o b x).tap = d.tap := rfl
@[simp] theorem Dev.setB_peers (o b : Nat) (x : Bool) : (d.setB o b x).peers = d.peers := rfl
@[simp] theorem Dev.setB_peerStacks (o b : Nat) (x : Bool) : (d.setB o b x).peerStacks = d.peerStacks := rfl
@[simp] theorem Dev.setB_linkFails (o b : Nat) (x : Bool) : (d.setB o b x).linkFails = d.linkFails := rfl

@[simp] theorem Dev.incSat_hbmStacks (o : Nat) : (d.incSat o).hbmStacks = d.hbmStacks := rfl
@[simp] theorem Dev.incSat_ioDies (o : Nat) : (d.incSat o).ioDies = d.ioDies := rfl
@[simp] theorem Dev.incSat_stepping (o : Nat) : (d.incSat o).stepping = d.stepping := rfl
@[simp] theorem Dev.incSat_staged (o : Nat) : (d.incSat o).staged = d.staged := rfl
@[simp] theorem Dev.incSat_now (o : Nat) : (d.incSat o).now = d.now := rfl
@[simp] theorem Dev.incSat_time (o : Nat) : (d.incSat o).time = d.time := rfl
@[simp] theorem Dev.incSat_start (o : Nat) : (d.incSat o).start = d.start := rfl
@[simp] theorem Dev.incSat_sp (o : Nat) : (d.incSat o).sp = d.sp := rfl
@[simp] theorem Dev.incSat_clampFrom (o : Nat) : (d.incSat o).clampFrom = d.clampFrom := rfl
@[simp] theorem Dev.incSat_badDb (o : Nat) : (d.incSat o).badDb = d.badDb := rfl
@[simp] theorem Dev.incSat_badLater (o : Nat) : (d.incSat o).badLater = d.badLater := rfl
@[simp] theorem Dev.incSat_safetyReset (o : Nat) : (d.incSat o).safetyReset = d.safetyReset := rfl
@[simp] theorem Dev.incSat_cmds (o : Nat) : (d.incSat o).cmds = d.cmds := rfl
@[simp] theorem Dev.incSat_nextCmd (o : Nat) : (d.incSat o).nextCmd = d.nextCmd := rfl
@[simp] theorem Dev.incSat_insts (o : Nat) : (d.incSat o).insts = d.insts := rfl
@[simp] theorem Dev.incSat_plans (o : Nat) : (d.incSat o).plans = d.plans := rfl
@[simp] theorem Dev.incSat_parts (o : Nat) : (d.incSat o).parts = d.parts := rfl
@[simp] theorem Dev.incSat_tiles (o : Nat) : (d.incSat o).tiles = d.tiles := rfl
@[simp] theorem Dev.incSat_banks (o : Nat) : (d.incSat o).banks = d.banks := rfl
@[simp] theorem Dev.incSat_fresh (o : Nat) : (d.incSat o).fresh = d.fresh := rfl
@[simp] theorem Dev.incSat_resp (o : Nat) : (d.incSat o).resp = d.resp := rfl
@[simp] theorem Dev.incSat_out (o : Nat) : (d.incSat o).out = d.out := rfl
@[simp] theorem Dev.incSat_cores (o : Nat) : (d.incSat o).cores = d.cores := rfl
@[simp] theorem Dev.incSat_keeper (o : Nat) : (d.incSat o).keeper = d.keeper := rfl
@[simp] theorem Dev.incSat_judge (o : Nat) : (d.incSat o).judge = d.judge := rfl
@[simp] theorem Dev.incSat_pairs (o : Nat) : (d.incSat o).pairs = d.pairs := rfl
@[simp] theorem Dev.incSat_kv (o : Nat) : (d.incSat o).kv = d.kv := rfl
@[simp] theorem Dev.incSat_sched (o : Nat) : (d.incSat o).sched = d.sched := rfl
@[simp] theorem Dev.incSat_media (o : Nat) : (d.incSat o).media = d.media := rfl
@[simp] theorem Dev.incSat_discards (o : Nat) : (d.incSat o).discards = d.discards := rfl
@[simp] theorem Dev.incSat_umps (o : Nat) : (d.incSat o).umps = d.umps := rfl
@[simp] theorem Dev.incSat_bridge (o : Nat) : (d.incSat o).bridge = d.bridge := rfl
@[simp] theorem Dev.incSat_gw (o : Nat) : (d.incSat o).gw = d.gw := rfl
@[simp] theorem Dev.incSat_dma (o : Nat) : (d.incSat o).dma = d.dma := rfl
@[simp] theorem Dev.incSat_vox (o : Nat) : (d.incSat o).vox = d.vox := rfl
@[simp] theorem Dev.incSat_wdg (o : Nat) : (d.incSat o).wdg = d.wdg := rfl
@[simp] theorem Dev.incSat_power (o : Nat) : (d.incSat o).power = d.power := rfl
@[simp] theorem Dev.incSat_tap (o : Nat) : (d.incSat o).tap = d.tap := rfl
@[simp] theorem Dev.incSat_peers (o : Nat) : (d.incSat o).peers = d.peers := rfl
@[simp] theorem Dev.incSat_peerStacks (o : Nat) : (d.incSat o).peerStacks = d.peerStacks := rfl
@[simp] theorem Dev.incSat_linkFails (o : Nat) : (d.incSat o).linkFails = d.linkFails := rfl

@[simp] theorem Dev.addSat_hbmStacks (o k : Nat) : (d.addSat o k).hbmStacks = d.hbmStacks := rfl
@[simp] theorem Dev.addSat_ioDies (o k : Nat) : (d.addSat o k).ioDies = d.ioDies := rfl
@[simp] theorem Dev.addSat_stepping (o k : Nat) : (d.addSat o k).stepping = d.stepping := rfl
@[simp] theorem Dev.addSat_staged (o k : Nat) : (d.addSat o k).staged = d.staged := rfl
@[simp] theorem Dev.addSat_now (o k : Nat) : (d.addSat o k).now = d.now := rfl
@[simp] theorem Dev.addSat_time (o k : Nat) : (d.addSat o k).time = d.time := rfl
@[simp] theorem Dev.addSat_start (o k : Nat) : (d.addSat o k).start = d.start := rfl
@[simp] theorem Dev.addSat_sp (o k : Nat) : (d.addSat o k).sp = d.sp := rfl
@[simp] theorem Dev.addSat_clampFrom (o k : Nat) : (d.addSat o k).clampFrom = d.clampFrom := rfl
@[simp] theorem Dev.addSat_badDb (o k : Nat) : (d.addSat o k).badDb = d.badDb := rfl
@[simp] theorem Dev.addSat_badLater (o k : Nat) : (d.addSat o k).badLater = d.badLater := rfl
@[simp] theorem Dev.addSat_safetyReset (o k : Nat) : (d.addSat o k).safetyReset = d.safetyReset := rfl
@[simp] theorem Dev.addSat_cmds (o k : Nat) : (d.addSat o k).cmds = d.cmds := rfl
@[simp] theorem Dev.addSat_nextCmd (o k : Nat) : (d.addSat o k).nextCmd = d.nextCmd := rfl
@[simp] theorem Dev.addSat_insts (o k : Nat) : (d.addSat o k).insts = d.insts := rfl
@[simp] theorem Dev.addSat_plans (o k : Nat) : (d.addSat o k).plans = d.plans := rfl
@[simp] theorem Dev.addSat_parts (o k : Nat) : (d.addSat o k).parts = d.parts := rfl
@[simp] theorem Dev.addSat_tiles (o k : Nat) : (d.addSat o k).tiles = d.tiles := rfl
@[simp] theorem Dev.addSat_banks (o k : Nat) : (d.addSat o k).banks = d.banks := rfl
@[simp] theorem Dev.addSat_fresh (o k : Nat) : (d.addSat o k).fresh = d.fresh := rfl
@[simp] theorem Dev.addSat_resp (o k : Nat) : (d.addSat o k).resp = d.resp := rfl
@[simp] theorem Dev.addSat_out (o k : Nat) : (d.addSat o k).out = d.out := rfl
@[simp] theorem Dev.addSat_cores (o k : Nat) : (d.addSat o k).cores = d.cores := rfl
@[simp] theorem Dev.addSat_keeper (o k : Nat) : (d.addSat o k).keeper = d.keeper := rfl
@[simp] theorem Dev.addSat_judge (o k : Nat) : (d.addSat o k).judge = d.judge := rfl
@[simp] theorem Dev.addSat_pairs (o k : Nat) : (d.addSat o k).pairs = d.pairs := rfl
@[simp] theorem Dev.addSat_kv (o k : Nat) : (d.addSat o k).kv = d.kv := rfl
@[simp] theorem Dev.addSat_sched (o k : Nat) : (d.addSat o k).sched = d.sched := rfl
@[simp] theorem Dev.addSat_media (o k : Nat) : (d.addSat o k).media = d.media := rfl
@[simp] theorem Dev.addSat_discards (o k : Nat) : (d.addSat o k).discards = d.discards := rfl
@[simp] theorem Dev.addSat_umps (o k : Nat) : (d.addSat o k).umps = d.umps := rfl
@[simp] theorem Dev.addSat_bridge (o k : Nat) : (d.addSat o k).bridge = d.bridge := rfl
@[simp] theorem Dev.addSat_gw (o k : Nat) : (d.addSat o k).gw = d.gw := rfl
@[simp] theorem Dev.addSat_dma (o k : Nat) : (d.addSat o k).dma = d.dma := rfl
@[simp] theorem Dev.addSat_vox (o k : Nat) : (d.addSat o k).vox = d.vox := rfl
@[simp] theorem Dev.addSat_wdg (o k : Nat) : (d.addSat o k).wdg = d.wdg := rfl
@[simp] theorem Dev.addSat_power (o k : Nat) : (d.addSat o k).power = d.power := rfl
@[simp] theorem Dev.addSat_tap (o k : Nat) : (d.addSat o k).tap = d.tap := rfl
@[simp] theorem Dev.addSat_peers (o k : Nat) : (d.addSat o k).peers = d.peers := rfl
@[simp] theorem Dev.addSat_peerStacks (o k : Nat) : (d.addSat o k).peerStacks = d.peerStacks := rfl
@[simp] theorem Dev.addSat_linkFails (o k : Nat) : (d.addSat o k).linkFails = d.linkFails := rfl

@[simp] theorem Dev.incWrap_hbmStacks (o : Nat) : (d.incWrap o).hbmStacks = d.hbmStacks := rfl
@[simp] theorem Dev.incWrap_ioDies (o : Nat) : (d.incWrap o).ioDies = d.ioDies := rfl
@[simp] theorem Dev.incWrap_stepping (o : Nat) : (d.incWrap o).stepping = d.stepping := rfl
@[simp] theorem Dev.incWrap_staged (o : Nat) : (d.incWrap o).staged = d.staged := rfl
@[simp] theorem Dev.incWrap_now (o : Nat) : (d.incWrap o).now = d.now := rfl
@[simp] theorem Dev.incWrap_time (o : Nat) : (d.incWrap o).time = d.time := rfl
@[simp] theorem Dev.incWrap_start (o : Nat) : (d.incWrap o).start = d.start := rfl
@[simp] theorem Dev.incWrap_sp (o : Nat) : (d.incWrap o).sp = d.sp := rfl
@[simp] theorem Dev.incWrap_clampFrom (o : Nat) : (d.incWrap o).clampFrom = d.clampFrom := rfl
@[simp] theorem Dev.incWrap_badDb (o : Nat) : (d.incWrap o).badDb = d.badDb := rfl
@[simp] theorem Dev.incWrap_badLater (o : Nat) : (d.incWrap o).badLater = d.badLater := rfl
@[simp] theorem Dev.incWrap_safetyReset (o : Nat) : (d.incWrap o).safetyReset = d.safetyReset := rfl
@[simp] theorem Dev.incWrap_cmds (o : Nat) : (d.incWrap o).cmds = d.cmds := rfl
@[simp] theorem Dev.incWrap_nextCmd (o : Nat) : (d.incWrap o).nextCmd = d.nextCmd := rfl
@[simp] theorem Dev.incWrap_insts (o : Nat) : (d.incWrap o).insts = d.insts := rfl
@[simp] theorem Dev.incWrap_plans (o : Nat) : (d.incWrap o).plans = d.plans := rfl
@[simp] theorem Dev.incWrap_parts (o : Nat) : (d.incWrap o).parts = d.parts := rfl
@[simp] theorem Dev.incWrap_tiles (o : Nat) : (d.incWrap o).tiles = d.tiles := rfl
@[simp] theorem Dev.incWrap_banks (o : Nat) : (d.incWrap o).banks = d.banks := rfl
@[simp] theorem Dev.incWrap_fresh (o : Nat) : (d.incWrap o).fresh = d.fresh := rfl
@[simp] theorem Dev.incWrap_resp (o : Nat) : (d.incWrap o).resp = d.resp := rfl
@[simp] theorem Dev.incWrap_out (o : Nat) : (d.incWrap o).out = d.out := rfl
@[simp] theorem Dev.incWrap_cores (o : Nat) : (d.incWrap o).cores = d.cores := rfl
@[simp] theorem Dev.incWrap_keeper (o : Nat) : (d.incWrap o).keeper = d.keeper := rfl
@[simp] theorem Dev.incWrap_judge (o : Nat) : (d.incWrap o).judge = d.judge := rfl
@[simp] theorem Dev.incWrap_pairs (o : Nat) : (d.incWrap o).pairs = d.pairs := rfl
@[simp] theorem Dev.incWrap_kv (o : Nat) : (d.incWrap o).kv = d.kv := rfl
@[simp] theorem Dev.incWrap_sched (o : Nat) : (d.incWrap o).sched = d.sched := rfl
@[simp] theorem Dev.incWrap_media (o : Nat) : (d.incWrap o).media = d.media := rfl
@[simp] theorem Dev.incWrap_discards (o : Nat) : (d.incWrap o).discards = d.discards := rfl
@[simp] theorem Dev.incWrap_umps (o : Nat) : (d.incWrap o).umps = d.umps := rfl
@[simp] theorem Dev.incWrap_bridge (o : Nat) : (d.incWrap o).bridge = d.bridge := rfl
@[simp] theorem Dev.incWrap_gw (o : Nat) : (d.incWrap o).gw = d.gw := rfl
@[simp] theorem Dev.incWrap_dma (o : Nat) : (d.incWrap o).dma = d.dma := rfl
@[simp] theorem Dev.incWrap_vox (o : Nat) : (d.incWrap o).vox = d.vox := rfl
@[simp] theorem Dev.incWrap_wdg (o : Nat) : (d.incWrap o).wdg = d.wdg := rfl
@[simp] theorem Dev.incWrap_power (o : Nat) : (d.incWrap o).power = d.power := rfl
@[simp] theorem Dev.incWrap_tap (o : Nat) : (d.incWrap o).tap = d.tap := rfl
@[simp] theorem Dev.incWrap_peers (o : Nat) : (d.incWrap o).peers = d.peers := rfl
@[simp] theorem Dev.incWrap_peerStacks (o : Nat) : (d.incWrap o).peerStacks = d.peerStacks := rfl
@[simp] theorem Dev.incWrap_linkFails (o : Nat) : (d.incWrap o).linkFails = d.linkFails := rfl

end Sys2Proof.Machine
end

