-- ==== Sys2Proof/WellFormed.lean ====
section
/-! DEFINITION. WellFormed.lean: which commands the block's interface can carry: every number an operand names lies in the spec's range for it. -/

namespace Sys2Proof

/-- The master is one the spec names (R544). -/
def Master.wf : Master → Bool
  | .core n => decide (n < 16)
  | .mgmtRom => true
  | .mgmt => true
  | .island p => decide (p < 8)
  | .lineJudge => true
  | .pcie port _ => decide (port < 2)
  | .dma c => decide (c < 16)
  | .tile t => decide (t < 64)
  | .qe i => decide (i < 256)
  | .display p => decide (p < 6)
  | .camera c => decide (c < 16)
  | .codec s => decide (s < 16)
  | .gwRing r => decide (r < 48)
  | .pageMgr => true
  | .gwTables => true
  | .binPool => true
  | .peer m _ => decide (m < 4)

/-- The fields of a boot-fetch header fit their bytes (R73). -/
def FetchHdr.wf (h : FetchHdr) : Bool :=
  decide (h.magic < 2 ^ 16 ∧ h.version < 2 ^ 8 ∧ h.session < 2 ^ 32 ∧ h.block < 2 ^ 32 ∧ h.length < 2 ^ 16)

/-- The doorbell is one of R98 or R488. -/
def DbTarget.wf : DbTarget → Bool
  | .ring i r => decide (i < 256 ∧ r < 16)
  | .session s => decide (s < 16)

/-- A tile's junction temperature fits TILE_TEMP (R183). -/
def tempWf (x : Nat × Int) : Bool := decide (x.1 < 64 ∧ -32768 ≤ x.2 ∧ x.2 < 32768)

/-- The class of an umpire's event is one of 16 (R381). -/
def UmpEvent.wf : UmpEvent → Bool
  | .arrive _ a _ => decide (a < 2 ^ 52)
  | .drop c _ => decide (c < 16)
  | .burst => true
  | .stall => true
  | .recovery => true

/-- The tiles that an engine operation names are tiles, its token counter one of 64 (R136), its squad one of 64 (R151). -/
def PlanOp.wf : PlanOp → Bool
  | .block t _ _ _ _ tok _ => decide (t < 64 ∧ tok < 64)
  | .reads t _ _ => decide (t < 64)
  | .arrive t _ _ => decide (t < 64)
  | .release t => decide (t < 64)
  | .wait t c _ => decide (t < 64 ∧ c < 64)
  | .token t dst c => decide (t < 64 ∧ dst < 64 ∧ c < 64)
  | .matClear t half => decide (t < 64 ∧ half < 2)
  | .matStep t _ _ _ _ _ _ => decide (t < 64)
  | .attStart t row _ _ _ => decide (t < 64 ∧ row < 512)
  | .attBlock t row _ _ _ _ => decide (t < 64 ∧ row < 512)
  | .attEnd t row _ => decide (t < 64 ∧ row < 512)
  | .launch _ _ => true
  | .group t _ => decide (t < 64)
  | .groupEnd t _ _ => decide (t < 64)
  | .barrier t sq => decide (t < 64 ∧ sq < 64)
  | .active t sq _ => decide (t < 64 ∧ sq < 64)
  | .vec t sq _ _ _ _ _ => decide (t < 64 ∧ sq < 64)
  | .vecImm t sq _ _ => decide (t < 64 ∧ sq < 64)
  | .scan t sq _ _ _ _ _ => decide (t < 64 ∧ sq < 64)
  | .vload t sq _ _ _ _ _ => decide (t < 64 ∧ sq < 64)
  | .vstore t sq _ _ _ _ => decide (t < 64 ∧ sq < 64)
  | .gather t sq _ _ _ _ _ => decide (t < 64 ∧ sq < 64)
  | .convert t _ _ _ => decide (t < 64)
  | .store t _ _ _ _ _ => decide (t < 64)
  | .append _ _ => true
  | .index t _ _ => decide (t < 64)
  | .tileWrite t _ _ _ _ => decide (t < 64)
  | .scout t _ _ _ _ => decide (t < 64)
  | .pool t _ _ _ _ _ => decide (t < 64)
  | .taps t _ _ _ => decide (t < 64)
  | .norm t _ _ _ _ _ _ _ => decide (t < 64)
  | .merge t _ _ _ => decide (t < 64)
  | .activation t _ _ _ _ => decide (t < 64)
  | .route _ _ _ => true
  | .expertRows _ _ u _ _ _ => decide (u < 64)
  | .expertOut _ _ u _ _ _ => decide (u < 64)
  | .combine t _ _ _ _ _ => decide (t < 64)
  | .cycles t _ _ => decide (t < 64)
  | .eccTile t _ => decide (t < 64)
  | .eccScratch t _ _ => decide (t < 64)
  | .retransmit t _ => decide (t < 64)
  | .done _ => true

/-- A boot-fetch message's sender has an address, its header fits its fields, and its length is a packet's. -/
def FetchMsg.wf (m : FetchMsg) : Bool := decide (m.src.length = 16) && m.h.wf && decide (m.payload < 2 ^ 16)

/-- The command is one that the interface can carry. -/
def Instr.wf : Instr → Bool
  | .powerGood straps modId modCnt _ => decide (straps < 16) && decide (modId < 4) && decide (modCnt < 4)
  | .keeperTableLoad _ _ => true
  | .warmupComplete failStep w => decide (failStep < 14) && w.untrained.all (fun x => decide (x.1 < 64 ∧ x.2 < 5))
  | .configRecordApply _ _ => true
  | .mgmtLinkUp => true
  | .fetchOffer m imageLen version blockSize =>
    m.wf && decide (imageLen < 2 ^ 32) && decide (version < 2 ^ 32) && decide (blockSize < 2 ^ 32)
  | .fetchData h bytes _ _ _ _ => h.wf && decide (bytes.length < 2 ^ 16)
  | .fetchError m reason => m.wf && decide (reason < 2 ^ 32)
  | .solicitRetry => true
  | .bootDataTimeout block => decide (block < 2 ^ 32)
  | .hbmTrainingDone failed _ => decide (failed < 256)
  | .loaderRelease _ image entry => decide (image.length < 2 ^ 32) && decide (entry < 2 ^ 64)
  | .startCtrlReady m value => m.wf && decide (value < 2 ^ 64)
  | .pcieConfigRequest port => decide (port < 2)
  | .spIdent frame bell => decide (frame.length ≤ 4096) && decide (bell < 256)
  | .spStatus frame bell => decide (frame.length ≤ 4096) && decide (bell < 256)
  | .spClampRead frame bell => decide (frame.length ≤ 4096) && decide (bell < 256)
  | .spKeeperGet frame bell => decide (frame.length ≤ 4096) && decide (bell < 256)
  | .spKeeperSet frame bell => decide (frame.length ≤ 4096) && decide (bell < 256)
  | .spFlashErase frame bell => decide (frame.length ≤ 4096) && decide (bell < 256)
  | .spFlashEraseDone => true
  | .spFlashWrite frame bell => decide (frame.length ≤ 4096) && decide (bell < 256)
  | .spFlashRead frame bell => decide (frame.length ≤ 4096) && decide (bell < 256)
  | .spFlashVerify frame bell => decide (frame.length ≤ 4096) && decide (bell < 256)
  | .overEdge sbDelayPs r =>
    decide (sbDelayPs < 2 ^ 32) && r.bad.all (fun x => decide (x.1 < 64) && x.2.wf) && r.retrained.all (fun x => decide (x.1 < 64 ∧ x.2 < 5)) &&
      r.temps.all tempWf
  | .ballEdge => true
  | .edgeMissed => true
  | .holdoverExpired => true
  | .freeRunWithoutReference => true
  | .referenceLost => true
  | .slewDone => true
  | .sidebandAligned count _ steps balls phase => decide (count < 2 ^ 32) && decide (steps < 512) && decide (balls < 128) && decide (phase < 2 ^ 32)
  | .alignLost => true
  | .timeAdjRate m value => m.wf && decide (value < 2 ^ 64)
  | .timeAdjOffset m value => m.wf && decide (value < 2 ^ 64)
  | .timeSet m ns => m.wf && decide (ns < 2 ^ 32)
  | .timeNowRead m => m.wf
  | .registerWrite m off _ value => m.wf && decide (off < 2 ^ 32) && decide (value < 2 ^ 64)
  | .glbCfgApply m value => m.wf && decide (value < 2 ^ 64)
  | .cfgApply m value => m.wf && decide (value < 2 ^ 64)
  | .qeCfgApply m inst value => m.wf && decide (inst < 256) && decide (value < 2 ^ 64)
  | .tileCfgApply m t value => m.wf && decide (t < 64) && decide (value < 2 ^ 64)
  | .umpCfgApply m k value => m.wf && decide (k < 8) && decide (value < 2 ^ 64)
  | .kvCfgApply m value => m.wf && decide (value < 2 ^ 64)
  | .kvInitDone => true
  | .gfxCfgApply m page value => m.wf && decide (page < 4) && decide (value < 2 ^ 64)
  | .gwCfgApply m page value => m.wf && decide (page < 4) && decide (value < 2 ^ 64)
  | .ibrCfgApply m value => m.wf && decide (value < 2 ^ 64)
  | .islCfgApply m value => m.wf && decide (value < 2 ^ 64)
  | .ljCfgApply m value => m.wf && decide (value < 2 ^ 64)
  | .ljShadowChange => true
  | .kprCfgApply m value => m.wf && decide (value < 2 ^ 64)
  | .stestCfgApply m value => m.wf && decide (value < 2 ^ 64)
  | .wldCfgApply m value => m.wf && decide (value < 2 ^ 64)
  | .pwrCfgApply m value => m.wf && decide (value < 2 ^ 64)
  | .mbxCfgApply m c value => m.wf && decide (c < 16) && decide (value < 2 ^ 64)
  | .ivmCfgApply m value => m.wf && decide (value < 2 ^ 64)
  | .doorbellWrite m db w => m.wf && db.wf && decide (w.value < 2 ^ 64)
  | .commandPickup inst r => decide (inst < 256) && decide (r.ring < 16)
  | .qeCplConsWrite m inst c value => m.wf && decide (inst < 256) && decide (c < 16) && decide (value < 2 ^ 64)
  | .runPlan _ ops => ops.all PlanOp.wf
  | .loadPlan _ _ _ => true
  | .evictPlan _ => true
  | .copy _ _ => true
  | .fill _ => true
  | .check _ _ => true
  | .kvAlloc _ => true
  | .kvFree _ => true
  | .kvFork _ => true
  | .drawList _ _ => true
  | .fence _ => true
  | .timestamp _ => true
  | .send _ _ => true
  | .commandStart _ => true
  | .planLoadStart _ => true
  | .planLoadDone _ => true
  | .commitPoint _ => true
  | .tileKill _ => true
  | .runaheadDiscard addr => decide (addr < 2 ^ 64)
  | .budgetOverrunKill _ => true
  | .safetyBudgetElapsed _ => true
  | .teardownComplete inst => decide (inst < 256)
  | .schPartReset m p value => m.wf && decide (p < 8) && decide (value < 2 ^ 64)
  | .partitionResetEnd p => decide (p < 8)
  | .instancePartitionChange inst => decide (inst < 256)
  | .freeze m inst => m.wf && decide (inst < 256)
  | .freezeDone inst => decide (inst < 256)
  | .save m inst => m.wf && decide (inst < 256)
  | .saveDone inst => decide (inst < 256)
  | .restore m inst => m.wf && decide (inst < 256)
  | .restoreDone inst _ _ => decide (inst < 256)
  | .thaw m inst => m.wf && decide (inst < 256)
  | .discard m inst => m.wf && decide (inst < 256)
  | .kvRsvSeqChange r => decide (r < 512)
  | .bankHandover t b => decide (t < 64) && decide (b < 32)
  | .scratchpadMainAccess m addr _ bytes _ _ => m.wf && decide (addr < 2 ^ 64) && decide (bytes.length < 2 ^ 32)
  | .btestRegion t _ _ => decide (t < 64)
  | .thermalDerate t temp => tempWf (t, temp)
  | .derateRelease t temp => tempWf (t, temp)
  | .routerLinkFail t link _ => decide (t < 64) && decide (link < 5)
  | .umpireWindow k p traffic => decide (k < 8) && decide (p < 32) && traffic.all UmpEvent.wf
  | .hpRequest _ _ addr _ => decide (addr < 2 ^ 52)
  | .umpCntClear m k value => m.wf && decide (k < 8) && decide (value < 2 ^ 64)
  | .refresh2x k _ => decide (k < 8)
  | .islandRead p addr _ _ _ _ => decide (p < 8) && decide (addr < 2 ^ 64)
  | .readTimeout p addr => decide (p < 8) && decide (addr < 2 ^ 64)
  | .islandWrite p addr bytes _ _ => decide (p < 8) && decide (addr < 2 ^ 64) && decide (bytes.length < 2 ^ 32)
  | .writeError => true
  | .mainIslandAccess m addr _ bytes _ _ _ _ => m.wf && decide (addr < 2 ^ 64) && decide (bytes.length < 2 ^ 32)
  | .mainTimeout m addr _ bytes _ _ => m.wf && decide (addr < 2 ^ 64) && decide (bytes.length < 2 ^ 32)
  | .exclusiveLoad p addr _ _ => decide (p < 8) && decide (addr < 2 ^ 64)
  | .exclusiveStore p addr bytes => decide (p < 8) && decide (addr < 2 ^ 64) && decide (bytes.length < 2 ^ 32)
  | .lockedReadWrite p addr bytes _ => decide (p < 8) && decide (addr < 2 ^ 64) && decide (bytes.length < 2 ^ 32)
  | .atomicOperation p addr width _ _ _ => decide (p < 8) && decide (addr < 2 ^ 64) && (width == 4 || width == 8)
  | .semaphoreClear m addr bytes => m.wf && decide (addr < 2 ^ 64) && decide (bytes.length < 2 ^ 32)
  | .lineJudgeCompare _ => true
  | .kprRelease m value => m.wf && decide (value < 2 ^ 64)
  | .lockstepMismatch p _ retired => decide (p < 2) && decide (retired < 2 ^ 64)
  | .pairRestart p => decide (p < 2)
  | .keeperSelfMismatch => true
  | .keeperLoopStep l code => decide (l < 64) && decide (code < 4096)
  | .keeperCanReceive ch id _ payload => decide (ch < 4) && decide (id < 536870912) && decide (payload.length < 2 ^ 32)
  | .inputStale j => decide (j < 64)
  | .keeperFrameTx n => decide (n < 64)
  | .debugHalt p _ => decide (p < 2)
  | .debugRegisterWrite p reg _ => decide (p < 2) && decide (reg < 32)
  | .debugMemoryWrite p addr bytes => decide (p < 2) && decide (addr < 2 ^ 64) && decide (bytes.length < 2 ^ 32)
  | .debugSingleStep p => decide (p < 2)
  | .selftestPieceDone t _ => decide (t < 64)
  | .latent t _ _ => decide (t < 64)
  | .displayLatch p => decide (p < 6)
  | .displayFrameEnd p _ => decide (p < 6)
  | .cameraFrameStart c _ => decide (c < 16)
  | .cameraFrameEnd c _ => decide (c < 16)
  | .cameraFrameTimeout c _ => decide (c < 16)
  | .decodeJob j => decide (j.session < 16)
  | .encodeJob j => decide (j.session < 16)
  | .codecJobDone v _ _ _ _ pts out _ => decide (v < 16) && decide (pts < 2 ^ 64) && decide (out.length < 2 ^ 32)
  | .frameReceive p frame _ sec skew => decide (-8 ≤ skew ∧ skew ≤ 8) && decide (p < 18) && decide (frame.length < 2 ^ 32) && sec.all (fun y => decide (y.an < 4 ∧ y.pn < 2 ^ 64))
  | .frameTransmit p secured skew => decide (-8 ≤ skew ∧ skew ≤ 8) && decide (p < 18) && decide (secured.length < 2 ^ 32)
  | .gclEntry l => decide (l < 64)
  | .loadDone => true
  | .recoveryReset f => decide (f < 65536)
  | .flowCounterWrite f => decide (f < 65536)
  | .canFrameReceive ch id _ marks payload => decide (ch < 12) && decide (id < 536870912) && decide (marks < 64) && decide (payload.length < 2 ^ 32)
  | .busOff ch => decide (ch < 12)
  | .busOffRecovery ch => decide (ch < 12)
  | .linSlot ch => decide (ch < 8)
  | .linResponse ch payload c => decide (ch < 8) && decide (c < 256) && decide (payload.length < 2 ^ 32)
  | .noResponse ch => decide (ch < 8)
  | .rxTimeout n => decide (n < 4096)
  | .pduDue n _ => decide (n < 4096)
  | .timeCapture n _ => decide (n < 4)
  | .capPop m n value => m.wf && decide (n < 4) && decide (value < 2 ^ 64)
  | .txtsPop m p value => m.wf && decide (p < 18) && decide (value < 2 ^ 64)
  | .pulse o => decide (o < 8)
  | .gate n => decide (n < 16)
  | .wgate n rd rs1 => decide (n < 16) && decide (rd < 32) && decide (rs1 < 32)
  | .wret n rs1 => decide (n < 16) && decide (rs1 < 32)
  | .secureInterrupt n _ => decide (n < 16)
  | .wsaveWrite n _ => decide (n < 16)
  | .dmaStart m c value => m.wf && decide (c < 16) && decide (value < 2 ^ 64)
  | .dmaAbort m c value _ => m.wf && decide (c < 16) && decide (value < 2 ^ 64)
  | .dmaDone c _ _ => decide (c < 16)
  | .wdgService m value => m.wf && decide (value < 2 ^ 64)
  | .preWarning => true
  | .watchdogExpiry => true
  | .watchdogRestart straps modId modCnt => decide (straps < 16) && decide (modId < 4) && decide (modCnt < 4)
  | .voxHeartbeat m value => m.wf && decide (value < 2 ^ 64)
  | .mbxSubmit m c value => m.wf && decide (c < 16) && decide (value < 2 ^ 64)
  | .mbxResponse c _ => decide (c < 16)
  | .mbxTimeout c _ => decide (c < 16)
  | .pwrGet c _ temps => decide (c < 16) && temps.all tempWf
  | .pwrSetCap c _ => decide (c < 16)
  | .thermSetTarget c _ => decide (c < 16)
  | .domSet c _ _ => decide (c < 16)
  | .domGet c _ => decide (c < 16)
  | .oppStore c _ points => decide (c < 16) && decide (points.length < 2 ^ 32)
  | .attest c _ report => decide (c < 16) && decide (report.length < 2 ^ 32)
  | .domainOn m dom tag => m.wf && decide (dom < 64) && decide (tag < 65536)
  | .domainGate m dom tag _ => m.wf && decide (dom < 64) && decide (tag < 65536)
  | .domainOff m dom tag _ => m.wf && decide (dom < 64) && decide (tag < 65536)
  | .domainWakeDone dom => decide (dom < 48)
  | .oppStoreTimer points => decide (points.length < 2 ^ 32)
  | .supplyLimitFall _ => true
  | .supplyLimitRise _ => true
  | .powerLimitExceeded _ => true
  | .thermalCrit r => r.temps.all tempWf
  | .thermalTrip _ => true
  | .portUp p peer peerPort _ lanes known => (known.hbm == 4 || known.hbm == 6 || known.hbm == 8) && decide (p < 12) && decide (peer < 4) && decide (peerPort < 6) && decide (lanes < 65536) && decide (known.src < 4)
  | .flitRetry f => decide (f.port < 12)
  | .portDown p _ => decide (p < 12)
  | .moduleStart => true
  | .moduleTurnOff _ => true
  | .overcurrentHoldoff => true
  | .tapReset => true
  | .idcode => true
  | .samplePreload _ _ => true
  | .extest _ _ => true
  | .highz => true
  | .clamp => true
  | .extestPulse => true
  | .extestTrain => true
  | .debug => true
  | .bypass => true
  | .controlTransfer n target priv => decide (n < 16) && decide (target < 2 ^ 64) && decide (priv % 4 ≠ 2 ∧ priv < 6)
  | .mainFabricAccess m addr _ bytes _ _ => m.wf && decide (addr < 2 ^ 64) && decide (bytes.length < 2 ^ 32)
  | .linkDown p => decide (p < 18)
  | .linkUp p => decide (p < 18)
  | .displayLinkDown p => decide (p < 6)
  | .displayLinkTrained p => decide (p < 6)
  | .cameraLinkDown c => decide (c < 16)
  | .cameraLinkUp c => decide (c < 16)

end Sys2Proof
end

