-- ==== Sys2Proof/Tests/Slice0.lean ====
section
/-! SUPPORT. Tests/Slice0.lean: tests against the spec's own values, the checks of WellFormed, and a witness for the hypotheses of every statement. -/

namespace Sys2Proof.Tests

open Sys2Proof Sys2Proof.Machine

set_option Elab.async false

/-- Power good has been given, and everything has left reset. -/
def live : Dev := { Dev.reset with start := { Dev.reset.start with powered := true, released := true, voxsar := true, loader := true } }

/-- That block, changed by `g`, with registers written. -/
def regd (l : List (Nat × Nat)) (g : Dev → Dev := id) : Dev := l.foldl (fun d p => d.wn p.1 p.2) (g live)

/-- The machine with its block so changed. -/
def mk (l : List (Nat × Nat)) (g : Dev → Dev := id) : State := { State.reset with dev := regd l g }

/-- So many ns have passed since power good. -/
def after (n : Nat) (d : Dev) : Dev := { d with now := n }

/-- The staged start changed. -/
def started (g : StartSt → StartSt) (d : Dev) : Dev := { d with start := g d.start }

/-- The record is read, and the boot fetch changed. -/
def fetching (g : Fetch → Fetch) : Dev → Dev := started (fun x => { x with recordRead := true, fetch := g x.fetch })

/-- A Keeper loop entry with the flags `fl`. -/
def loopOf (fl : Nat) : LoopCfg :=
  { src := 0, dst := 0, flags := fl, period := 1, kp := 0, ki := 0, spDefault := 0, spMin := 0, spMax := 0, outMin := 0, outMax := 0, ramp := 0, inScale := 0, inOffset := 0 }

/-- The Keeper table changed. -/
def keeping (g : KTable → KTable) (d : Dev) : Dev := { d with keeper := { d.keeper with table := g d.keeper.table } }

/-- Loop 31 is in the table. -/
def looped (fl : Nat) (d : Dev) : Dev := keeping (fun t => { t with loops := [(31, loopOf fl)] }) d

/-- One register is staged. -/
def stagedAt (o : Nat) (v : W64) (d : Dev) : Dev := { d with staged := [(o, { value := v, written := 0xFFFFFFFF, normal := 0 })] }

/-- A descriptor with numbers at offsets: offset, bytes, value. -/
def descOf (l : List (Nat × Nat × Nat)) : List Byte := l.foldl (fun b x => splice b x.1 (leBytes x.2.1 x.2.2)) (zeros 64)

/-- A command of instance 0, ring 0, with that descriptor. -/
def cmdOf (l : List (Nat × Nat × Nat)) (p : Phase) : Cmd := { newCmd Dev.reset 0 0 0 0 (descOf l) [] with phase := p }

/-- Command 1 in flight, of an instance in the secure world. -/
def run (c : Cmd) (l : List (Nat × Nat) := []) (g : Dev → Dev := id) : State :=
  mk ((Off.QE_INST_CTRL 0, 2) :: l) (fun d => g { d with cmds := [(1, c)] })

/-- Bytes written in main memory. -/
def holding (a : Nat) (bs : List Byte) (s : State) : State := { s with mem := cellsPut s.mem memDefault a bs }

/-- A plan image of one port and one WCET entry, with nothing resident. -/
def imageOf : List Byte :=
  let b := (descOf [(0, 4, 0x4E414C50), (4, 2, 1), (0x10, 4, 104), (0x18, 2, 1), (0x1A, 1, 1), (0x1B, 1, 1), (0x1C, 2, 16), (0x1E, 2, 4), (0x24, 4, 64), (0x28, 4, 80), (0x2C, 4, 96), (0x30, 4, 96)]) ++ zeros 16 ++ leBytes 16 1
  b ++ leBytes 8 (crcOf 1 b)

/-- That image registered as plan 1 of instance 0. -/
def planOf : Plan :=
  { inst := 0, planId := 1, addr := 0x1000000, crc := leAt imageOf 96 8, image := imageOf, code := noCode, pinned := false, resident := [], reload := none, order := 0, lastUse := 0, banks := [], evictDue := none }

/-- Partition 0 runs with tile 0 in its one stream, where the commands of `l` are admitted. -/
def parted (l : List Nat) (d : Dev) : Dev :=
  { d with sched := { d.sched with pctrl := [(0, 1)] }, parts := [(0, { Part.empty with streams := [{ Stream.empty with admitted := l }], tiles := [[0]] })] }

/-- A load on tile 0 in stream 0 of no banks. -/
def loadOf (st : Option Nat) : Load := { stream := 0, tiles := [0], banks := 0, need := none, started := st, taken := [] }

/-- Ring 0 of instance 0 has one descriptor to pick up; QE_INST_CTRL as given. -/
def picking (ctrl : Nat) : State :=
  mk [(Off.START_STAGE, 5), (Off.QE_INST_CTRL 0, ctrl), (Off.QE_INST_STATUS 0, 1), (Off.QE_CMD_CTRL 0 0, 1), (Off.QE_CMD_STATUS 0 0, 1), (Off.QE_CPL_CTRL 0 0, 1), (Off.QE_CMD_BASE_LO 0 0, 0x1000000)] (fun d => { d with insts := [(0, { Inst.empty with prod := [(0, 1)] })] })

/-- The one bank of partition 0's stream holds the weights of another plan, pinned or with a command in flight. -/
def bankedPlan (pin : Bool) (d : Dev) : Dev :=
  { d with plans := [{ planOf with planId := 2, pinned := pin, resident := [0], banks := [(0, 0)] }], banks := [(0, { owner := 0x2, pending := false })] }

/-- Instance 0 changed. -/
def inst0 (g : Inst → Inst) (d : Dev) : Dev := { d with insts := [(0, g Inst.empty)] }

/-- Range-table entry 0 covers the local HBM, with the attributes `x`. -/
def hbmAs (x : Nat) : List (Nat × Nat) := [(Off.RT_ATTR 0, x), (Off.RT_BASE_HI 0, 0x100), (Off.RT_LIMIT_HI 0, 0x101)]

/-- Core 0 runs and is changed by `g`. -/
def coring (g : Core → Core) (d : Dev) : Dev := { d with cores := [(0, g (Core.empty 0))] }

/-- Semaphore `r` taken by pair `p` for the line of `a`, where none was held. -/
def semGot (d : Dev) (p a r : Nat) : Dev :=
  ((d.releaseSems p).takeFree.2.setB Off.IBR_STATUS (16 + r) true).wn (Off.IBR_SEM r) (1 + p % 8 * 2 + a % 2 ^ 52 / 64 * 64)

/-- Where none is held, taking a semaphore gives one of the sixteen. -/
theorem takeSem_of_free (d : Dev) (p a : Nat) (h : ∀ k < 16, (d.releaseSems p).b Off.IBR_STATUS (16 + k) = false) :
    ∃ r < 16, d.takeSem p a = (true, semGot d p a r) := by
  refine ⟨(d.releaseSems p).takeFree.1.toNat % 16, Nat.mod_lt _ (by decide), ?_⟩
  simp [Dev.takeSem, pickFree, semGot, h _ (Nat.mod_lt _ (by decide : 16 > 0))]

/-- A witness that holds a semaphore: the access at `a` is admitted whichever semaphore was taken. -/
theorem sem_admits (d : Dev) (p a n : Nat) (k : AccessKind) (h : ∀ i < 16, (d.releaseSems p).b Off.IBR_STATUS (16 + i) = false)
    (v : ∀ r < 16, (semGot d p a r).verdict (.island p) true k a n = .ok) : (d.takeSem p a).2.verdict (.island p) true k a n = .ok := by
  obtain ⟨r, hr, e⟩ := takeSem_of_free d p a h
  rw [e]
  exact v r hr

/-- A Keeper frame of 32 bytes with E2E. -/
def frameOf : FrameCfg := { channel := 0, flags := 8, format := 0, length := 32, id := 5, periodUs := 1000, safe := zeros 32, sigs := [] }

/-- A codec job on the smallest picture. -/
def jobOf (x : Nat) : CodecJob :=
  { x := x, desc := descOf [(8, 8, 0x10000000000), (0x10, 4, 16), (0x14, 4, 6144), (0x18, 8, 0x10000000000), (0x20, 2, 64), (0x22, 2, 64)], startNs := 0 }

/-- Session 15 runs a job. -/
def jobbing (j : CodecJob) (d : Dev) : Dev := { d with media := { d.media with sessions := [(15, { prod := 0, job := some j })] } }

/-- A DRAW_LIST of context 0 that runs, changed by `g`. -/
def drawOf (g : DrawSt → DrawSt) : Cmd := { cmdOf [(0, 1, 0x30)] .running with draw := g DrawSt.start }

/-- Camera 15 changed. -/
def filming (x : Camera) (d : Dev) : Dev := { d with media := { d.media with cameras := [(15, x)] } }

/-- The gateway changed. -/
def gating (g : Gateway → Gateway) (d : Dev) : Dev := { d with gw := g d.gw }

/-- A FORWARD flow to port 13 for VID 1, with flags `ff` and further fields. -/
def flowOf (ff : Nat) (l : List (Nat × Nat × Nat)) : Flow :=
  newFlow Dev.reset (descOf ([(0, 1, 1), (1, 1, ff), (2, 1, 0xFF), (0xA, 2, 1), (0xC, 4, 0x2000), (0x12, 1, 0xFF), (0x24, 2, 12), (0x26, 1, 1), (0x27, 1, 1)] ++ l))

/-- Port 13 is up and flow 5 is `x`. -/
def flowing (x : Flow) : State :=
  mk [(Off.GW_CTRL, 1), (Off.GW_PORT_CTRL 13, 0x10001), (Off.GW_PORT_STATUS 13, 1), (Off.T1S_CTRL 1, 1)] (gating (fun w => { w with flows := [(5, x)] }))

/-- A PDU with those fields. -/
def pduOf (l : List (Nat × Nat × Nat)) : Pdu :=
  { raw := descOf l, buf := zeros 8, queued := false, lastCtr := none, lastAt := 0, timedOut := false, alive := 0, dueAt := 0 }

/-- PDU 9 is `x`. -/
def pdued (x : Pdu) (l : List (Nat × Nat) := []) (g : Gateway → Gateway := id) : State := mk l (gating (fun w => g { w with pdus := [(9, x)] }))

/-- A request of a type with a payload. -/
def reqOf (type : Nat) (p : List Byte) : MboxReq :=
  { msg := [1, 0] ++ leBytes 2 type ++ leBytes 4 p.length ++ zeros 8 ++ p, since := 0, timedOut := false, answer := none }

/-- Voxsar runs, and channel 15 holds one request. -/
def asked (r : MboxReq) (l : List (Nat × Nat) := []) : State :=
  mk l (fun d => started (fun x => { x with voxsar := true }) { d with vox := { d.vox with boxes := [(15, { Mbox.empty with reqs := [r] })] } })

/-- The range table admits the normal world to set-up space, and the pages of domain requests are normal. -/
def openSetup : List (Nat × Nat) := [(Off.RT_ATTR 0, 3), (Off.RT_BASE_LO 0, 0xF0000000), (Off.RT_LIMIT_HI 0, 1), (Off.WLD_SETUP_SEC 6, 0)]

/-- Command 1 runs a plan on tile 63, whose bank 0 it may use, with a group of one squad. -/
def tiling : State :=
  run (cmdOf [(0, 1, 1)] .running) [] (fun d => { d with tiles := [(63, { Tile.empty with cmd := some 1, part := 0, groups := [⟨0, 0, [63], 256, 0, []⟩] })], banks := [(63 * 32, { owner := 1, pending := false })] })

/-- States and operands that meet every hypothesis of `Obligations.KeeperTableAndWarmup`, clause by clause. -/
theorem test_witness_KeeperTableAndWarmup :
    (∃ (s : State), s.dev.start.powered = true ∧ s.dev.start.halted = false ∧ s.dev.stage = 0) ∧
    (∃ (s : State), ∃ (failStep : Nat), s.dev.start.powered = true ∧ s.dev.start.halted = false ∧ s.dev.stage = 1 ∧ s.dev.start.released = false ∧ s.dev.warmupRuns failStep = true) :=
  ⟨⟨mk [], by decide +kernel⟩,
   ⟨mk [(Off.START_STAGE, 1)] (started (fun x => { x with released := false })), 0, by decide +kernel⟩⟩

/-- States and operands that meet every hypothesis of `Obligations.ConfigRecordAppliedOrRefused`, clause by clause. -/
theorem test_witness_ConfigRecordAppliedOrRefused :
    (∃ (s : State), s.dev.stage = 2 ∧ s.dev.start.recordRead = false) :=
  ⟨mk [(Off.START_STAGE, 2)], by decide +kernel⟩

/-- States and operands that meet every hypothesis of `Obligations.BootFetch`, clause by clause. -/
theorem test_witness_BootFetch :
    (∃ (s : State), s.dev.runs = true ∧ s.dev.stage = 2 ∧ s.dev.start.recordRead = true ∧ s.dev.start.voxsar = false ∧ s.dev.start.fetch.active = false ∧ s.dev.start.fetch.failed = false) ∧
    (∃ (s : State), ∃ (h : FetchHdr), ∃ (payload : Nat), s.dev.runs = true ∧ s.dev.stage = 2 ∧ s.dev.start.fetch.active = true ∧ s.dev.start.fetch.offer = none ∧ fetchHdrOk h payload = true ∧ h.block = 0) ∧
    (∃ (s : State), ∃ (h : FetchHdr), ∃ (payload : Nat), s.dev.runs = true ∧ s.dev.stage = 2 ∧ fetchHdrOk h payload = true ∧ h.block = 0 ∧ s.dev.start.fetch.ofSession h.session = true) ∧
    (∃ (s : State), s.dev.runs = true ∧ s.dev.stage = 2 ∧ (s.dev.start.fetch.failed = true ∨ (s.dev.start.fetch.active = true ∧ s.dev.start.fetch.offer = none)) ∧ s.dev.now < s.dev.start.fetch.since + s.dev.start.fetch.waitMs * 1000000) ∧
    (∃ (s : State), s.dev.runs = true ∧ s.dev.stage = 2 ∧ (s.dev.start.fetch.failed = true ∨ (s.dev.start.fetch.active = true ∧ s.dev.start.fetch.offer = none)) ∧ s.dev.start.fetch.since + s.dev.start.fetch.waitMs * 1000000 ≤ s.dev.now) ∧
    (∃ (s : State), ∃ (block : Nat), ∃ (session : Nat), ∃ (len : Nat), ∃ (version : Nat), ∃ (size : Nat), s.dev.runs = true ∧ s.dev.stage = 2 ∧ s.dev.start.fetch.offer = some (session, len, version, size) ∧ block ∈ s.dev.start.fetch.outstanding ∧ KMap.getD s.dev.start.fetch.asked block 0 + 20000000 ≤ s.dev.now) ∧
    (∃ (s : State), ∃ (h : FetchHdr), ∃ (len : Nat), ∃ (version : Nat), ∃ (size : Nat), ∃ (bytes : List Byte), s.dev.runs = true ∧ s.dev.stage = 2 ∧ s.dev.start.fetch.offer = some (h.session, len, version, size) ∧ fetchHdrOk h bytes.length = true ∧ h.block ∈ s.dev.start.fetch.outstanding ∧ bytes.length = blockLen len size h.block ∧ h.block * size + bytes.length ≤ 12 * 2 ^ 20) :=
  ⟨⟨mk [(Off.START_STAGE, 2)] (fun d => started (fun x => { x with voxsar := false }) (fetching id d)), by decide +kernel⟩,
   ⟨mk [(Off.START_STAGE, 2)] (fetching (fun f => { f with active := true })), ⟨0x4642, 1, 7, 0, 12⟩, 12, by decide +kernel⟩,
   ⟨mk [(Off.START_STAGE, 2)] (fetching (fun f => { f with active := true, offer := some (7, 1000, 3, 512) })), ⟨0x4642, 1, 7, 0, 4⟩, 4, by decide +kernel⟩,
   ⟨mk [(Off.START_STAGE, 2)] (fetching (fun f => { f with failed := true })), by decide +kernel⟩,
   ⟨mk [(Off.START_STAGE, 2)] (fun d => after 100000000 (fetching (fun f => { f with active := true }) d)), by decide +kernel⟩,
   ⟨mk [(Off.START_STAGE, 2)] (fun d => after 20000000 (fetching (fun f => { f with offer := some (1, 1000, 3, 512), outstanding := [1] }) d)), 1, 1, 1000, 3, 512, by decide +kernel⟩,
   ⟨mk [(Off.START_STAGE, 2)] (fetching (fun f => { f with offer := some (1, 1000, 3, 512), outstanding := [1] })), ⟨0x4642, 1, 1, 1, 488⟩, 1000, 3, 512, zeros 488, by decide +kernel⟩⟩

/-- States and operands that meet every hypothesis of `Obligations.LateStartStages`, clause by clause. -/
theorem test_witness_LateStartStages :
    (∃ (s : State), s.dev.stage = 3 ∧ s.dev.start.voxsar = true ∧ s.dev.start.hbmUp = false ∧ s.dev.b Off.START_FAIL 8 = false) ∧
    (∃ (s : State), s.dev.b Off.START_FAIL 8 = true) ∧
    (∃ (s : State), s.dev.stage = 4 ∧ s.dev.start.loader = false) ∧
    (∃ (s : State), ∃ (m : Master), s.dev.setupRefused m Off.START_CTRL 4 = none) ∧
    (∃ (s : State), ∃ (port : Nat), port < s.dev.ioDies ∧ s.dev.start.voxsar = true) ∧
    (∃ (s : State), ∃ (port : Nat), (s.dev.ioDies ≤ port ∨ s.dev.start.voxsar = false)) :=
  ⟨⟨mk [(Off.START_STAGE, 3)], by decide +kernel⟩,
   ⟨mk [(Off.START_STAGE, 3), (Off.START_FAIL, 256)], by decide +kernel⟩,
   ⟨mk [(Off.START_STAGE, 4)] (started (fun x => { x with loader := false })), by decide +kernel⟩,
   ⟨mk [], .mgmt, by decide +kernel⟩,
   ⟨mk [], 1, by decide +kernel⟩,
   ⟨mk [], 2, by decide +kernel⟩⟩

/-- States and operands that meet every hypothesis of `Obligations.ServicePortReportsAndSetpoint`, clause by clause. -/
theorem test_witness_ServicePortReportsAndSetpoint :
    (let up := fun (s : State) (tag : Nat) => s.dev.spUp = true ∧ s.dev.sp.state ≠ 1 ∧ tag < 2 ^ 16; ∃ (s : State), ∃ (tag : Nat), ∃ (f : List Byte), up s tag ∧ f = spFrame 1 tag 0 []) ∧
    (let up := fun (s : State) (tag : Nat) => s.dev.spUp = true ∧ s.dev.sp.state ≠ 1 ∧ tag < 2 ^ 16; ∃ (s : State), ∃ (tag : Nat), ∃ (f : List Byte), up s tag ∧ f = spFrame 2 tag 0 []) ∧
    (let up := fun (s : State) (tag : Nat) => s.dev.spUp = true ∧ s.dev.sp.state ≠ 1 ∧ tag < 2 ^ 16; ∃ (s : State), ∃ (tag : Nat), ∃ (p : List Byte), ∃ (f : List Byte), up s tag ∧ p ≠ [] ∧ p.length ≤ 4080 ∧ f = spFrame 1 tag 0 p) ∧
    (let up := fun (s : State) (tag : Nat) => s.dev.spUp = true ∧ s.dev.sp.state ≠ 1 ∧ tag < 2 ^ 16; ∃ (s : State), ∃ (tag : Nat), ∃ (p : List Byte), ∃ (f : List Byte), up s tag ∧ p ≠ [] ∧ p.length ≤ 4080 ∧ f = spFrame 2 tag 0 p) ∧
    (let up := fun (s : State) (tag : Nat) => s.dev.spUp = true ∧ s.dev.sp.state ≠ 1 ∧ tag < 2 ^ 16; ∃ (s : State), ∃ (tag : Nat), ∃ (index : Nat), ∃ (count : Nat), ∃ (f : List Byte), up s tag ∧ index < 2 ^ 32 ∧ 1 ≤ count ∧ count ≤ 32 ∧ f = spFrame 3 tag 0 (leBytes 4 index ++ leBytes 1 count ++ [0, 0, 0])) ∧
    (let up := fun (s : State) (tag : Nat) => s.dev.spUp = true ∧ s.dev.sp.state ≠ 1 ∧ tag < 2 ^ 16; ∃ (s : State), ∃ (tag : Nat), ∃ (count : Nat), ∃ (p : List Byte), ∃ (f : List Byte), up s tag ∧ p.length = 4 ∧ count < 256 ∧ (count = 0 ∨ 32 < count) ∧ f = spFrame 3 tag 0 (p ++ leBytes 1 count ++ [0, 0, 0])) ∧
    (let up := fun (s : State) (tag : Nat) => s.dev.spUp = true ∧ s.dev.sp.state ≠ 1 ∧ tag < 2 ^ 16; ∃ (s : State), ∃ (tag : Nat), ∃ (l : Nat), ∃ (c : LoopCfg), ∃ (f : List Byte), up s tag ∧ l < 32 ∧ KMap.find s.dev.keeper.table.loops l = some c ∧ f = spFrame 4 tag 0 (leBytes 1 l ++ [0, 0, 0])) ∧
    (let up := fun (s : State) (tag : Nat) => s.dev.spUp = true ∧ s.dev.sp.state ≠ 1 ∧ tag < 2 ^ 16; ∃ (s : State), ∃ (tag : Nat), ∃ (l : Nat), ∃ (f : List Byte), up s tag ∧ l < 256 ∧ ((32 ≤ l ∨ KMap.find s.dev.keeper.table.loops l = none)) ∧ f = spFrame 4 tag 0 (leBytes 1 l ++ [0, 0, 0])) ∧
    (∃ (s : State), ∃ (f : List Byte), ∃ (bell : Nat), s.dev.spUp = true ∧ (s.dev.sp.state = 1 ∨ bell ≠ 1) ∧ 16 ≤ f.length) ∧
    (let up := fun (s : State) (tag : Nat) => s.dev.spUp = true ∧ s.dev.sp.state ≠ 1 ∧ tag < 2 ^ 16; ∃ (s : State), ∃ (tag : Nat), ∃ (op : Nat), ∃ (version : Nat), ∃ (f : List Byte), up s tag ∧ op < 256 ∧ version < 256 ∧ (op ∉ [1, 2, 3, 4, 5, 0x10, 0x11, 0x12, 0x13] ∨ version ≠ 1) ∧ f = leBytes 1 op ++ leBytes 1 version ++ leBytes 2 tag ++ zeros 12) ∧
    (let up := fun (s : State) (tag : Nat) => s.dev.spUp = true ∧ s.dev.sp.state ≠ 1 ∧ tag < 2 ^ 16; ∃ (s : State), ∃ (tag : Nat), ∃ (l : Nat), ∃ (v : W32), ∃ (c : LoopCfg), ∃ (f : List Byte), up s tag ∧ l < 32 ∧ f32IsNan v = false ∧ KMap.find s.dev.keeper.table.loops l = some c ∧ nbit c.flags 2 = true ∧ f = spFrame 5 tag 0 (leBytes 1 l ++ [0, 0, 0] ++ leBytes 4 v.toNat)) ∧
    (let up := fun (s : State) (tag : Nat) => s.dev.spUp = true ∧ s.dev.sp.state ≠ 1 ∧ tag < 2 ^ 16; ∃ (s : State), ∃ (tag : Nat), ∃ (l : Nat), ∃ (v : W32), ∃ (c : LoopCfg), ∃ (f : List Byte), up s tag ∧ l < 32 ∧ f32IsNan v = false ∧ KMap.find s.dev.keeper.table.loops l = some c ∧ nbit c.flags 2 = false ∧ f = spFrame 5 tag 0 (leBytes 1 l ++ [0, 0, 0] ++ leBytes 4 v.toNat)) :=
  ⟨⟨mk [] (after 5000000), 0, spFrame 1 (0) 0 [], by decide +kernel, rfl⟩,
   ⟨mk [] (after 5000000), 0, spFrame 2 (0) 0 [], by decide +kernel, rfl⟩,
   ⟨mk [] (after 5000000), 0, zeros 4080, spFrame 1 (0) 0 (zeros 4080), by decide +kernel, by decide +kernel, by decide +kernel, rfl⟩,
   ⟨mk [] (after 5000000), 0, [0], spFrame 2 (0) 0 ([0]), by decide +kernel, by decide +kernel, by decide +kernel, rfl⟩,
   ⟨mk [] (after 5000000), 0, 2 ^ 32 - 1, 32, spFrame 3 (0) 0 (leBytes 4 (2 ^ 32 - 1) ++ leBytes 1 (32) ++ [0, 0, 0]), by decide +kernel, by decide +kernel, by decide +kernel, by decide +kernel, rfl⟩,
   ⟨mk [] (after 5000000), 0, 33, zeros 4, spFrame 3 (0) 0 ((zeros 4) ++ leBytes 1 (33) ++ [0, 0, 0]), by decide +kernel, by decide +kernel, by decide +kernel, by decide +kernel, rfl⟩,
   ⟨mk [] (fun d => looped 1 (after 5000000 d)), 0, 31, loopOf 1, spFrame 4 (0) 0 (leBytes 1 (31) ++ [0, 0, 0]), by decide +kernel, by decide +kernel, by decide +kernel, rfl⟩,
   ⟨mk [] (after 5000000), 0, 32, spFrame 4 (0) 0 (leBytes 1 (32) ++ [0, 0, 0]), by decide +kernel, by decide +kernel, by decide +kernel, rfl⟩,
   ⟨mk [] (fun d => { after 5000000 d with sp := { d.sp with state := 1 } }), zeros 16, 0, by decide +kernel⟩,
   ⟨mk [] (after 5000000), 0, 6, 1, leBytes 1 (6) ++ leBytes 1 (1) ++ leBytes 2 (0) ++ zeros 12, by decide +kernel, by decide +kernel, by decide +kernel, by decide +kernel, rfl⟩,
   ⟨mk [] (fun d => looped 5 (after 5000000 d)), 0, 31, (0 : W32), loopOf 5, spFrame 5 (0) 0 (leBytes 1 (31) ++ [0, 0, 0] ++ leBytes 4 ((0 : W32)).toNat), by decide +kernel, by decide +kernel, by decide +kernel, by decide +kernel, by decide +kernel, rfl⟩,
   ⟨mk [] (fun d => looped 1 (after 5000000 d)), 0, 31, (0 : W32), loopOf 1, spFrame 5 (0) 0 (leBytes 1 (31) ++ [0, 0, 0] ++ leBytes 4 ((0 : W32)).toNat), by decide +kernel, by decide +kernel, by decide +kernel, by decide +kernel, by decide +kernel, rfl⟩⟩

/-- States and operands that meet every hypothesis of `Obligations.ServicePortFlashCommands`, clause by clause. -/
theorem test_witness_ServicePortFlashCommands :
    (let up := fun (s : State) (tag : Nat) => s.dev.spUp = true ∧ s.dev.sp.state ≠ 1 ∧ tag < 2 ^ 16 ∧ s.dev.f Off.START_STRAPS 1 0 = 1; ∃ (s : State), ∃ (tag : Nat), ∃ (off : Nat), ∃ (n : Nat), ∃ (f : List Byte), up s tag ∧ off < 2 ^ 32 ∧ off % 65536 = 0 ∧ 1 ≤ n ∧ n ≤ 512 ∧ off + n * 65536 ≤ 33554432 ∧ f = spFrame 0x10 tag 0 (leBytes 4 off ++ leBytes 4 n)) ∧
    (∃ (s : State), ∃ (op : Nat), ∃ (tag : Nat), s.dev.sp.erasing = some (op, tag)) ∧
    (let up := fun (s : State) (tag : Nat) => s.dev.spUp = true ∧ s.dev.sp.state ≠ 1 ∧ tag < 2 ^ 16 ∧ s.dev.f Off.START_STRAPS 1 0 = 1; ∃ (s : State), ∃ (tag : Nat), ∃ (off : Nat), ∃ (bs : List Byte), ∃ (f : List Byte), up s tag ∧ off < 2 ^ 32 ∧ 1 ≤ bs.length ∧ bs.length ≤ 4064 ∧ off + bs.length ≤ 33554432 ∧ f = spFrame 0x11 tag 0 (leBytes 4 off ++ leBytes 4 bs.length ++ bs)) ∧
    (let up := fun (s : State) (tag : Nat) => s.dev.spUp = true ∧ s.dev.sp.state ≠ 1 ∧ tag < 2 ^ 16 ∧ s.dev.f Off.START_STRAPS 1 0 = 1; ∃ (s : State), ∃ (tag : Nat), ∃ (off : Nat), ∃ (n : Nat), ∃ (f : List Byte), up s tag ∧ off < 2 ^ 32 ∧ 1 ≤ n ∧ n ≤ 4064 ∧ off + n ≤ 33554432 ∧ (off + n ≤ 0x800000 ∨ 0x900000 ≤ off) ∧ f = spFrame 0x12 tag 0 (leBytes 4 off ++ leBytes 4 n)) ∧
    (let up := fun (s : State) (tag : Nat) => s.dev.spUp = true ∧ s.dev.sp.state ≠ 1 ∧ tag < 2 ^ 16 ∧ s.dev.f Off.START_STRAPS 1 0 = 1; ∃ (s : State), ∃ (tag : Nat), ∃ (off : Nat), ∃ (n : Nat), ∃ (crc : Nat), ∃ (f : List Byte), up s tag ∧ off < 2 ^ 32 ∧ 1 ≤ n ∧ off + n ≤ 33554432 ∧ crc < 2 ^ 32 ∧ f = spFrame 0x13 tag 0 (leBytes 4 off ++ leBytes 4 n ++ leBytes 4 crc)) :=
  ⟨⟨mk [(Off.START_STRAPS, 1)] (after 5000000), 0, 0, 512, spFrame 0x10 (0) 0 (leBytes 4 (0) ++ leBytes 4 (512)), by decide +kernel, by decide +kernel, by decide +kernel, by decide +kernel, by decide +kernel, by decide +kernel, rfl⟩,
   ⟨mk [] (fun d => { d with sp := { d.sp with state := 1, erasing := some (0x20, 7) } }), 0x20, 7, by decide +kernel⟩,
   ⟨mk [(Off.START_STRAPS, 1)] (after 5000000), 0, 33554431, [0], spFrame 0x11 (0) 0 (leBytes 4 (33554431) ++ leBytes 4 ([0]).length ++ ([0])), by decide +kernel, by decide +kernel, by decide +kernel, by decide +kernel, by decide +kernel, rfl⟩,
   ⟨mk [(Off.START_STRAPS, 1)] (after 5000000), 0, 0x7FF020, 4064, spFrame 0x12 (0) 0 (leBytes 4 (0x7FF020) ++ leBytes 4 (4064)), by decide +kernel, by decide +kernel, by decide +kernel, by decide +kernel, by decide +kernel, by decide +kernel, rfl⟩,
   ⟨mk [(Off.START_STRAPS, 1)] (after 5000000), 0, 33554431, 1, 0, spFrame 0x13 (0) 0 (leBytes 4 (33554431) ++ leBytes 4 (1) ++ leBytes 4 (0)), by decide +kernel, by decide +kernel, by decide +kernel, by decide +kernel, by decide +kernel, rfl⟩⟩

/-- States and operands that meet every hypothesis of `Obligations.FlashDeniedOutsideProvisioning`, clause by clause. -/
theorem test_witness_FlashDeniedOutsideProvisioning :
    (let up := fun (s : State) (tag : Nat) => s.dev.spUp = true ∧ s.dev.sp.state ≠ 1 ∧ tag < 2 ^ 16; ∃ (s : State), ∃ (tag : Nat), ∃ (off : Nat), ∃ (n : Nat), ∃ (f : List Byte), up s tag ∧ s.dev.f Off.START_STRAPS 1 0 ≠ 1 ∧ off < 2 ^ 32 ∧ off % 65536 = 0 ∧ 1 ≤ n ∧ n ≤ 512 ∧ off + n * 65536 ≤ 33554432 ∧ f = spFrame 0x10 tag 0 (leBytes 4 off ++ leBytes 4 n)) ∧
    (let up := fun (s : State) (tag : Nat) => s.dev.spUp = true ∧ s.dev.sp.state ≠ 1 ∧ tag < 2 ^ 16; ∃ (s : State), ∃ (tag : Nat), ∃ (off : Nat), ∃ (bs : List Byte), ∃ (f : List Byte), up s tag ∧ s.dev.f Off.START_STRAPS 1 0 ≠ 1 ∧ off < 2 ^ 32 ∧ 1 ≤ bs.length ∧ bs.length ≤ 4064 ∧ off + bs.length ≤ 33554432 ∧ f = spFrame 0x11 tag 0 (leBytes 4 off ++ leBytes 4 bs.length ++ bs)) ∧
    (let up := fun (s : State) (tag : Nat) => s.dev.spUp = true ∧ s.dev.sp.state ≠ 1 ∧ tag < 2 ^ 16; ∃ (s : State), ∃ (tag : Nat), ∃ (off : Nat), ∃ (n : Nat), ∃ (f : List Byte), up s tag ∧ off < 2 ^ 32 ∧ 1 ≤ n ∧ n ≤ 4064 ∧ off + n ≤ 33554432 ∧ ((s.dev.f Off.START_STRAPS 1 0 ≠ 1 ∨ (off < 0x900000 ∧ 0x800000 < off + n))) ∧ f = spFrame 0x12 tag 0 (leBytes 4 off ++ leBytes 4 n)) ∧
    (let up := fun (s : State) (tag : Nat) => s.dev.spUp = true ∧ s.dev.sp.state ≠ 1 ∧ tag < 2 ^ 16; ∃ (s : State), ∃ (tag : Nat), ∃ (off : Nat), ∃ (n : Nat), ∃ (crc : Nat), ∃ (f : List Byte), up s tag ∧ s.dev.f Off.START_STRAPS 1 0 ≠ 1 ∧ off < 2 ^ 32 ∧ 1 ≤ n ∧ off + n ≤ 33554432 ∧ crc < 2 ^ 32 ∧ f = spFrame 0x13 tag 0 (leBytes 4 off ++ leBytes 4 n ++ leBytes 4 crc)) ∧
    (∃ (s : State), ∃ (t : State), exec .spFlashEraseDone s = .next t) :=
  ⟨⟨mk [] (after 5000000), 0, 0, 512, spFrame 0x10 (0) 0 (leBytes 4 (0) ++ leBytes 4 (512)), by decide +kernel, by decide +kernel, by decide +kernel, by decide +kernel, by decide +kernel, by decide +kernel, by decide +kernel, rfl⟩,
   ⟨mk [] (after 5000000), 0, 0, zeros 4064, spFrame 0x11 (0) 0 (leBytes 4 (0) ++ leBytes 4 (zeros 4064).length ++ (zeros 4064)), by decide +kernel, by decide +kernel, by decide +kernel, by decide +kernel, by decide +kernel, by decide +kernel, rfl⟩,
   ⟨mk [(Off.START_STRAPS, 1)] (after 5000000), 0, 0x7FF021, 4064, spFrame 0x12 (0) 0 (leBytes 4 (0x7FF021) ++ leBytes 4 (4064)), by decide +kernel, by decide +kernel, by decide +kernel, by decide +kernel, by decide +kernel, by decide +kernel, rfl⟩,
   ⟨mk [] (after 5000000), 0, 0, 1, 0, spFrame 0x13 (0) 0 (leBytes 4 (0) ++ leBytes 4 (1) ++ leBytes 4 (0)), by decide +kernel, by decide +kernel, by decide +kernel, by decide +kernel, by decide +kernel, by decide +kernel, rfl⟩,
   ⟨mk [], mk [], rfl⟩⟩

/-- States and operands that meet every hypothesis of `Obligations.BallsDivideTheOver`, clause by clause. -/
theorem test_witness_BallsDivideTheOver :
    (∃ (s : State), ∃ j, ∃ k, 0 < s.dev.balls ∧ j < s.dev.balls ∧ k < s.dev.balls) :=
  ⟨mk [], 0, 15, by decide +kernel⟩

/-- States and operands that meet every hypothesis of `Obligations.EdgesNumberOversAndBalls`, clause by clause. -/
theorem test_witness_EdgesNumberOversAndBalls :
    (∃ (s : State), s.dev.runs = true ∧ s.dev.time.overLen ≤ s.dev.time.run ∧ s.dev.nextBall = none) ∧
    (∃ (s : State), ∃ (k : Nat), s.dev.runs = true ∧ s.dev.nextBall = some k ∧ ((s.dev.ballStart k : Nat) : Int) * subPerNs ≤ s.dev.time.run) ∧
    (∃ (s : State), (s.dev.time.run < s.dev.time.overLen ∨ s.dev.nextBall ≠ none)) ∧
    (∃ (s : State), (s.dev.balls ≤ s.dev.f Off.OVER_BALL 5 0 + 1 ∨ s.dev.time.run < ((s.dev.ballStart (s.dev.f Off.OVER_BALL 5 0 + 1) : Nat) : Int) * subPerNs ∨ s.dev.time.overLen ≤ ((s.dev.ballStart (s.dev.f Off.OVER_BALL 5 0 + 1) : Nat) : Int) * subPerNs)) :=
  ⟨⟨mk [(Off.OVER_BALL, 15)] (fun d => { d with time := { d.time with run := d.time.overLen } }), by decide +kernel⟩,
   ⟨mk [] (fun d => { d with time := { d.time with run := 62500 * subPerNs } }), 1, by decide +kernel⟩,
   ⟨mk [], by decide +kernel⟩,
   ⟨mk [], by decide +kernel⟩⟩

/-- States and operands that meet every hypothesis of `Obligations.SourceStateChanges`, clause by clause. -/
theorem test_witness_SourceStateChanges :
    (∃ (s : State), s.dev.srcState = 1 ∧ s.dev.follower = false ∧ s.dev.now < s.dev.time.refAt + 250000000) ∧
    (∃ (s : State), s.dev.srcState = 1 ∧ s.dev.follower = false ∧ s.dev.time.refAt + 250000000 ≤ s.dev.now) ∧
    (∃ (s : State), s.dev.srcState = 2 ∧ s.dev.now < s.dev.time.holdSince + s.dev.f Off.OVER_HOLDOVER 15 0 * 1000000) ∧
    (∃ (s : State), s.dev.srcState = 2 ∧ s.dev.time.holdSince + s.dev.f Off.OVER_HOLDOVER 15 0 * 1000000 ≤ s.dev.now) ∧
    (∃ (s : State), s.dev.srcState = 0 ∧ s.dev.now < s.dev.f Off.OVER_HOLDOVER 15 0 * 1000000) ∧
    (∃ (s : State), s.dev.srcState = 0 ∧ s.dev.f Off.OVER_HOLDOVER 15 0 * 1000000 ≤ s.dev.now) ∧
    (∃ (s : State), s.dev.follower = true ∧ s.dev.b Off.OVER_STATUS 5 = true ∧ s.dev.sidebandUp = false ∧ s.dev.srcState = 1) ∧
    (∃ (s : State), s.dev.start.monitor = true ∧ s.dev.time.edgeAt + (if s.dev.deadOver = true then s.dev.overNs * 3 / 2 else s.dev.overNs) + s.dev.overNs / 1000 + 2000 < s.dev.now) ∧
    (∃ (s : State), s.dev.time.slew ≠ 0) ∧
    (∃ (s : State), s.dev.time.slew = 0) ∧
    (∃ (s : State), ∃ (steps : Nat), ∃ (balls : Nat), s.dev.follower = true ∧ s.dev.sidebandUp = true ∧ s.dev.f Off.OVER_CTRL 26 25 = 0 ∧ 5 ≤ steps ∧ steps ≤ 400 ∧ 4 ≤ balls ∧ balls ≤ 64) ∧
    (∃ (s : State), s.dev.follower = false) :=
  ⟨⟨mk [(Off.OVER_STATUS, 1)], by decide +kernel⟩,
   ⟨mk [(Off.OVER_STATUS, 1)] (after 250000000), by decide +kernel⟩,
   ⟨mk [(Off.OVER_STATUS, 2)], by decide +kernel⟩,
   ⟨mk [(Off.OVER_STATUS, 2)] (after 60000000000), by decide +kernel⟩,
   ⟨mk [], by decide +kernel⟩,
   ⟨mk [] (after 60000000000), by decide +kernel⟩,
   ⟨mk [(Off.GLB_MODULE, 4), (Off.OVER_STATUS, 0x21)], by decide +kernel⟩,
   ⟨mk [] (fun d => started (fun x => { x with monitor := true }) (after 1003001 d)), by decide +kernel⟩,
   ⟨mk [] (fun d => { d with time := { d.time with slew := 1 } }), by decide +kernel⟩,
   ⟨mk [], by decide +kernel⟩,
   ⟨mk [(Off.GLB_MODULE, 5), (Off.IVM_PORT_STATUS 0, 2)], 5, 64, by decide +kernel⟩,
   ⟨mk [], by decide +kernel⟩⟩

/-- States and operands that meet every hypothesis of `Obligations.TimeRegisters`, clause by clause. -/
theorem test_witness_TimeRegisters :
    (∃ (s : State), ∃ (m : Master), ∃ (value : Nat), s.dev.setupRefused m Off.TIME_ADJ_RATE 4 = none ∧ -204800000 ≤ signedOf 32 value ∧ signedOf 32 value ≤ 204800000) ∧
    (∃ (s : State), ∃ (m : Master), s.dev.setupRefused m Off.TIME_ADJ_OFFSET 8 = none ∧ s.dev.follower = false ∧ s.dev.f Off.OVER_CTRL 26 25 = 0) ∧
    (∃ (s : State), ∃ (m : Master), s.dev.setupRefused m Off.TIME_SET_NS 4 = none ∧ s.dev.follower = false ∧ s.dev.f Off.OVER_CTRL 26 25 = 0) ∧
    (∃ (s : State), ∃ (m : Master), s.dev.masterRuns m = true ∧ s.dev.rtAdmits (0xF0000000 + Off.TIME_NOW_NS) 4 (s.dev.world m) = true) :=
  ⟨⟨mk [], .mgmt, 0, by decide +kernel⟩,
   ⟨mk [], .mgmt, by decide +kernel⟩,
   ⟨mk [], .mgmt, by decide +kernel⟩,
   ⟨mk [], .mgmt, by decide +kernel⟩⟩

/-- States and operands that meet every hypothesis of `Obligations.SetupAccessForms`, clause by clause. -/
theorem test_witness_SetupAccessForms :
    (∃ (s : State), ∃ (m : Master), ∃ (off : Nat), ∃ (size : Nat), s.dev.masterRuns m = true ∧ ((size ≠ 4 ∧ size ≠ 8) ∨ off % size ≠ 0)) ∧
    (∃ (s : State), ∃ (m : Master), ∃ (off : Nat), ∃ (a : RegDesc), ∃ (b : RegDesc), s.dev.setupRefused m off 8 = none ∧ s.dev.mbxByte off = none ∧ locate off = some (a, off) ∧ a.wide = false ∧ a.acc = .rw ∧ locate (off + 4) = some (b, off + 4) ∧ b.acc = .rw) ∧
    (∃ (s : State), ∃ (m : Master), ∃ (off : Nat), s.dev.masterRuns m = true ∧ s.dev.setupThere off = true ∧ off % 8 = 0 ∧ s.dev.rtAdmits (0xF0000000 + off) 8 (s.dev.world m) = true ∧ off ≠ Off.TIME_NOW_NS ∧ off + 4 ≠ Off.TIME_NOW_NS) :=
  ⟨⟨mk [], .mgmt, 4, 8, by decide +kernel⟩,
   ⟨mk [], .mgmt, Off.GW_TAB_BASE_LO, ((locate Off.GW_TAB_BASE_LO).get (by decide +kernel)).1, ((locate (Off.GW_TAB_BASE_LO + 4)).get (by decide +kernel)).1, by decide +kernel⟩,
   ⟨mk [], .mgmt, Off.GW_TAB_BASE_LO, by decide +kernel⟩⟩

/-- States and operands that meet every hypothesis of `Obligations.RegisterWriteByAccessType`, clause by clause. -/
theorem test_witness_RegisterWriteByAccessType :
    (∃ (s : State), ∃ (m : Master), ∃ (off : Nat), ∃ (r : RegDesc), s.dev.setupRefused m off 4 = none ∧ s.dev.mbxByte off = none ∧ locate off = some (r, off) ∧ r.acc = .rw) ∧
    (∃ (s : State), ∃ (m : Master), ∃ (off : Nat), s.dev.setupRefused m off 4 = none ∧ s.dev.mbxByte off = none ∧ ((locate off = none ∨ ∃ r, locate off = some (r, off) ∧ r.acc = .ro))) ∧
    (∃ (s : State), ∃ (m : Master), ∃ (off : Nat), ∃ (r : RegDesc), s.dev.setupRefused m off 4 = none ∧ s.dev.mbxByte off = none ∧ locate off = some (r, off) ∧ r.acc = .w1c ∧ off ≠ Off.PWR_EVENTS) ∧
    (∃ (s : State), ∃ (m : Master), ∃ (off : Nat), s.dev.masterRuns m = true ∧ s.dev.setupThere off = true ∧ off % 4 = 0 ∧ s.dev.setupAdmits m off = false) :=
  ⟨⟨mk [], .mgmt, Off.GW_TAB_BASE_LO, ((locate Off.GW_TAB_BASE_LO).get (by decide +kernel)).1, by decide +kernel⟩,
   ⟨mk [], .mgmt, 0xA0FFF8, by refine ⟨by decide +kernel, by decide +kernel, Or.inl (by decide +kernel)⟩⟩,
   ⟨mk [], .mgmt, Off.GW_EVENTS, ((locate Off.GW_EVENTS).get (by decide +kernel)).1, by decide +kernel⟩,
   ⟨mk [], .core 0, Off.START_CTRL, by decide +kernel⟩⟩

/-- States and operands that meet every hypothesis of `Obligations.NearestLegalValue`, clause by clause. -/
theorem test_witness_NearestLegalValue :
    (∃ (lo : Nat), ∃ (hi : Nat), ∃ (step : Nat), 0 < step ∧ hi < lo) ∧
    (∃ (lo : Nat), ∃ (hi : Nat), ∃ (step : Nat), ∃ (x : Nat), 0 < step ∧ lo ≤ hi) :=
  ⟨⟨1, 0, 1, by decide +kernel⟩,
   ⟨10, 20, 10, 15, by decide +kernel⟩⟩

/-- States and operands that meet every hypothesis of `Obligations.ApplyChecksEachField`, clause by clause. -/
theorem test_witness_ApplyChecksEachField :
    (∃ (d : Dev), ∃ (lo : Nat), ∃ (hi : Nat), ∃ (o : Nat), ∃ (r : RegDesc), ∃ (g : Seg), ∃ (st : Staged), lo ≤ o ∧ o < hi ∧ locate o = some (r, o) ∧ r.acc = .rw ∧ g ∈ r.segs ∧ KMap.find d.staged o = some st ∧ (∀ k ≤ g.hi, g.lo ≤ k → bitOf st.written k = true ∧ bitOf st.normal k = false) ∧ g.legal = some .any) ∧
    (∃ (d : Dev), ∃ (lo : Nat), ∃ (hi : Nat), ∃ (o : Nat), ∃ (r : RegDesc), ∃ (g : Seg), ∃ (st : Staged), ∃ a, ∃ b, ∃ step, lo ≤ o ∧ o < hi ∧ locate o = some (r, o) ∧ r.acc = .rw ∧ g ∈ r.segs ∧ KMap.find d.staged o = some st ∧ (∀ k ≤ g.hi, g.lo ≤ k → bitOf st.written k = true ∧ bitOf st.normal k = false) ∧ g.legal = some (.range a b step)) ∧
    (∃ (d : Dev), ∃ (lo : Nat), ∃ (hi : Nat), ∃ (o : Nat), ∃ (r : RegDesc), ∃ (g : Seg), ∃ (st : Staged), ∃ mx, ∃ repl, ∃ also, lo ≤ o ∧ o < hi ∧ locate o = some (r, o) ∧ r.acc = .rw ∧ g ∈ r.segs ∧ KMap.find d.staged o = some st ∧ (∀ k ≤ g.hi, g.lo ≤ k → bitOf st.written k = true ∧ bitOf st.normal k = false) ∧ g.legal = some (.codes mx repl also)) ∧
    (∃ (d : Dev), ∃ (lo : Nat), ∃ (hi : Nat), ∃ (o : Nat), ∃ (r : RegDesc), ∃ (g : Seg), ∃ (st : Staged), let x := fld st.value g.hi g.lo; lo ≤ o ∧ o < hi ∧ locate o = some (r, o) ∧ r.acc = .rw ∧ g ∈ r.segs ∧ KMap.find d.staged o = some st ∧ (∀ k ≤ g.hi, g.lo ≤ k → bitOf st.written k = true ∧ bitOf st.normal k = false) ∧ g.legal = none ∧ x ≠ 0) ∧
    (∃ (d : Dev), ∃ (lo : Nat), ∃ (hi : Nat), ∃ (o : Nat), ∃ (r : RegDesc), ∃ (g : Seg), ∃ (st : Staged), ∃ k, lo ≤ o ∧ o < hi ∧ locate o = some (r, o) ∧ r.acc = .rw ∧ g ∈ r.segs ∧ KMap.find d.staged o = some st ∧ (∀ k ≤ g.hi, g.lo ≤ k → bitOf st.written k = true ∧ bitOf st.normal k = false) ∧ lo ≤ k ∧ k < hi) ∧
    (∃ (d : Dev), ∃ (lo : Nat), ∃ (hi : Nat), ∃ (o : Nat), ∃ (r : RegDesc), ∃ (g : Seg), ∃ (st : Staged), ∃ k, lo ≤ o ∧ o < hi ∧ locate o = some (r, o) ∧ r.acc = .rw ∧ g ∈ r.segs ∧ KMap.find d.staged o = some st ∧ (∀ k ≤ g.hi, g.lo ≤ k → bitOf st.written k = true ∧ bitOf st.normal k = false) ∧ (k < lo ∨ hi ≤ k)) :=
  ⟨⟨stagedAt Off.SCH_CTRL 0xF0 Dev.reset, 0, 0x10000, Off.SCH_CTRL, ((locate Off.SCH_CTRL).get (by decide +kernel)).1, ⟨7, 4, some .any⟩, ⟨0xF0, 0xFFFFFFFF, 0⟩, by decide +kernel⟩,
   ⟨stagedAt Off.SCH_CTRL 0x3FF00 Dev.reset, 0, 0x10000, Off.SCH_CTRL, ((locate Off.SCH_CTRL).get (by decide +kernel)).1, ⟨17, 8, some (.range 0 1000 1)⟩, ⟨0x3FF00, 0xFFFFFFFF, 0⟩, 0, 1000, 1, by decide +kernel⟩,
   ⟨stagedAt Off.SCH_CTRL 8 Dev.reset, 0, 0x10000, Off.SCH_CTRL, ((locate Off.SCH_CTRL).get (by decide +kernel)).1, ⟨3, 0, some (.codes 7 15 15)⟩, ⟨8, 0xFFFFFFFF, 0⟩, 7, 15, 15, by decide +kernel⟩,
   ⟨stagedAt Off.SCH_CTRL 0x80000000 Dev.reset, 0, 0x10000, Off.SCH_CTRL, ((locate Off.SCH_CTRL).get (by decide +kernel)).1, ⟨31, 18, none⟩, ⟨0x80000000, 0xFFFFFFFF, 0⟩, by decide +kernel⟩,
   ⟨stagedAt Off.SCH_CTRL 0x80000000 Dev.reset, 0, 0x10000, Off.SCH_CTRL, ((locate Off.SCH_CTRL).get (by decide +kernel)).1, ⟨31, 18, none⟩, ⟨0x80000000, 0xFFFFFFFF, 0⟩, 0xFFFF, by decide +kernel⟩,
   ⟨stagedAt Off.SCH_CTRL 0x80000000 Dev.reset, 0, 0x10000, Off.SCH_CTRL, ((locate Off.SCH_CTRL).get (by decide +kernel)).1, ⟨31, 18, none⟩, ⟨0x80000000, 0xFFFFFFFF, 0⟩, 0x10000, by decide +kernel⟩⟩

/-- States and operands that meet every hypothesis of `Obligations.ApplyOfABlock`, clause by clause. -/
theorem test_witness_ApplyOfABlock :
    (∃ (s : State), ∃ (m : Master), ∃ (n : Nat), ∃ v, s.dev.setupRefused m (0x600000 + n % 8 * 0x10000 + 0xFFC) 4 = none ∧ v % 2 ^ 32 ≠ 1) ∧
    (∃ (s : State), ∃ (m : Master), ∃ v, s.dev.setupRefused m (0x800000 + 0xFFC) 4 = none ∧ v % 2 ^ 32 ≠ 1) ∧
    (∃ (s : State), ∃ (m : Master), ∃ (n : Nat), ∃ v, s.dev.setupRefused m (0x900000 + n % 4 * 0x10000 + 0xFFC) 4 = none ∧ v % 2 ^ 32 ≠ 1) ∧
    (∃ (s : State), ∃ (m : Master), ∃ (n : Nat), ∃ v, s.dev.setupRefused m (0xA00000 + n % 4 * 0x10000 + 0xFFC) 4 = none ∧ v % 2 ^ 32 ≠ 1) ∧
    (∃ (s : State), ∃ (m : Master), ∃ v, s.dev.setupRefused m (0xB00000 + 0xFFC) 4 = none ∧ v % 2 ^ 32 ≠ 1) ∧
    (∃ (s : State), ∃ (m : Master), ∃ v, s.dev.setupRefused m (0xB10000 + 0xFFC) 4 = none ∧ v % 2 ^ 32 ≠ 1) ∧
    (∃ (s : State), ∃ (m : Master), ∃ v, s.dev.setupRefused m (0xB20000 + 0xFFC) 4 = none ∧ v % 2 ^ 32 ≠ 1) ∧
    (∃ (s : State), ∃ (m : Master), ∃ v, s.dev.setupRefused m (0xB30000 + 0xFFC) 4 = none ∧ v % 2 ^ 32 ≠ 1) ∧
    (∃ (s : State), ∃ (m : Master), ∃ v, s.dev.setupRefused m (0xBF0000 + 0xFFC) 4 = none ∧ v % 2 ^ 32 ≠ 1) ∧
    (∃ (s : State), ∃ (m : Master), ∃ (n : Nat), ∃ v, s.dev.setupRefused m (0xC10000 + n % 16 * 0x4000 + 0xFFC) 4 = none ∧ v % 2 ^ 32 ≠ 1) ∧
    (∃ (s : State), ∃ (m : Master), ∃ v, s.dev.setupRefused m (0xD00000 + 0xFFC) 4 = none ∧ v % 2 ^ 32 ≠ 1) ∧
    (∃ (s : State), ∃ (m : Master), ∃ v, s.dev.setupRefused m (0xE00000 + 0xFFC) 4 = none ∧ v % 2 ^ 32 ≠ 1) ∧
    (∃ (s : State), ∃ (m : Master), ∃ v, s.dev.setupRefused m (0xF00000 + 0xFFC) 4 = none ∧ v % 2 ^ 32 ≠ 1) ∧
    (∃ (s : State), ∃ (m : Master), ∃ v, s.dev.setupRefused m (0 + 0xFFC) 4 = none ∧ v % 2 ^ 32 ≠ 1) ∧
    (∃ (s : State), ∃ (m : Master), ∃ v, s.dev.setupRefused m (0x10000 + 0xFFC) 4 = none ∧ v % 2 ^ 32 ≠ 1) ∧
    (∃ (s : State), ∃ (m : Master), ∃ (n : Nat), ∃ v, s.dev.setupRefused m (0x100000 + n % 64 * 0x10000 + 0xFFC) 4 = none ∧ v % 2 ^ 32 ≠ 1) ∧
    (∃ (s : State), ∃ (m : Master), ∃ (n : Nat), ∃ v, s.dev.setupRefused m (0x700000 + n % 256 * 0x1000 + 0xFFC) 4 = none ∧ v % 2 ^ 32 ≠ 1) ∧
    (∃ (s : State), ∃ (m : Master), s.dev.setupRefused m Off.GLB_CFG_APPLY 4 = none) :=
  ⟨⟨mk [], .mgmt, 7, 2, by decide +kernel⟩,
   ⟨mk [], .mgmt, 0, by decide +kernel⟩,
   ⟨mk [], .mgmt, 3, 2, by decide +kernel⟩,
   ⟨mk [], .mgmt, 3, 0, by decide +kernel⟩,
   ⟨mk [], .mgmtRom, 2, by decide +kernel⟩,
   ⟨mk [], .mgmtRom, 0, by decide +kernel⟩,
   ⟨mk [], .mgmtRom, 2, by decide +kernel⟩,
   ⟨mk [], .mgmtRom, 0, by decide +kernel⟩,
   ⟨mk [], .mgmtRom, 2, by decide +kernel⟩,
   ⟨mk [], .mgmt, 15, 0, by decide +kernel⟩,
   ⟨mk [], .mgmt, 2, by decide +kernel⟩,
   ⟨mk [], .mgmt, 0, by decide +kernel⟩,
   ⟨mk [], .mgmt, 2, by decide +kernel⟩,
   ⟨mk [], .mgmt, 0, by decide +kernel⟩,
   ⟨mk [], .mgmt, 2, by decide +kernel⟩,
   ⟨mk [], .mgmt, 63, 0, by decide +kernel⟩,
   ⟨mk [], .mgmt, 255, 2, by decide +kernel⟩,
   ⟨mk [], .mgmt, by decide +kernel⟩⟩

/-- States and operands that meet every hypothesis of `Obligations.LateRegisterEffects`, clause by clause. -/
theorem test_witness_LateRegisterEffects :
    (∃ (s : State), s.dev.b Off.KV_STATUS 1 = true ∧ s.dev.b Off.KV_CTRL 0 = true) ∧
    (∃ (s : State), ∃ (r : Nat), (KMap.find s.dev.kv.rsvOld r).isSome = true ∧ (∀ x ∈ s.dev.cmds, ∀ h ∈ x.2.handles, ¬ (isReserved h = true ∧ rsvNum h = r))) ∧
    (∃ (s : State), s.dev.judge.shadowPending = true ∧ s.dev.safetyRuns = false) :=
  ⟨⟨mk [(Off.KV_STATUS, 2), (Off.KV_CTRL, 1)], by decide +kernel⟩,
   ⟨mk [] (fun d => { d with kv := { d.kv with rsvOld := [(5, 1)] } }), 5, by decide +kernel⟩,
   ⟨mk [] (fun d => { d with judge := { d.judge with shadowPending := true } }), by decide +kernel⟩⟩

/-- States and operands that meet every hypothesis of `Obligations.DoorbellIndexRange`, clause by clause. -/
theorem test_witness_DoorbellIndexRange :
    (∃ (d : Dev), ∃ (i : Nat), ∃ (r : Nat), ∃ (p : Nat), let n := (p + 2 ^ 32 - d.n (Off.QE_CMD_CONS i r) % 2 ^ 32) % 2 ^ 32; p < 2 ^ 32 ∧ n = 0) ∧
    (∃ (d : Dev), ∃ (i : Nat), ∃ (r : Nat), ∃ (p : Nat), let n := (p + 2 ^ 32 - d.n (Off.QE_CMD_CONS i r) % 2 ^ 32) % 2 ^ 32; p < 2 ^ 32 ∧ 1 ≤ n ∧ n ≤ d.ringSize i r) ∧
    (∃ (d : Dev), ∃ (i : Nat), ∃ (r : Nat), ∃ (p : Nat), let n := (p + 2 ^ 32 - d.n (Off.QE_CMD_CONS i r) % 2 ^ 32) % 2 ^ 32; p < 2 ^ 32 ∧ d.ringSize i r < n) :=
  ⟨⟨regd [(Off.QE_CMD_CONS 255 15, 2 ^ 32 - 1)], 255, 15, 2 ^ 32 - 1, by decide +kernel⟩,
   ⟨regd [(Off.QE_CMD_CONS 255 15, 2 ^ 32 - 1), (Off.QE_CMD_CTRL 255 15, 0x401)], 255, 15, 15, by decide +kernel⟩,
   ⟨regd [(Off.QE_CMD_CONS 255 15, 2 ^ 32 - 1), (Off.QE_CMD_CTRL 255 15, 0x401)], 255, 15, 16, by decide +kernel⟩⟩

/-- States and operands that meet every hypothesis of `Obligations.StaleDoorbellsAndBusWrites`, clause by clause. -/
theorem test_witness_StaleDoorbellsAndBusWrites :
    (∃ (d : Dev), ∃ (i : Nat), ∃ (r : Nat), ∃ (v : Nat), v / 2 ^ 32 % 2 ^ 32 ≠ d.n (Off.QE_DB_GEN i r) % 2 ^ 32) ∧
    (∃ (old : Dev), ∃ (d : Dev), ∃ (i : Nat), ∃ (r : Nat), old.b (Off.QE_CMD_CTRL i r) 0 = false ∧ d.b (Off.QE_CMD_CTRL i r) 0 = true) ∧
    (∃ (s : State), ∃ (m : Master), ∃ (db : DbTarget), ∃ (a : Nat), s.dev.masterRuns m = true ∧ s.dev.safetyReset = false ∧ a = (match db with | .ring i r => s.dev.dbAddr i r | .session v => s.dev.vcDbAddr v) ∧ s.dev.verdict m (s.dev.world m) .write a 8 = .ok) ∧
    (∃ (s : State), ∃ (m : Master), ∃ (db : DbTarget), s.dev.masterRuns m = true ∧ s.dev.safetyReset = false ∧ s.dev.verdict m (s.dev.world m) .write (match db with | .ring i r => s.dev.dbAddr i r | .session v => s.dev.vcDbAddr v) 8 ≠ .ok) ∧
    (∃ (s : State), ∃ (m : Master), ∃ (a : Nat), ∃ (e : Nat), ∃ (k : Nat), ∃ (bs : List Byte), s.dev.masterRuns m = true ∧ s.dev.region a = some (.scratch k, e) ∧ s.dev.verdict m (s.dev.world m) .write a bs.length = .ok) ∧
    (∃ (s : State), ∃ (m : Master), ∃ (a : Nat), ∃ (len : Nat), ∃ (e : Nat), ∃ (k : Nat), s.dev.masterRuns m = true ∧ s.dev.safetyReset = false ∧ s.dev.region a = some (.scratch k, e) ∧ s.dev.verdict m (s.dev.world m) .read a len = .ok) ∧
    (∃ (s : State), ∃ (m : Master), ∃ (a : Nat), ∃ (len : Nat), ∃ (e : Nat), ∃ (k : Nat), ∃ (kind : AccessKind), ∃ (bs : List Byte), s.dev.masterRuns m = true ∧ s.dev.region a = some (.scratch k, e) ∧ s.dev.verdict m (s.dev.world m) kind a (match kind with | .read => len | .write => bs.length) ≠ .ok) ∧
    (∃ (s : State), ∃ (m : Master), ∃ (i : Nat), ∃ (c : Nat), i < 256 ∧ c < 16 ∧ s.dev.setupRefused m (Off.QE_CPL_CONS i c) 4 = none ∧ s.dev.world m = true) :=
  ⟨⟨regd [], 0, 0, 2 ^ 32, by decide +kernel⟩,
   ⟨regd [], regd [(Off.QE_CMD_CTRL 0 0, 1)], 0, 0, by decide +kernel⟩,
   ⟨mk [], .mgmt, DbTarget.ring 0 0, (match (DbTarget.ring 0 0) with | .ring i r => (mk []).dev.dbAddr i r | .session v => (mk []).dev.vcDbAddr v), by decide +kernel, by decide +kernel, rfl, by decide +kernel⟩,
   ⟨mk [(Off.QE_DB_ADDR_HI 0 0, 0x40)], .pcie 0 false, DbTarget.ring 0 0, by decide +kernel⟩,
   ⟨mk [(Off.TILE_BANK_OWNER 0 0, 0x8F1)], .mgmt, 0x4000000000, 0x4010000000, 0, [1], by decide +kernel⟩,
   ⟨mk [(Off.TILE_BANK_OWNER 0 0, 0x8F1)], .mgmt, 0x4000000000, 4, 0x4010000000, 0, by decide +kernel⟩,
   ⟨mk [], .pcie 0 false, 0x4000000000, 4, 0x4010000000, 0, .read, [], by decide +kernel⟩,
   ⟨mk [], .mgmt, 255, 15, by decide +kernel⟩⟩

/-- States and operands that meet every hypothesis of `Obligations.PickupTakesADescriptor`, clause by clause. -/
theorem test_witness_PickupTakesADescriptor :
    (∃ (s : State), ∃ (i : Nat), ∃ (r : Nat), ∃ (cpl : Nat), ∃ (a : Nat), ∃ (desc : List Byte), s.dev.canPickup i r = true ∧ a = s.dev.addr (Off.QE_CMD_BASE_LO i r) (Off.QE_CMD_BASE_HI i r) + s.dev.n (Off.QE_CMD_CONS i r) % s.dev.ringSize i r * 64 ∧ s.dev.verdict (.qe i) (s.dev.world (.qe i)) .read a 64 = .ok ∧ desc = s.bytes a 64 ∧ s.dev.cplOf i desc = some cpl ∧ 0 < s.dev.cplFree i cpl ∧ argBlock desc = none) ∧
    (∃ (s : State), ∃ (i : Nat), ∃ (r : Nat), s.dev.canPickup i r = true ∧ s.dev.safetyReset = false ∧ s.dev.verdict (.qe i) (s.dev.world (.qe i)) .read (s.dev.addr (Off.QE_CMD_BASE_LO i r) (Off.QE_CMD_BASE_HI i r) + s.dev.n (Off.QE_CMD_CONS i r) % s.dev.ringSize i r * 64) 64 ≠ .ok) ∧
    (∃ (s : State), ∃ (i : Nat), ∃ (r : Nat), s.dev.canPickup i r = true ∧ s.dev.safetyReset = false ∧ s.dev.safetyNow = none) ∧
    (∃ (s : State), ∃ (i : Nat), ∃ (r : Nat), s.dev.canPickup i r = false) :=
  ⟨⟨picking 3, 0, 0, 0, (picking 3).dev.addr (Off.QE_CMD_BASE_LO (0) (0)) (Off.QE_CMD_BASE_HI (0) (0)) + (picking 3).dev.n (Off.QE_CMD_CONS (0) (0)) % (picking 3).dev.ringSize (0) (0) * 64, (picking 3).bytes ((picking 3).dev.addr (Off.QE_CMD_BASE_LO (0) (0)) (Off.QE_CMD_BASE_HI (0) (0)) + (picking 3).dev.n (Off.QE_CMD_CONS (0) (0)) % (picking 3).dev.ringSize (0) (0) * 64) 64, by decide +kernel, rfl, by decide +kernel, rfl, by decide +kernel, by decide +kernel, by decide +kernel⟩,
   ⟨picking 1, 0, 0, by decide +kernel⟩,
   ⟨picking 3, 0, 0, by decide +kernel⟩,
   ⟨mk [], 0, 0, by decide +kernel⟩⟩

/-- States and operands that meet every hypothesis of `Obligations.FinishWritesOneRecord`, clause by clause. -/
theorem test_witness_FinishWritesOneRecord :
    (∃ (s : State), ∃ (id : Nat), ∃ (c : Cmd), ∃ (status : Nat), ∃ (a : Nat), ∃ (x : Nat), ∃ k, s.dev.cmd id = some c ∧ c.inst < 256 ∧ c.cpl < 16 ∧ s.dev.tilesOf id = [] ∧ c.kv = [] ∧ c.kvNew = none ∧ x = s.dev.n (Off.QE_CPL_PROD c.inst c.cpl) ∧ a = s.dev.addr (Off.QE_CPL_BASE_LO c.inst c.cpl) (Off.QE_CPL_BASE_HI c.inst c.cpl) + x % s.dev.cplSize c.inst c.cpl * 32 ∧ s.dev.verdict (.qe c.inst) (s.dev.world (.qe c.inst)) .write a 32 = .ok ∧ status ≠ 0x24 ∧ status ≠ 0x30 ∧ c.isRun = false ∧ c.isDraw = false ∧ k ≠ id) ∧
    (∃ (c : Cmd), c.inst < 256) :=
  ⟨⟨run (cmdOf [(0, 1, 0x41)] .running) [(Off.QE_CPL_BASE_LO 0 0, 0x1000000)], 1, cmdOf [(0, 1, 0x41)] .running, 0, 0x1000000, 0, 2, by decide +kernel⟩,
   ⟨cmdOf [] .running, by decide +kernel⟩⟩

/-- States and operands that meet every hypothesis of `Obligations.CommandsStart`, clause by clause. -/
theorem test_witness_CommandsStart :
    (∃ (s : State), ∃ (id : Nat), ∃ (c : Cmd), s.dev.cmd id = some c ∧ c.phase = .admitted ∧ s.dev.late c = false ∧ s.dev.instHeld c.inst = false ∧ (c.ordered && s.dev.earlierOpen id c false) = false ∧ c.isRun = false ∧ c.isDraw = false ∧ s.dev.kvWaits id c = false ∧ (c.copies = true → s.dev.copiesRunning < 4 ∧ s.dev.f (Off.PWR_DOM_STATE 45) 2 0 = 1) ∧ (c.op = 0x50 → s.dev.sendCheck c.inst (c.at 0x1C 4) (c.at 0x18 2) = none)) ∧
    (∃ (s : State), ∃ (id : Nat), ∃ (c : Cmd), ∃ (x : Plan), ∃ (us : List KvUse), s.dev.cmd id = some c ∧ c.phase = .admitted ∧ s.dev.late c = false ∧ s.dev.instHeld c.inst = false ∧ (c.ordered && s.dev.earlierOpen id c false) = false ∧ c.isRun = true ∧ s.dev.cmdPlan c = some x ∧ s.dev.mayBegin (s.dev.instPart c.inst) = true ∧ s.dev.headOf (s.dev.instPart c.inst) c.stream id = true ∧ c.load = none ∧ x.residentIn c.stream = true ∧ s.dev.tilesIdle (c.tiles ++ c.tilesB) = true ∧ s.dev.kvWaits id c = false ∧ (match s.dev.kvStartAll c planOf.image ((List.range c.args.length).zip c.args) with | .ok (us, _) => us.isEmpty | .error _ => false) = true) ∧
    (∃ (s : State), ∃ (id : Nat), ∃ (c : Cmd), ∃ (st : Nat), ∃ (detail : Nat), s.dev.cmd id = some c ∧ c.phase = .admitted ∧ s.dev.late c = false ∧ s.dev.instHeld c.inst = false ∧ (c.ordered && s.dev.earlierOpen id c false) = false ∧ c.op = 0x50 ∧ s.dev.kvWaits id c = false ∧ s.dev.sendCheck c.inst (c.at 0x1C 4) (c.at 0x18 2) = some (st, detail)) ∧
    (∃ (s : State), ∃ (id : Nat), ∃ (c : Cmd), s.dev.cmd id = some c ∧ c.phase = .admitted ∧ s.dev.late c = true) :=
  ⟨⟨run (cmdOf [(0, 1, 0x41)] .admitted) [(Off.QE_INST_STATUS 0, 1)], 1, cmdOf [(0, 1, 0x41)] .admitted, by decide +kernel⟩,
   ⟨run ({ cmdOf [(0, 1, 1), (0x10, 4, 1)] .admitted with tiles := [0] }) [(Off.QE_INST_STATUS 0, 1), (Off.TILE_STATUS 0, 1)] (fun d => { parted [1] d with plans := [{ planOf with resident := [0] }] }), 1, { cmdOf [(0, 1, 1), (0x10, 4, 1)] .admitted with tiles := [0] }, { planOf with resident := [0] }, [], by decide +kernel⟩,
   ⟨run (cmdOf [(0, 1, 0x50)] .admitted) [(Off.QE_INST_STATUS 0, 1)], 1, cmdOf [(0, 1, 0x50)] .admitted, 0x20, 0x1C, by decide +kernel⟩,
   ⟨run (cmdOf [(0, 1, 0x41), (0xC, 4, 2 ^ 32 - 1)] .admitted), 1, cmdOf [(0, 1, 0x41), (0xC, 4, 2 ^ 32 - 1)] .admitted, by decide +kernel⟩⟩

/-- States and operands that meet every hypothesis of `Obligations.CopyFillCheckExecute`, clause by clause. -/
theorem test_witness_CopyFillCheckExecute :
    (∃ (s : State), ∃ (id : Nat), ∃ (c : Cmd), ∃ (ecc : Ecc), ∃ (n : Nat), ∃ (dst : Nat), ∃ (d : Dev), s.dev.cmd id = some c ∧ c.op = 0x10 ∧ c.phase = .running ∧ ecc ≠ .uncorrectable ∧ n = c.at 0x20 4 ∧ 0 < n ∧ dst = c.at 0x18 8 + 32 * (c.at 0x24 1 % 2) ∧ d = s.dev.memEcc (c.at 0x10 8) ecc ∧ s.dev.reach (.qe c.inst) (s.dev.world (.qe c.inst)) .read (c.at 0x10 8) n = n ∧ d.reach (.qe c.inst) (d.world (.qe c.inst)) .write dst n = n ∧ d.verdict (.qe c.inst) (d.world (.qe c.inst)) .write dst n = .ok) ∧
    (∃ (s : State), ∃ (id : Nat), ∃ (c : Cmd), ∃ (n : Nat), ∃ (dst : Nat), ∃ (r : Nat), ∃ (k : Nat), s.dev.cmd id = some c ∧ c.op = 0x10 ∧ c.phase = .running ∧ n = c.at 0x20 4 ∧ dst = c.at 0x18 8 + 32 * (c.at 0x24 1 % 2) ∧ r = s.dev.reach (.qe c.inst) (s.dev.world (.qe c.inst)) .read (c.at 0x10 8) n ∧ k = min r (s.dev.reach (.qe c.inst) (s.dev.world (.qe c.inst)) .write dst n) ∧ k < n ∧ (0 < k → s.dev.verdict (.qe c.inst) (s.dev.world (.qe c.inst)) .write dst k = .ok)) ∧
    (∃ (s : State), ∃ (id : Nat), ∃ (c : Cmd), s.dev.cmd id = some c ∧ c.op = 0x10 ∧ c.phase = .running ∧ s.dev.reach (.qe c.inst) (s.dev.world (.qe c.inst)) .read (c.at 0x10 8) (c.at 0x20 4) ≠ 0) ∧
    (∃ (s : State), ∃ (id : Nat), ∃ (c : Cmd), ∃ (k : Nat), s.dev.cmd id = some c ∧ c.op = 0x11 ∧ c.phase = .running ∧ c.desc.length = 64 ∧ c.at 0x18 4 = 8 * k ∧ 0 < k ∧ s.dev.reach (.qe c.inst) (s.dev.world (.qe c.inst)) .write (c.at 0x10 8) (8 * k) = 8 * k ∧ s.dev.verdict (.qe c.inst) (s.dev.world (.qe c.inst)) .write (c.at 0x10 8) (8 * k) = .ok) ∧
    (∃ (s : State), ∃ (id : Nat), ∃ (c : Cmd), ∃ (n : Nat), ∃ (v : Nat), s.dev.cmd id = some c ∧ c.op = 0x12 ∧ c.phase = .running ∧ n = c.at 0x18 4 ∧ 0 < n ∧ s.dev.verdict (.qe c.inst) (s.dev.world (.qe c.inst)) .read (c.at 0x10 8) n = .ok ∧ (v = crcOf (c.at 0x1C 1) (if c.at 0x30 4 ≠ 0 ∨ c.at 0x34 4 ≠ 0 then leBytes 4 (c.at 0x30 4) ++ leBytes 4 (c.at 0x34 4) ++ s.bytes (c.at 0x10 8) n else s.bytes (c.at 0x10 8) n))) :=
  ⟨⟨run (cmdOf [(0, 1, 0x10), (0x10, 8, 0x1000000), (0x18, 8, 0x1000040), (0x20, 4, 8)] .running), 1, cmdOf [(0, 1, 0x10), (0x10, 8, 0x1000000), (0x18, 8, 0x1000040), (0x20, 4, 8)] .running, .clean, (cmdOf [(0, 1, 0x10), (0x10, 8, 0x1000000), (0x18, 8, 0x1000040), (0x20, 4, 8)] .running).at 0x20 4, (cmdOf [(0, 1, 0x10), (0x10, 8, 0x1000000), (0x18, 8, 0x1000040), (0x20, 4, 8)] .running).at 0x18 8 + 32 * ((cmdOf [(0, 1, 0x10), (0x10, 8, 0x1000000), (0x18, 8, 0x1000040), (0x20, 4, 8)] .running).at 0x24 1 % 2), (run (cmdOf [(0, 1, 0x10), (0x10, 8, 0x1000000), (0x18, 8, 0x1000040), (0x20, 4, 8)] .running)).dev.memEcc ((cmdOf [(0, 1, 0x10), (0x10, 8, 0x1000000), (0x18, 8, 0x1000040), (0x20, 4, 8)] .running).at 0x10 8) (.clean), by decide +kernel, by decide +kernel, by decide +kernel, by decide +kernel, rfl, by decide +kernel, rfl, rfl, by decide +kernel, by decide +kernel, by decide +kernel⟩,
   ⟨run (cmdOf [(0, 1, 0x10), (0x10, 8, 0x1000000), (0x18, 8, 0x1FFFFFC), (0x20, 4, 8)] .running), 1, cmdOf [(0, 1, 0x10), (0x10, 8, 0x1000000), (0x18, 8, 0x1FFFFFC), (0x20, 4, 8)] .running, (cmdOf [(0, 1, 0x10), (0x10, 8, 0x1000000), (0x18, 8, 0x1FFFFFC), (0x20, 4, 8)] .running).at 0x20 4, (cmdOf [(0, 1, 0x10), (0x10, 8, 0x1000000), (0x18, 8, 0x1FFFFFC), (0x20, 4, 8)] .running).at 0x18 8 + 32 * ((cmdOf [(0, 1, 0x10), (0x10, 8, 0x1000000), (0x18, 8, 0x1FFFFFC), (0x20, 4, 8)] .running).at 0x24 1 % 2), (run (cmdOf [(0, 1, 0x10), (0x10, 8, 0x1000000), (0x18, 8, 0x1FFFFFC), (0x20, 4, 8)] .running)).dev.reach (.qe (cmdOf [(0, 1, 0x10), (0x10, 8, 0x1000000), (0x18, 8, 0x1FFFFFC), (0x20, 4, 8)] .running).inst) ((run (cmdOf [(0, 1, 0x10), (0x10, 8, 0x1000000), (0x18, 8, 0x1FFFFFC), (0x20, 4, 8)] .running)).dev.world (.qe (cmdOf [(0, 1, 0x10), (0x10, 8, 0x1000000), (0x18, 8, 0x1FFFFFC), (0x20, 4, 8)] .running).inst)) .read ((cmdOf [(0, 1, 0x10), (0x10, 8, 0x1000000), (0x18, 8, 0x1FFFFFC), (0x20, 4, 8)] .running).at 0x10 8) ((cmdOf [(0, 1, 0x10), (0x10, 8, 0x1000000), (0x18, 8, 0x1FFFFFC), (0x20, 4, 8)] .running).at 0x20 4), min ((run (cmdOf [(0, 1, 0x10), (0x10, 8, 0x1000000), (0x18, 8, 0x1FFFFFC), (0x20, 4, 8)] .running)).dev.reach (.qe (cmdOf [(0, 1, 0x10), (0x10, 8, 0x1000000), (0x18, 8, 0x1FFFFFC), (0x20, 4, 8)] .running).inst) ((run (cmdOf [(0, 1, 0x10), (0x10, 8, 0x1000000), (0x18, 8, 0x1FFFFFC), (0x20, 4, 8)] .running)).dev.world (.qe (cmdOf [(0, 1, 0x10), (0x10, 8, 0x1000000), (0x18, 8, 0x1FFFFFC), (0x20, 4, 8)] .running).inst)) .read ((cmdOf [(0, 1, 0x10), (0x10, 8, 0x1000000), (0x18, 8, 0x1FFFFFC), (0x20, 4, 8)] .running).at 0x10 8) ((cmdOf [(0, 1, 0x10), (0x10, 8, 0x1000000), (0x18, 8, 0x1FFFFFC), (0x20, 4, 8)] .running).at 0x20 4)) ((run (cmdOf [(0, 1, 0x10), (0x10, 8, 0x1000000), (0x18, 8, 0x1FFFFFC), (0x20, 4, 8)] .running)).dev.reach (.qe (cmdOf [(0, 1, 0x10), (0x10, 8, 0x1000000), (0x18, 8, 0x1FFFFFC), (0x20, 4, 8)] .running).inst) ((run (cmdOf [(0, 1, 0x10), (0x10, 8, 0x1000000), (0x18, 8, 0x1FFFFFC), (0x20, 4, 8)] .running)).dev.world (.qe (cmdOf [(0, 1, 0x10), (0x10, 8, 0x1000000), (0x18, 8, 0x1FFFFFC), (0x20, 4, 8)] .running).inst)) .write ((cmdOf [(0, 1, 0x10), (0x10, 8, 0x1000000), (0x18, 8, 0x1FFFFFC), (0x20, 4, 8)] .running).at 0x18 8 + 32 * ((cmdOf [(0, 1, 0x10), (0x10, 8, 0x1000000), (0x18, 8, 0x1FFFFFC), (0x20, 4, 8)] .running).at 0x24 1 % 2)) ((cmdOf [(0, 1, 0x10), (0x10, 8, 0x1000000), (0x18, 8, 0x1FFFFFC), (0x20, 4, 8)] .running).at 0x20 4)), by decide +kernel, by decide +kernel, by decide +kernel, rfl, rfl, rfl, rfl, by decide +kernel, by decide +kernel⟩,
   ⟨run (cmdOf [(0, 1, 0x10), (0x10, 8, 0x1000000), (0x18, 8, 0x1000040), (0x20, 4, 8)] .running), 1, cmdOf [(0, 1, 0x10), (0x10, 8, 0x1000000), (0x18, 8, 0x1000040), (0x20, 4, 8)] .running, by decide +kernel⟩,
   ⟨run (cmdOf [(0, 1, 0x11), (0x10, 8, 0x1000000), (0x18, 4, 8)] .running), 1, cmdOf [(0, 1, 0x11), (0x10, 8, 0x1000000), (0x18, 4, 8)] .running, 1, by decide +kernel⟩,
   ⟨run (cmdOf [(0, 1, 0x12), (0x10, 8, 0x1000000), (0x18, 4, 1)] .running), 1, cmdOf [(0, 1, 0x12), (0x10, 8, 0x1000000), (0x18, 4, 1)] .running, (cmdOf [(0, 1, 0x12), (0x10, 8, 0x1000000), (0x18, 4, 1)] .running).at 0x18 4, crcOf ((cmdOf [(0, 1, 0x12), (0x10, 8, 0x1000000), (0x18, 4, 1)] .running).at 0x1C 1) (if (cmdOf [(0, 1, 0x12), (0x10, 8, 0x1000000), (0x18, 4, 1)] .running).at 0x30 4 ≠ 0 ∨ (cmdOf [(0, 1, 0x12), (0x10, 8, 0x1000000), (0x18, 4, 1)] .running).at 0x34 4 ≠ 0 then leBytes 4 ((cmdOf [(0, 1, 0x12), (0x10, 8, 0x1000000), (0x18, 4, 1)] .running).at 0x30 4) ++ leBytes 4 ((cmdOf [(0, 1, 0x12), (0x10, 8, 0x1000000), (0x18, 4, 1)] .running).at 0x34 4) ++ (run (cmdOf [(0, 1, 0x12), (0x10, 8, 0x1000000), (0x18, 4, 1)] .running)).bytes ((cmdOf [(0, 1, 0x12), (0x10, 8, 0x1000000), (0x18, 4, 1)] .running).at 0x10 8) ((cmdOf [(0, 1, 0x12), (0x10, 8, 0x1000000), (0x18, 4, 1)] .running).at 0x18 4) else (run (cmdOf [(0, 1, 0x12), (0x10, 8, 0x1000000), (0x18, 4, 1)] .running)).bytes ((cmdOf [(0, 1, 0x12), (0x10, 8, 0x1000000), (0x18, 4, 1)] .running).at 0x10 8) ((cmdOf [(0, 1, 0x12), (0x10, 8, 0x1000000), (0x18, 4, 1)] .running).at 0x18 4)), by decide +kernel, by decide +kernel, by decide +kernel, rfl, by decide +kernel, by decide +kernel, rfl⟩⟩

/-- States and operands that meet every hypothesis of `Obligations.SequenceCommandsExecute`, clause by clause. -/
theorem test_witness_SequenceCommandsExecute :
    (∃ (s : State), ∃ (id : Nat), ∃ (c : Cmd), s.dev.cmd id = some c ∧ c.op = 0x20 ∧ c.phase = .running ∧ (match s.dev.kvAlloc c with | .ok _ => true | .error _ => false) = true) ∧
    (∃ (s : State), ∃ (id : Nat), ∃ (c : Cmd), ∃ (st : Nat), s.dev.cmd id = some c ∧ c.op = 0x20 ∧ c.phase = .running ∧ (match s.dev.kvAlloc c with | .ok _ => false | .error e => e == st) = true) ∧
    (∃ (s : State), ∃ (id : Nat), ∃ (c : Cmd), s.dev.cmd id = some c ∧ c.op = 0x22 ∧ c.phase = .running) ∧
    (∃ (s : State), ∃ (id : Nat), ∃ (c : Cmd), s.dev.cmd id = some c ∧ c.op = 0x21 ∧ c.phase = .running ∧ s.dev.kvLive (c.at 0x10 4) = true ∧ s.dev.kvMine (c.at 0x10 4) c.inst = true) ∧
    (∃ (s : State), ∃ (id : Nat), ∃ (c : Cmd), s.dev.cmd id = some c ∧ c.op = 0x21 ∧ c.phase = .running ∧ (s.dev.kvLive (c.at 0x10 4) = false ∨ s.dev.kvMine (c.at 0x10 4) c.inst = false)) :=
  ⟨⟨run (cmdOf [(0, 1, 0x20), (0x18, 4, 1)] .running) [(Off.KV_DIR_PAGES, 1), (Off.KV_POOL_PAGES, 1)], 1, cmdOf [(0, 1, 0x20), (0x18, 4, 1)] .running, by decide +kernel⟩,
   ⟨run (cmdOf [(0, 1, 0x20), (0x14, 4, 2), (0x18, 4, 1)] .running) [(Off.KV_POOL_PAGES, 2)], 1, cmdOf [(0, 1, 0x20), (0x14, 4, 2), (0x18, 4, 1)] .running, 0x31, by decide +kernel⟩,
   ⟨run (cmdOf [(0, 1, 0x22)] .running), 1, cmdOf [(0, 1, 0x22)] .running, by decide +kernel⟩,
   ⟨run (cmdOf [(0, 1, 0x21), (0x10, 4, 1)] .running) [] (fun d => { d with kv := { d.kv with recs := [(1, { KvRec.empty with st := 1 })] } }), 1, cmdOf [(0, 1, 0x21), (0x10, 4, 1)] .running, by decide +kernel⟩,
   ⟨run (cmdOf [(0, 1, 0x21), (0x10, 4, 1)] .running), 1, cmdOf [(0, 1, 0x21), (0x10, 4, 1)] .running, by decide +kernel⟩⟩

/-- States and operands that meet every hypothesis of `Obligations.FenceTimestampSendCommit`, clause by clause. -/
theorem test_witness_FenceTimestampSendCommit :
    (∃ (s : State), ∃ (id : Nat), ∃ (c : Cmd), s.dev.cmd id = some c ∧ c.op = 0x40 ∧ c.phase = .running ∧ s.dev.earlierOpen id c (c.at 0x10 1 == 1) = false) ∧
    (∃ (s : State), ∃ (id : Nat), ∃ (c : Cmd), s.dev.cmd id = some c ∧ s.dev.earlierOpen id c (c.at 0x10 1 == 1) = true) ∧
    (∃ (s : State), ∃ (id : Nat), ∃ (c : Cmd), s.dev.cmd id = some c ∧ c.op = 0x41 ∧ c.phase = .running) ∧
    (∃ (s : State), ∃ (id : Nat), ∃ (c : Cmd), s.dev.cmd id = some c ∧ c.op = 0x50 ∧ c.phase = .running ∧ 0 < c.at 0x18 2 ∧ s.dev.verdict (.qe c.inst) (s.dev.world (.qe c.inst)) .read (c.at 0x10 8) (c.at 0x18 2) = .ok) ∧
    (∃ (s : State), ∃ (id : Nat), ∃ (c : Cmd), s.dev.cmd id = some c ∧ c.phase = .ended ∧ s.dev.late c = false ∧ s.dev.registerFails c = none) ∧
    (∃ (s : State), ∃ (id : Nat), ∃ (c : Cmd), s.dev.cmd id = some c ∧ c.phase = .ended ∧ s.dev.late c = true) ∧
    (∃ (s : State), ∃ (id : Nat), ∃ (c : Cmd), s.dev.cmd id = some c ∧ c.phase = .ended ∧ s.dev.late c = false ∧ c.op = 0x41 ∧ c.kv = [] ∧ c.kvNew = none ∧ c.frame = none ∧ c.args = [] ∧ s.dev.tilesOf id = [] ∧ s.dev.verdict (.qe c.inst) (s.dev.world (.qe c.inst)) .write (c.at 0x10 8) 16 = .ok) :=
  ⟨⟨run (cmdOf [(0, 1, 0x40)] .running), 1, cmdOf [(0, 1, 0x40)] .running, by decide +kernel⟩,
   ⟨run (cmdOf [(0, 1, 0x40)] .running) [] (fun d => { d with cmds := [(1, (cmdOf [(0, 1, 0x40)] .running)), (2, (cmdOf [(0, 1, 0x40)] .running))] }), 2, cmdOf [(0, 1, 0x40)] .running, by decide +kernel⟩,
   ⟨run (cmdOf [(0, 1, 0x41)] .running), 1, cmdOf [(0, 1, 0x41)] .running, by decide +kernel⟩,
   ⟨run (cmdOf [(0, 1, 0x50), (0x10, 8, 0x1000000), (0x18, 2, 64)] .running), 1, cmdOf [(0, 1, 0x50), (0x10, 8, 0x1000000), (0x18, 2, 64)] .running, by decide +kernel⟩,
   ⟨run (cmdOf [(0, 1, 0x10)] .ended), 1, cmdOf [(0, 1, 0x10)] .ended, by decide +kernel⟩,
   ⟨run (cmdOf [(0, 1, 0x41), (0xC, 4, 2 ^ 32 - 1)] .ended), 1, cmdOf [(0, 1, 0x41), (0xC, 4, 2 ^ 32 - 1)] .ended, by decide +kernel⟩,
   ⟨run (cmdOf [(0, 1, 0x41), (0x10, 8, 0x1000000)] .ended), 1, cmdOf [(0, 1, 0x41), (0x10, 8, 0x1000000)] .ended, by decide +kernel⟩⟩

/-- States and operands that meet every hypothesis of `Obligations.PlanCommandsExecute`, clause by clause. -/
theorem test_witness_PlanCommandsExecute :
    (∃ (s : State), ∃ (id : Nat), ∃ (c : Cmd), ∃ (code : CodeInfo), ∃ (m : List Byte), s.dev.cmd id = some c ∧ c.op = 0x02 ∧ c.phase = .running ∧ c.image = [] ∧ 0 < c.at 0x14 4 ∧ s.dev.verdict (.qe c.inst) (s.dev.world (.qe c.inst)) .read (c.at 0x18 8) (c.at 0x14 4) = .ok ∧ m = s.bytes (c.at 0x18 8) (c.at 0x14 4) ∧ s.dev.loadPlanCheck c m code = none) ∧
    (∃ (s : State), ∃ (id : Nat), ∃ (c : Cmd), ∃ (code : CodeInfo), ∃ (m : List Byte), ∃ (st : Nat), s.dev.cmd id = some c ∧ c.op = 0x02 ∧ c.phase = .running ∧ c.image = [] ∧ 0 < c.at 0x14 4 ∧ s.dev.verdict (.qe c.inst) (s.dev.world (.qe c.inst)) .read (c.at 0x18 8) (c.at 0x14 4) = .ok ∧ m = s.bytes (c.at 0x18 8) (c.at 0x14 4) ∧ s.dev.loadPlanCheck c m code = some st) ∧
    (∃ (s : State), ∃ (id : Nat), ∃ (c : Cmd), s.dev.cmd id = some c ∧ c.op = 0x03 ∧ c.phase = .running) ∧
    (∃ (s : State), ∃ (id : Nat), ∃ (c : Cmd), ∃ (b : Bool), s.dev.cmd id = some c ∧ c.op = 0x01 ∧ c.phase = .running ∧ s.dev.launchesDone c b = true ∧ (∀ t ∈ c.copyTiles b, (s.dev.tile t).flight = [])) ∧
    (∃ (s : State), ∃ (id : Nat), ∃ (t : Nat), ∃ (c : Cmd), s.dev.cmd id = some c ∧ c.op = 0x01 ∧ c.phase = .running ∧ s.dev.onIt id t = true) :=
  ⟨⟨holding 0x1000000 imageOf (run (cmdOf [(0, 1, 0x02), (0x10, 4, 1), (0x14, 4, 104), (0x18, 8, 0x1000000)] .running)), 1, cmdOf [(0, 1, 0x02), (0x10, 4, 1), (0x14, 4, 104), (0x18, 8, 0x1000000)] .running, noCode, imageOf, by decide +kernel⟩,
   ⟨holding 0x1000000 imageOf (run (cmdOf [(0, 1, 0x02), (0x10, 4, 1), (0x14, 4, 104), (0x18, 8, 0x1000000)] .running)), 1, cmdOf [(0, 1, 0x02), (0x10, 4, 1), (0x14, 4, 104), (0x18, 8, 0x1000000)] .running, { noCode with convs := [(99, 0)] }, imageOf, 0x20, by decide +kernel⟩,
   ⟨run (cmdOf [(0, 1, 0x03)] .running), 1, cmdOf [(0, 1, 0x03)] .running, by decide +kernel⟩,
   ⟨run (cmdOf [(0, 1, 0x01)] .running), 1, cmdOf [(0, 1, 0x01)] .running, true, by decide +kernel⟩,
   ⟨run (cmdOf [(0, 1, 0x01)] .running) [] (fun d => { d with tiles := [(63, { Tile.empty with cmd := some 1 })] }), 1, 63, cmdOf [(0, 1, 0x01)] .running, by decide +kernel⟩⟩

/-- States and operands that meet every hypothesis of `Obligations.LoadsStartAndEnd`, clause by clause. -/
theorem test_witness_LoadsStartAndEnd :
    (∃ (s : State), ∃ (id : Nat), ∃ (c : Cmd), ∃ (l : Load), ∃ (taken : List (Nat × Nat)), s.dev.cmd id = some c ∧ c.load = some l ∧ l.started = none ∧ s.dev.mayBegin (s.dev.instPart c.inst) = true ∧ s.dev.headOf (s.dev.instPart c.inst) l.stream id = true ∧ (s.dev.takeBanks (s.dev.instPart c.inst) l.banks l.tiles).map Prod.snd = some taken) ∧
    (∃ (s : State), ∃ (id : Nat), ∃ (c : Cmd), ∃ (l : Load), s.dev.cmd id = some c ∧ c.load = some l ∧ l.started = none ∧ s.dev.mayBegin (s.dev.instPart c.inst) = true ∧ s.dev.headOf (s.dev.instPart c.inst) l.stream id = true ∧ (s.dev.takeBanks (s.dev.instPart c.inst) l.banks l.tiles).isNone = true ∧ c.loads = false) ∧
    (∃ (s : State), ∃ (id : Nat), ∃ (c : Cmd), ∃ (l : Load), s.dev.cmd id = some c ∧ c.load = some l ∧ l.started = none ∧ s.dev.mayBegin (s.dev.instPart c.inst) = true ∧ s.dev.headOf (s.dev.instPart c.inst) l.stream id = true ∧ (s.dev.takeBanks (s.dev.instPart c.inst) l.banks l.tiles).isNone = true ∧ c.loads = true ∧ s.dev.pinsHold (s.dev.instPart c.inst) l = false) ∧
    (∃ (s : State), ∃ (id : Nat), ∃ (c : Cmd), ∃ (l : Load), s.dev.cmd id = some c ∧ c.load = some l ∧ l.started = none ∧ s.dev.mayBegin (s.dev.instPart c.inst) = true ∧ s.dev.headOf (s.dev.instPart c.inst) l.stream id = true ∧ (s.dev.takeBanks (s.dev.instPart c.inst) l.banks l.tiles).isNone = true ∧ c.loads = true ∧ s.dev.pinsHold (s.dev.instPart c.inst) l = true ∧ 2 ≤ c.at 0x20 1 % 4) ∧
    (∃ (s : State), ∃ (id : Nat), ∃ (c : Cmd), ∃ (l : Load), ∃ (x : Plan), ∃ (m : List Byte), s.dev.cmd id = some c ∧ c.load = some l ∧ l.started ≠ none ∧ c.phase ≠ .ended ∧ c.loads = false ∧ s.dev.cmdPlan c = some x ∧ 0 < x.image.length ∧ s.dev.verdict (.qe x.inst) (s.dev.world (.qe x.inst)) .read x.addr x.image.length = .ok ∧ m = s.bytes x.addr x.image.length ∧ crcEndOk m = true ∧ leAt m (m.length - 8) 8 = x.crc) ∧
    (∃ (s : State), ∃ (id : Nat), ∃ (c : Cmd), ∃ (l : Load), ∃ (x : Plan), ∃ (m : List Byte), s.dev.cmd id = some c ∧ c.load = some l ∧ l.started ≠ none ∧ c.phase ≠ .ended ∧ c.loads = false ∧ s.dev.cmdPlan c = some x ∧ 0 < x.image.length ∧ s.dev.verdict (.qe x.inst) (s.dev.world (.qe x.inst)) .read x.addr x.image.length = .ok ∧ m = s.bytes x.addr x.image.length ∧ (crcEndOk m = false ∨ leAt m (m.length - 8) 8 ≠ x.crc)) :=
  ⟨⟨run ({ cmdOf [(0, 1, 1), (0x10, 4, 1)] .admitted with load := some (loadOf none) }) [] (parted [1]), 1, { cmdOf [(0, 1, 1), (0x10, 4, 1)] .admitted with load := some (loadOf none) }, loadOf none, [], by decide +kernel⟩,
   ⟨run ({ cmdOf [(0, 1, 1), (0x10, 4, 1)] .admitted with load := some { loadOf none with banks := 1 } }) [] (parted [1]), 1, { cmdOf [(0, 1, 1), (0x10, 4, 1)] .admitted with load := some { loadOf none with banks := 1 } }, { loadOf none with banks := 1 }, by decide +kernel⟩,
   ⟨run ({ cmdOf [(0, 1, 2), (0x10, 4, 1), (0x20, 1, 1)] .admitted with load := some { loadOf none with banks := 1 } }) [] (fun d => { bankedPlan false (parted [1] d) with cmds := [(1, ({ cmdOf [(0, 1, 2), (0x10, 4, 1), (0x20, 1, 1)] .admitted with load := some { loadOf none with banks := 1 } })), (2, cmdOf [(0, 1, 1), (0x10, 4, 2)] .waiting)] }), 1, { cmdOf [(0, 1, 2), (0x10, 4, 1), (0x20, 1, 1)] .admitted with load := some { loadOf none with banks := 1 } }, { loadOf none with banks := 1 }, by decide +kernel⟩,
   ⟨run ({ cmdOf [(0, 1, 2), (0x10, 4, 1), (0x20, 1, 2)] .admitted with load := some { loadOf none with banks := 1 } }) [] (fun d => bankedPlan true (parted [1] d)), 1, { cmdOf [(0, 1, 2), (0x10, 4, 1), (0x20, 1, 2)] .admitted with load := some { loadOf none with banks := 1 } }, { loadOf none with banks := 1 }, by decide +kernel⟩,
   ⟨holding 0x1000000 imageOf (run ({ cmdOf [(0, 1, 1), (0x10, 4, 1)] .admitted with load := some (loadOf (some 0)) }) [] (fun d => { d with plans := [planOf] })), 1, { cmdOf [(0, 1, 1), (0x10, 4, 1)] .admitted with load := some (loadOf (some 0)) }, loadOf (some 0), planOf, imageOf, by decide +kernel⟩,
   ⟨run ({ cmdOf [(0, 1, 1), (0x10, 4, 1)] .admitted with load := some (loadOf (some 0)) }) [] (fun d => { d with plans := [planOf] }), 1, { cmdOf [(0, 1, 1), (0x10, 4, 1)] .admitted with load := some (loadOf (some 0)) }, loadOf (some 0), planOf, zeros 104, by decide +kernel⟩⟩

/-- States and operands that meet every hypothesis of `Obligations.KillsEndOrRequeue`, clause by clause. -/
theorem test_witness_KillsEndOrRequeue :
    (∃ (s : State), ∃ (id : Nat), ∃ (c : Cmd), s.dev.cmd id = some c ∧ c.phase = .stopping none) ∧
    (∃ (s : State), ∃ (id : Nat), ∃ (st : Nat), ∃ (c : Cmd), s.dev.cmd id = some c ∧ c.phase = .stopping (some st)) ∧
    (∃ (s : State), ∃ (id : Nat), ∃ (c : Cmd), s.dev.cmd id = some c ∧ (c.phase = .running ∨ c.phase = .ended) ∧ c.startAt + (c.timeBudget + s.dev.graceUs) * 1000 ≤ s.dev.now) ∧
    (∃ (s : State), ∃ (id : Nat), ∃ (c : Cmd), s.dev.cmd id = some c ∧ (c.phase = .running ∨ c.phase = .ended) ∧ c.op = 0x01 ∧ s.dev.instSafe c.inst = true ∧ c.overran = false ∧ c.startAt + c.timeBudget * 1000 ≤ s.dev.now) ∧
    (∃ (s : State), ∃ (a : Nat), ∃ (n : Nat), a ∈ s.dev.discards ∧ s.dev.rtEntry a = some n) :=
  ⟨⟨run (cmdOf [(0, 1, 1)] (.stopping none)), 1, cmdOf [(0, 1, 1)] (.stopping none), by decide +kernel⟩,
   ⟨run (cmdOf [(0, 1, 1)] (.stopping (some 0x11))), 1, 0x11, cmdOf [(0, 1, 1)] (.stopping (some 0x11)), by decide +kernel⟩,
   ⟨run (cmdOf [(0, 1, 1), (8, 4, 10)] .running) [] (after 1010000), 1, cmdOf [(0, 1, 1), (8, 4, 10)] .running, by decide +kernel⟩,
   ⟨run (cmdOf [(0, 1, 1), (8, 4, 10)] .running) [] (fun d => { after 10000 d with sched := { d.sched with ctrl := 0 } }), 1, cmdOf [(0, 1, 1), (8, 4, 10)] .running, by decide +kernel⟩,
   ⟨mk [(Off.RT_ATTR 5, 1), (Off.RT_BASE_HI 5, 0x100), (Off.RT_LIMIT_HI 5, 0x101)] (fun d => { d with discards := [0x10000000000] }), 0x10000000000, 5, by decide +kernel⟩⟩

/-- States and operands that meet every hypothesis of `Obligations.TeardownAndPartitionReset`, clause by clause. -/
theorem test_witness_TeardownAndPartitionReset :
    (∃ (s : State), ∃ (i : Nat), ∃ (stop : Bool), (s.dev.inst i).teardown = some stop) ∧
    (∃ (s : State), ∃ (m : Master), ∃ (p : Nat), p < 8 ∧ s.dev.setupRefused m (Off.SCH_PART_RESET p) 4 = none ∧ (s.dev.part p).resetting = false) ∧
    (∃ (s : State), ∃ (p : Nat), (s.dev.part p).resetting = true) ∧
    (∃ (s : State), ∃ (i : Nat), (s.dev.inst i).oldPart ≠ none ∧ s.dev.instFlight i = 0) :=
  ⟨⟨mk [] (inst0 (fun x => { x with teardown := some true })), 0, true, by decide +kernel⟩,
   ⟨mk [], .mgmt, 7, by decide +kernel⟩,
   ⟨mk [] (fun d => { d with parts := [(7, { Part.empty with resetting := true })] }), 7, by decide +kernel⟩,
   ⟨mk [] (inst0 (fun x => { x with oldPart := some 7 })), 0, by decide +kernel⟩⟩

/-- States and operands that meet every hypothesis of `Obligations.StepRunsTheFrontCommand`, clause by clause. -/
theorem test_witness_StepRunsTheFrontCommand :
    (∃ (s : State), s.pending = []) :=
  ⟨mk [], by decide +kernel⟩

/-- States and operands that meet every hypothesis of `Obligations.EveryCommandLeavesTheQueue`, clause by clause. -/
theorem test_witness_EveryCommandLeavesTheQueue :
    (∃ (c : Instr), ∃ (s : State), ∃ (t : State), exec c s = .next t) ∧
    (∃ (c : Instr), ∃ (s : State), ∃ (f : Fault), exec c s = .fault f) :=
  ⟨⟨.spFlashEraseDone, mk [], mk [], rfl⟩,
   ⟨.mbxSubmit .mgmt 0 1, mk [(Off.MBX_CH_CTRL 0, 1)] (fun d => { d with vox := { d.vox with record := leBytes 6 (2 ^ 32) } }), .mboxMajorUndefined, by rfl⟩⟩

/-- States and operands that meet every hypothesis of `Obligations.MemoryStaysCanonical`, clause by clause. -/
theorem test_witness_MemoryStaysCanonical :
    (∃ (s : State), ∃ (t : State), s.MemOk ∧ step s = .next t) :=
  ⟨{ State.reset with pending := [.spFlashEraseDone] }, State.reset, ⟨by decide +kernel, by decide +kernel⟩, rfl⟩

/-- States and operands that meet every hypothesis of `Obligations.FreezeThawDiscard`, clause by clause. -/
theorem test_witness_FreezeThawDiscard :
    (∃ (s : State), ∃ (m : Master), ∃ (i : Nat), ∃ (c : Instr), c = .thaw m i ∧ s.dev.setupRefused m (Off.QE_FREEZE i) 4 = none ∧ ((s.dev.inst i).op ≠ 0 ∨ (s.dev.inst i).teardown ≠ none ∨ (s.dev.part (s.dev.instPart i)).resetting = true)) ∧
    (∃ (s : State), ∃ (m : Master), ∃ (i : Nat), ∃ (op : Nat), ∃ (c : Instr), s.dev.setupRefused m (Off.QE_FREEZE i) 4 = none ∧ (s.dev.inst i).op = 0 ∧ (s.dev.inst i).teardown = none ∧ (s.dev.part (s.dev.instPart i)).resetting = false ∧ c = .restore m i ∧ op = 3 ∧ s.dev.b (Off.QE_CMD_CTRL i 15) 0 = true) ∧
    (∃ (s : State), ∃ (m : Master), ∃ (i : Nat), s.dev.setupRefused m (Off.QE_FREEZE i) 4 = none ∧ (s.dev.inst i).op = 0 ∧ (s.dev.inst i).teardown = none ∧ (s.dev.part (s.dev.instPart i)).resetting = false ∧ s.dev.instState i = 1 ∧ s.dev.instSafe i = false) ∧
    (∃ (s : State), ∃ (id : Nat), ∃ (c : Cmd), s.dev.cmd id = some c ∧ c.phase = .waiting) ∧
    (∃ (s : State), ∃ (id : Nat), ∃ (c : Cmd), s.dev.cmd id = some c ∧ c.phase = .admitted) ∧
    (∃ (s : State), ∃ (id : Nat), ∃ (c : Cmd), ∃ k, (k ∈ s.dev.tilesOf id) ∧ s.dev.cmd id = some c ∧ c.phase = .running ∧ s.dev.tilesOf id ≠ []) ∧
    (∃ (s : State), ∃ (i : Nat), (s.dev.inst i).op = 1 ∧ s.dev.cmdsOf i = [1] ∧ (s.dev.cmd 1).map Cmd.phase = some .held) ∧
    (∃ (s : State), ∃ (m : Master), ∃ (i : Nat), s.dev.setupRefused m (Off.QE_FREEZE i) 4 = none ∧ (s.dev.inst i).op = 0 ∧ (s.dev.inst i).teardown = none ∧ (s.dev.part (s.dev.instPart i)).resetting = false ∧ s.dev.instState i = 2) ∧
    (∃ (s : State), ∃ (m : Master), ∃ (i : Nat), i < 256 ∧ s.dev.setupRefused m (Off.QE_FREEZE i) 4 = none ∧ (s.dev.inst i).op = 0 ∧ (s.dev.inst i).teardown = none ∧ (s.dev.part (s.dev.instPart i)).resetting = false ∧ s.dev.instState i = 2) :=
  ⟨⟨mk [] (inst0 (fun x => { x with op := 2 })), .mgmt, 0, .thaw .mgmt 0, by decide +kernel⟩,
   ⟨mk [(Off.QE_CMD_CTRL 0 15, 1)], .mgmt, 0, 3, .restore .mgmt 0, by decide +kernel⟩,
   ⟨mk [(Off.QE_INST_STATUS 0, 1)], .mgmt, 0, by decide +kernel⟩,
   ⟨run (cmdOf [] .waiting), 1, cmdOf [] .waiting, by decide +kernel⟩,
   ⟨run (cmdOf [] .admitted), 1, cmdOf [] .admitted, by decide +kernel⟩,
   ⟨run (cmdOf [] .running) [] (fun d => { d with tiles := [(63, { Tile.empty with cmd := some 1 })] }), 1, cmdOf [] .running, 63, by decide +kernel, by decide +kernel⟩,
   ⟨run (cmdOf [] .held) [] (inst0 (fun x => { x with op := 1 })), 0, by decide +kernel⟩,
   ⟨mk [(Off.QE_INST_STATUS 0, 2)], .mgmt, 0, by decide +kernel⟩,
   ⟨mk [(Off.QE_INST_STATUS 255, 2)], .mgmt, 255, by decide +kernel⟩⟩

/-- States and operands that meet every hypothesis of `Obligations.SaveAndRestore`, clause by clause. -/
theorem test_witness_SaveAndRestore :
    (∃ (s : State), ∃ (m : Master), ∃ (i : Nat), ∃ (e : Dev), s.dev.setupRefused m (Off.QE_FREEZE i) 4 = none ∧ (s.dev.inst i).op = 0 ∧ (s.dev.inst i).teardown = none ∧ (s.dev.part (s.dev.instPart i)).resetting = false ∧ s.dev.instState i = 2 ∧ e = (s.dev.freezeBusy i 2).onInst i (fun x => { x with image := [], opResult := 0x20 }) ∧ (s.dev.saveImage i).length ≤ s.dev.n (Off.QE_SAVE_BYTES i) ∧ e.verdict (.qe i) (e.world (.qe i)) .write (s.dev.saveAddr i) (s.dev.saveImage i).length = .ok) ∧
    (∃ (s : State), ∃ (m : Master), ∃ (i : Nat), s.dev.setupRefused m (Off.QE_FREEZE i) 4 = none ∧ (s.dev.inst i).op = 0 ∧ (s.dev.inst i).teardown = none ∧ (s.dev.part (s.dev.instPart i)).resetting = false ∧ s.dev.instState i = 2 ∧ s.dev.n (Off.QE_SAVE_BYTES i) < (s.dev.saveImage i).length) ∧
    (∃ (s : State), ∃ (i : Nat), (s.dev.inst i).op = 2) ∧
    (∃ (s : State), ∃ (m : Master), ∃ (i : Nat), ∃ (e : Dev), ∃ (head : List Byte), ∃ (img : List Byte), s.dev.setupRefused m (Off.QE_FREEZE i) 4 = none ∧ (s.dev.inst i).op = 0 ∧ (s.dev.inst i).teardown = none ∧ (s.dev.part (s.dev.instPart i)).resetting = false ∧ s.dev.instState i = 0 ∧ s.dev.instSafe i = false ∧ (∀ r < 16, s.dev.b (Off.QE_CMD_CTRL i r) 0 = false ∧ s.dev.b (Off.QE_CPL_CTRL i r) 0 = false) ∧ e = (s.dev.freezeBusy i 3).onInst i (fun x => { x with image := [], seqs := [], opResult := 0 }) ∧ head = s.bytes (s.dev.saveAddr i) 64 ∧ img = s.bytes (s.dev.saveAddr i) (leAt head 0x10 4) ∧ e.verdict (.qe i) (e.world (.qe i)) .read (s.dev.saveAddr i) 64 = .ok ∧ e.verdict (.qe i) (e.world (.qe i)) .read (s.dev.saveAddr i) (leAt head 0x10 4) = .ok ∧ (imgSeqs img).1 = []) ∧
    (∃ (s : State), ∃ (i : Nat), i < 256 ∧ (s.dev.inst i).op = 3 ∧ (s.dev.inst i).opResult ≠ 0 ∧ (s.dev.inst i).seqs = []) ∧
    (∃ (s : State), ∃ (v : State), ∃ (i : Nat), ∃ (codes : List CodeInfo), ∃ (m : List Byte), i < 256 ∧ m = (s.dev.inst i).image ∧ (s.dev.inst i).op = 3 ∧ (s.dev.inst i).opResult = 0 ∧ (s.dev.inst i).seqs = [] ∧ s.restorePlans m i ((List.range (imgPlans m).length).map (fun k => ((imgPlans m).getD k 0, codes.getD k noCode))) = .ok v) :=
  ⟨⟨mk [(Off.QE_INST_CTRL 0, 2), (Off.QE_INST_STATUS 0, 2), (Off.QE_SAVE_BASE_LO 0, 0x1000000), (Off.QE_SAVE_BYTES 0, 4096)], .mgmt, 0, ((mk [(Off.QE_INST_CTRL 0, 2), (Off.QE_INST_STATUS 0, 2), (Off.QE_SAVE_BASE_LO 0, 0x1000000), (Off.QE_SAVE_BYTES 0, 4096)]).dev.freezeBusy (0) 2).onInst (0) (fun x => { x with image := [], opResult := 0x20 }), by decide +kernel, by decide +kernel, by decide +kernel, by decide +kernel, by decide +kernel, rfl, by decide +kernel, by decide +kernel⟩,
   ⟨mk [(Off.QE_INST_STATUS 0, 2)], .mgmt, 0, by decide +kernel⟩,
   ⟨mk [] (inst0 (fun x => { x with op := 2 })), 0, by decide +kernel⟩,
   ⟨mk [(Off.QE_INST_CTRL 0, 2), (Off.QE_SAVE_BASE_LO 0, 0x1000000)], .mgmt, 0, ((mk [(Off.QE_INST_CTRL 0, 2), (Off.QE_SAVE_BASE_LO 0, 0x1000000)]).dev.freezeBusy (0) 3).onInst (0) (fun x => { x with image := [], seqs := [], opResult := 0 }), (mk [(Off.QE_INST_CTRL 0, 2), (Off.QE_SAVE_BASE_LO 0, 0x1000000)]).bytes ((mk [(Off.QE_INST_CTRL 0, 2), (Off.QE_SAVE_BASE_LO 0, 0x1000000)]).dev.saveAddr (0)) 64, (mk [(Off.QE_INST_CTRL 0, 2), (Off.QE_SAVE_BASE_LO 0, 0x1000000)]).bytes ((mk [(Off.QE_INST_CTRL 0, 2), (Off.QE_SAVE_BASE_LO 0, 0x1000000)]).dev.saveAddr (0)) (leAt ((mk [(Off.QE_INST_CTRL 0, 2), (Off.QE_SAVE_BASE_LO 0, 0x1000000)]).bytes ((mk [(Off.QE_INST_CTRL 0, 2), (Off.QE_SAVE_BASE_LO 0, 0x1000000)]).dev.saveAddr (0)) 64) 0x10 4), by decide +kernel, by decide +kernel, by decide +kernel, by decide +kernel, by decide +kernel, by decide +kernel, by decide +kernel, rfl, rfl, rfl, by decide +kernel, by decide +kernel, by decide +kernel⟩,
   ⟨mk [] (inst0 (fun x => { x with op := 3, opResult := 0x20 })), 0, by decide +kernel⟩,
   ⟨mk [] (inst0 (fun x => { x with op := 3 })), (mk [] (inst0 (fun x => { x with op := 3 }))), 0, [], [], by decide +kernel, rfl, rfl, rfl, rfl, rfl⟩⟩

/-- States and operands that meet every hypothesis of `Obligations.MainFabricAccesses`, clause by clause. -/
theorem test_witness_MainFabricAccesses :
    (∃ (s : State), ∃ (m : Master), ∃ (a : Nat), ∃ (n : Nat), s.dev.masterRuns m = true ∧ s.dev.safetyReset = false ∧ (a < 0xF0000000 ∨ 0x100000000 ≤ a) ∧ s.dev.verdict m (s.dev.world m) .read a n = .ok) ∧
    (∃ (s : State), ∃ (m : Master), ∃ (a : Nat), ∃ (n : Nat), s.dev.masterRuns m = true ∧ (a < 0xF0000000 ∨ 0x100000000 ≤ a) ∧ s.dev.verdict m (s.dev.world m) .read a n = .ok) ∧
    (∃ (s : State), ∃ (m : Master), ∃ (a : Nat), ∃ (bs : List Byte), s.dev.masterRuns m = true ∧ (a < 0xF0000000 ∨ 0x100000000 ≤ a) ∧ s.dev.verdict m (s.dev.world m) .write a bs.length = .ok) ∧
    (∃ (s : State), ∃ (m : Master), ∃ (a : Nat), ∃ (n : Nat), ∃ (k : AccessKind), ∃ (bs : List Byte), s.dev.masterRuns m = true ∧ (a < 0xF0000000 ∨ 0x100000000 ≤ a) ∧ s.dev.verdict m (s.dev.world m) k a (match k with | .read => n | .write => bs.length) ≠ .ok) ∧
    (∃ (s : State), ∃ (m : Master), s.dev.masterRuns m = false) ∧
    (∃ (off : Nat), off < 0x10000000) ∧
    (∃ (s : State), ∃ (w : Bool), ∃ (a : Nat), ∃ (n : Nat), ∃ (e : Nat), ∃ (x : Nat), (s.dev.region a = some (.scratch x, e) ∨ s.dev.region a = some (.hbm, e)) ∧ a + n ≤ e ∧ s.dev.rtAdmits a n w = false) ∧
    (∃ (a : Nat), a < 0x10000000000) :=
  ⟨⟨mk [], .mgmt, 0x1000000, 16, by decide +kernel⟩,
   ⟨mk [], .mgmt, 0x1000000, 16, by decide +kernel⟩,
   ⟨mk [], .mgmt, 0x1000000, [1, 2], by decide +kernel⟩,
   ⟨mk [], .mgmt, 0x2000000, 1, .read, [], by decide +kernel⟩,
   ⟨mk [], .core 16, by decide +kernel⟩,
   ⟨0xFFFFFFF, by decide +kernel⟩,
   ⟨mk [], false, 0x4000000000, 0x10000000, 0x4010000000, 0, by decide +kernel⟩,
   ⟨0xFFFFFFFFFF, by decide +kernel⟩⟩

/-- States and operands that meet every hypothesis of `Obligations.IslandBridgeTransfers`, clause by clause. -/
theorem test_witness_IslandBridgeTransfers :
    (∃ (s : State), ∃ (p : Nat), ∃ (a : Nat), ∃ (n : Nat), s.dev.islandRuns p = true ∧ s.dev.safetyReset = false ∧ islandOwn a = true ∧ s.dev.verdict (.island p) true .read a n = .ok) ∧
    (∃ (s : State), ∃ (p : Nat), ∃ (a : Nat), ∃ (n : Nat), ∃ (ns : Nat), s.dev.islandRuns p = true ∧ s.dev.safetyReset = false ∧ islandOwn a = false ∧ (a < 0xF0000000 ∨ 0x100000000 ≤ a) ∧ ns ≤ 10000 ∧ s.dev.bridge.posted = [] ∧ (s.dev.held ns).verdict (.island p) true .read a n = .ok) ∧
    (∃ (s : State), ∃ (p : Nat), ∃ (a : Nat), ∃ (ns : Nat), s.dev.islandRuns p = true ∧ islandOwn a = false ∧ 10000 < ns) ∧
    (∃ (s : State), ∃ (p : Nat), ∃ (a : Nat), ∃ (bs : List Byte), s.dev.islandRuns p = true ∧ islandOwn a = false ∧ s.dev.memType a bs.length = true ∧ s.dev.bridge.posted.length < 8) ∧
    (∃ (s : State), ∃ (p : Nat), ∃ (a : Nat), ∃ (ns : Nat), ∃ (bs : List Byte), s.dev.islandRuns p = true ∧ islandOwn a = false ∧ s.dev.memType a bs.length = true ∧ 8 ≤ s.dev.bridge.posted.length ∧ 10000 < ns) ∧
    (∃ (s : State), ∃ (p : Nat), ∃ (a : Nat), ∃ (ns : Nat), ∃ (q : Nat), ∃ (b : Nat), ∃ (bs : List Byte), ∃ (cs : List Byte), ∃ (rest : List (Nat × Nat × List Byte)), s.dev.islandRuns p = true ∧ islandOwn a = false ∧ s.dev.memType a bs.length = true ∧ s.dev.bridge.posted = (q, b, cs) :: rest ∧ rest.length = 7 ∧ ns ≤ 10000 ∧ (b < 0xF0000000 ∨ 0x100000000 ≤ b) ∧ s.dev.verdict (.island q) true .write b cs.length = .ok) ∧
    (∃ (s : State), ∃ (p : Nat), ∃ (a : Nat), ∃ (ns : Nat), ∃ (bs : List Byte), s.dev.islandRuns p = true ∧ islandOwn a = false ∧ s.dev.memType a bs.length = false ∧ (a < 0xF0000000 ∨ 0x100000000 ≤ a) ∧ ns ≤ 10000 ∧ s.dev.bridge.posted = [] ∧ (s.dev.held ns).verdict (.island p) true .write a bs.length = .ok) ∧
    (∃ (s : State), ∃ (q : Nat), ∃ (a : Nat), ∃ (bs : List Byte), ∃ (rest : List (Nat × Nat × List Byte)), s.dev.bridge.posted = (q, a, bs) :: rest) ∧
    (∃ (s : State), ∃ (m : Master), ∃ (a : Nat), ∃ (n : Nat), ∃ (x : Bool), ∃ (bus : List (Nat × Bool)), ∃ (g : Nat × Bool), s.dev.masterRuns m = true ∧ s.dev.safetyReset = false ∧ islandOwn a = true ∧ g = grantPieces s.dev.mainLimit 0 0 bus ∧ (g.2 = false ∨ pieceCount a n ≤ g.1) ∧ (s.dev.crossed x).verdict m (s.dev.world m) .read a n = .ok) ∧
    (∃ (s : State), ∃ (m : Master), ∃ (a : Nat), ∃ (bs : List Byte), ∃ (bus : List (Nat × Bool)), ∃ (g : Nat × Bool), s.dev.masterRuns m = true ∧ islandOwn a = true ∧ g = grantPieces s.dev.mainLimit 0 0 bus ∧ (g.2 = false ∨ pieceCount a bs.length ≤ g.1) ∧ s.dev.verdict m (s.dev.world m) .write a bs.length = .ok) ∧
    (∃ (s : State), ∃ (m : Master), ∃ (a : Nat), ∃ (n : Nat), ∃ (k : AccessKind), ∃ (bs : List Byte), s.dev.masterRuns m = true ∧ islandOwn a = true ∧ s.dev.verdict m (s.dev.world m) k a (match k with | .read => n | .write => bs.length) = .island) ∧
    (∃ (s : State), ∃ (m : Master), s.dev.masterRuns m = true) ∧
    (∃ (s : State), ∃ (m : Master), ∃ (a : Nat), ∃ (n : Nat), ∃ (len : Nat), ∃ (k : AccessKind), ∃ (bs : List Byte), ∃ (bus : List (Nat × Bool)), ∃ (g : Nat × Bool), s.dev.masterRuns m = true ∧ islandOwn a = true ∧ len = (match k with | .read => n | .write => bs.length) ∧ g = grantPieces s.dev.mainLimit 0 0 bus ∧ g.1 < pieceCount a len ∧ s.dev.verdict m (s.dev.world m) k a len = .ok ∧ g.2 = true) ∧
    (∃ (s : State), ∃ (a : Nat), ∃ (n : Nat), ∃ (k : AccessKind), ∃ (bs : List Byte), ∃ (bus : List (Nat × Bool)), pieceCount a (match k with | .read => n | .write => bs.length) ≤ (grantPieces s.dev.mainLimit 0 0 bus).1) ∧
    (∃ (s : State), ∃ (p : Nat), s.dev.islandRuns p = false) :=
  ⟨⟨mk [], 0, 0x80000000, 8, by decide +kernel⟩,
   ⟨mk [], 0, 0x1000000, 8, 10000, by decide +kernel⟩,
   ⟨mk [], 0, 0x1000000, 10001, by decide +kernel⟩,
   ⟨mk (hbmAs 9), 0, 0x10000000000, [1], by decide +kernel⟩,
   ⟨mk (hbmAs 9) (fun d => { d with bridge := { posted := List.replicate 8 (0, 0x10000000000, [1]) } }), 0, 0x10000000000, 10001, [1], by decide +kernel⟩,
   ⟨mk (hbmAs 9) (fun d => { d with bridge := { posted := List.replicate 8 (1, 0x10000000000, [1]) } }), 0, 0x10000000000, 10000, 1, 0x10000000000, [1], [1], List.replicate 7 (1, 0x10000000000, [1]), by decide +kernel⟩,
   ⟨mk [], 0, 0x1000000, 10000, [1], by decide +kernel⟩,
   ⟨mk [] (fun d => { d with bridge := { posted := [(1, 0x10000000000, [1])] } }), 1, 0x10000000000, [1], [], by decide +kernel⟩,
   ⟨mk [], .island 0, 0x97FFFFFF, 1, true, [(0, false)], grantPieces (mk []).dev.mainLimit 0 0 ([(0, false)]), by decide +kernel, by decide +kernel, by decide +kernel, rfl, by decide +kernel, by decide +kernel⟩,
   ⟨mk [], .island 0, 0x97FFFFFF, [1], [(0, false)], grantPieces (mk []).dev.mainLimit 0 0 ([(0, false)]), by decide +kernel, by decide +kernel, rfl, by decide +kernel, by decide +kernel⟩,
   ⟨mk [], .mgmt, 0x80000000, 8, .read, [], by decide +kernel⟩,
   ⟨mk [], .mgmt, by decide +kernel⟩,
   ⟨mk [], .island 0, 0x80000000, 8, 8, .read, [], [(2 ^ 20, false)], grantPieces (mk []).dev.mainLimit 0 0 ([(2 ^ 20, false)]), by decide +kernel, by decide +kernel, rfl, rfl, by decide +kernel, by decide +kernel, by decide +kernel⟩,
   ⟨mk [], 0x80000000, 8, .read, [], [(0, false)], by decide +kernel⟩,
   ⟨mk [(Off.ISL_STATUS, 2)], 0, by decide +kernel⟩⟩

/-- States and operands that meet every hypothesis of `Obligations.IslandBridgeSemaphores`, clause by clause. -/
theorem test_witness_IslandBridgeSemaphores :
    (∃ (s : State), ∃ (p : Nat), ∃ (a : Nat), ∃ (n : Nat), ∃ (ns : Nat), s.dev.islandRuns p = true ∧ s.dev.safetyReset = false ∧ s.dev.memType a n = true ∧ (a < 0xF0000000 ∨ 0x100000000 ≤ a) ∧ ns ≤ 10000 ∧ s.dev.bridge.posted = [] ∧ ((s.dev.held ns).takeSem p a).2.verdict (.island p) true .read a n = .ok) ∧
    (∃ (s : State), ∃ (p : Nat), ∃ (a : Nat), ∃ (bs : List Byte), s.dev.islandRuns p = true ∧ s.dev.memType a bs.length = true ∧ (a < 0xF0000000 ∨ 0x100000000 ≤ a) ∧ s.dev.bridge.posted = [] ∧ s.dev.semValid p a = true ∧ s.dev.verdict (.island p) true .write a bs.length = .ok) ∧
    (∃ (s : State), ∃ (p : Nat), ∃ (a : Nat), ∃ (bs : List Byte), s.dev.islandRuns p = true ∧ s.dev.memType a bs.length = true ∧ (a < 0xF0000000 ∨ 0x100000000 ≤ a) ∧ s.dev.bridge.posted = [] ∧ s.dev.semValid p a = false) ∧
    (∃ (s : State), ∃ (m : Master), ∃ (a : Nat), ∃ (k : Nat), ∃ (bs : List Byte), isIsland m = false ∧ s.dev.masterRuns m = true ∧ a < 0x100000000000 ∧ bs ≠ [] ∧ k < 16 ∧ s.dev.verdict m (s.dev.world m) .write a bs.length = .ok ∧ s.dev.b Off.IBR_STATUS (16 + k) = true ∧ s.dev.f (Off.IBR_SEM k) 51 6 = a / 64) ∧
    (∃ (s : State), ∃ (p : Nat), ∃ (a : Nat), ∃ (ns : Nat), ∃ (bs : List Byte), ∃ (e : Dev), p < 8 ∧ a < 2 ^ 52 ∧ s.dev.islandRuns p = true ∧ s.dev.safetyReset = false ∧ s.dev.memType a bs.length = true ∧ (a < 0xF0000000 ∨ 0x100000000 ≤ a) ∧ ns ≤ 10000 ∧ s.dev.bridge.posted = [] ∧ (s.dev.held ns).takeSem p a = (true, e) ∧ e.verdict (.island p) true .read a bs.length = .ok ∧ e.verdict (.island p) true .write a bs.length = .ok) ∧
    (∃ (s : State), ∃ (p : Nat), ∃ (a : Nat), ∃ (ns : Nat), ∃ (bs : List Byte), s.dev.islandRuns p = true ∧ s.dev.safetyReset = false ∧ s.dev.memType a bs.length = true ∧ (a < 0xF0000000 ∨ 0x100000000 ≤ a) ∧ ns ≤ 10000 ∧ s.dev.bridge.posted = [] ∧ ((s.dev.held ns).takeSem p a).2.verdict (.island p) true .read a bs.length = .ok) ∧
    (∃ (s : State), ∃ (p : Nat), ∃ (a : Nat), ∃ (w : Nat), ∃ (ns : Nat), ∃ (e : Dev), p < 8 ∧ a < 2 ^ 52 ∧ s.dev.islandRuns p = true ∧ s.dev.safetyReset = false ∧ s.dev.memType a w = true ∧ (a < 0xF0000000 ∨ 0x100000000 ≤ a) ∧ ns ≤ 10000 ∧ s.dev.bridge.posted = [] ∧ (s.dev.held ns).takeSem p a = (true, e) ∧ e.verdict (.island p) true .read a w = .ok ∧ e.verdict (.island p) true .write a w = .ok) ∧
    (∃ (s : State), ∃ (p : Nat), ∃ (a : Nat), ∃ (w : Nat), ∃ (ns : Nat), ∃ (fails : Nat), (4 ≤ fails ∨ 10000 < ns) ∧ s.dev.islandRuns p = true ∧ s.dev.safetyReset = false ∧ s.dev.memType a w = true ∧ (a < 0xF0000000 ∨ 0x100000000 ≤ a) ∧ s.dev.bridge.posted = []) ∧
    (∃ (s : State), ∃ (p : Nat), ∃ (a : Nat), ∃ (n : Nat), ∃ (bs : List Byte), ∃ (op : AtomicOp), ∃ (x : W64), ∃ (h : Hold), ∃ c, (c ∈ [Instr.exclusiveLoad p a n h, .exclusiveStore p a bs, .lockedReadWrite p a bs h, .atomicOperation p a n op x h]) ∧ s.dev.islandRuns p = false) ∧
    (∃ (s : State), ∃ (p : Nat), ∃ (a : Nat), ∃ (n : Nat), ∃ (bs : List Byte), ∃ (op : AtomicOp), ∃ (x : W64), ∃ (h : Hold), ∃ c, (c ∈ [Instr.exclusiveLoad p a n h, .exclusiveStore p a bs, .lockedReadWrite p a bs h, .atomicOperation p a n op x h]) ∧ s.dev.islandRuns p = true ∧ (s.dev.memType a n = false ∧ s.dev.memType a bs.length = false ∨ 0xF0000000 ≤ a ∧ a < 0x100000000)) :=
  ⟨⟨mk (hbmAs 9), 0, 0x10000000000, 8, 0, by decide +kernel, by decide +kernel, by decide +kernel, by decide +kernel, by decide +kernel, rfl, sem_admits _ _ _ _ _ (by decide +kernel) (by decide +kernel)⟩,
   ⟨mk ([(Off.IBR_STATUS, 2 ^ 31), (Off.IBR_SEM 15, 0x1000000000F)] ++ hbmAs 9), 7, 0x10000000000, [1], by decide +kernel⟩,
   ⟨mk (hbmAs 9), 0, 0x10000000000, [1], by decide +kernel⟩,
   ⟨mk [(Off.IBR_STATUS, 2 ^ 31), (Off.IBR_SEM 15, 0x1000001)], .mgmt, 0x1000000, 15, [1], by decide +kernel⟩,
   ⟨mk (hbmAs 9), 7, 0x10000000000, 0, [1], (((mk (hbmAs 9)).dev.held 0).takeSem 7 0x10000000000).2, by decide +kernel, by decide +kernel, by decide +kernel, by decide +kernel, by decide +kernel, by decide +kernel, by decide +kernel, rfl, by (obtain ⟨r, _, e⟩ := takeSem_of_free ((mk (hbmAs 9)).dev.held 0) 7 0x10000000000 (by decide +kernel); rw [e]), sem_admits _ _ _ _ _ (by decide +kernel) (by decide +kernel), sem_admits _ _ _ _ _ (by decide +kernel) (by decide +kernel)⟩,
   ⟨mk (hbmAs 9), 0, 0x10000000000, 0, [1], by decide +kernel, by decide +kernel, by decide +kernel, by decide +kernel, by decide +kernel, rfl, sem_admits _ _ _ _ _ (by decide +kernel) (by decide +kernel)⟩,
   ⟨mk (hbmAs 9), 7, 0x10000000000, 8, 0, (((mk (hbmAs 9)).dev.held 0).takeSem 7 0x10000000000).2, by decide +kernel, by decide +kernel, by decide +kernel, by decide +kernel, by decide +kernel, by decide +kernel, by decide +kernel, rfl, by (obtain ⟨r, _, e⟩ := takeSem_of_free ((mk (hbmAs 9)).dev.held 0) 7 0x10000000000 (by decide +kernel); rw [e]), sem_admits _ _ _ _ _ (by decide +kernel) (by decide +kernel), sem_admits _ _ _ _ _ (by decide +kernel) (by decide +kernel)⟩,
   ⟨mk (hbmAs 9), 0, 0x10000000000, 8, 0, 4, by decide +kernel⟩,
   ⟨mk [(Off.ISL_STATUS, 2)], 0, 0, 0, [1], .swap, (0 : W64), ⟨0, 0, .clean⟩, .exclusiveStore (0) (0) ([1]), by decide +kernel, by decide +kernel⟩,
   ⟨mk [], 0, 0x1000000, 8, [1], .swap, (0 : W64), ⟨0, 0, .clean⟩, .exclusiveStore (0) (0x1000000) ([1]), by decide +kernel, by decide +kernel⟩⟩

/-- States and operands that meet every hypothesis of `Obligations.WorldExtension`, clause by clause. -/
theorem test_witness_WorldExtension :
    (∃ (s : State), ∃ (n : Nat), s.dev.coreRuns n = true ∧ (s.dev.attr ((s.dev.core n).pc + 4).toNat).secure = (s.dev.core n).secure) ∧
    (∃ (s : State), ∃ (n : Nat), ∃ (rs1 : Nat), ∃ (c : Core), s.dev.coreRuns n = true ∧ c = s.dev.core n ∧ c.secure = false ∧ s.gateAt (c.xr rs1).toNat = true) ∧
    (∃ (s : State), ∃ (n : Nat), ∃ (rs1 : Nat), ∃ (c : Core), s.dev.coreRuns n = true ∧ c = s.dev.core n ∧ c.secure = false ∧ s.gateAt (c.xr rs1).toNat = false) ∧
    (∃ (s : State), ∃ (n : Nat), ∃ (c : Core), s.dev.coreRuns n = true ∧ c = s.dev.core n ∧ c.secure = true) ∧
    (∃ (s : State), ∃ (n : Nat), ∃ (c : Core), s.dev.coreRuns n = true ∧ c = s.dev.core n ∧ c.secure = false) ∧
    (∃ (s : State), ∃ (n : Nat), ∃ (rs1 : Nat), ∃ (c : Core), s.dev.coreRuns n = true ∧ c = s.dev.core n ∧ c.secure = true ∧ rs1 ≠ 0 ∧ c.pendSecure = [] ∧ s.dev.worldMem false (c.xr rs1).toNat 1 = true) ∧
    (∃ (s : State), ∃ (n : Nat), ∃ (target : Nat), ∃ (priv : Nat), ∃ (c : Core), s.dev.coreRuns n = true ∧ c = s.dev.core n ∧ target < 2 ^ 64 ∧ priv < 8) ∧
    (∃ (s : State), ∃ (n : Nat), ∃ (c : Core), s.dev.coreRuns n = true ∧ c = s.dev.core n ∧ c.secure = true ∧ c.priv = 3 ∧ (s.dev.attr (c.pc + 4).toNat).secure = true) ∧
    (∃ (s : State), ∃ (n : Nat), ∃ (c : Core), s.dev.coreRuns n = true ∧ c = s.dev.core n ∧ c.secure = false) ∧
    (∃ (s : State), ∃ (n : Nat), ∃ (rd : Nat), ∃ (rs1 : Nat), ∃ (target : Nat), ∃ (priv : Nat), ∃ (cause : Nat), ∃ (v : W64), ∃ c, (c ∈ [Instr.gate n, .wgate n rd rs1, .wret n rs1, .controlTransfer n target priv, .wsaveWrite n v, .secureInterrupt n cause]) ∧ s.dev.coreRuns n = false) :=
  ⟨⟨mk [(Off.PWR_DOM_STATE 24, 1)] (coring (fun c => { c with secure := true })), 0, by decide +kernel⟩,
   ⟨holding 0x10000000000 (leBytes 4 gateWord) (mk ((Off.PWR_DOM_STATE 24, 1) :: hbmAs 9) (coring (fun c => { c with x := [(1, 0x10000000000)] }))), 0, 1, (holding 0x10000000000 (leBytes 4 gateWord) (mk ((Off.PWR_DOM_STATE 24, 1) :: hbmAs 9) (coring (fun c => { c with x := [(1, 0x10000000000)] })))).dev.core (0), by decide +kernel, rfl, by decide +kernel, by decide +kernel⟩,
   ⟨mk ((Off.PWR_DOM_STATE 24, 1) :: hbmAs 9) (coring (fun c => { c with x := [(1, 0x10000000000)] })), 0, 1, (mk ((Off.PWR_DOM_STATE 24, 1) :: hbmAs 9) (coring (fun c => { c with x := [(1, 0x10000000000)] }))).dev.core (0), by decide +kernel, rfl, by decide +kernel, by decide +kernel⟩,
   ⟨mk [(Off.PWR_DOM_STATE 24, 1)] (coring (fun c => { c with secure := true })), 0, (mk [(Off.PWR_DOM_STATE 24, 1)] (coring (fun c => { c with secure := true }))).dev.core (0), by decide +kernel, rfl, by decide +kernel⟩,
   ⟨mk [(Off.PWR_DOM_STATE 24, 1)] (coring id), 0, (mk [(Off.PWR_DOM_STATE 24, 1)] (coring id)).dev.core (0), by decide +kernel, rfl, by decide +kernel⟩,
   ⟨mk ((Off.PWR_DOM_STATE 24, 1) :: hbmAs 1) (coring (fun c => { c with secure := true, x := [(1, 0x10000000000)] })), 0, 1, (mk ((Off.PWR_DOM_STATE 24, 1) :: hbmAs 1) (coring (fun c => { c with secure := true, x := [(1, 0x10000000000)] }))).dev.core (0), by decide +kernel, rfl, by decide +kernel, by decide +kernel, by decide +kernel, by decide +kernel⟩,
   ⟨mk [(Off.PWR_DOM_STATE 24, 1)] (coring id), 0, 2 ^ 64 - 4, 3, (mk [(Off.PWR_DOM_STATE 24, 1)] (coring id)).dev.core (0), by decide +kernel, rfl, by decide +kernel, by decide +kernel⟩,
   ⟨mk [(Off.PWR_DOM_STATE 24, 1)] (coring (fun c => { c with secure := true })), 0, (mk [(Off.PWR_DOM_STATE 24, 1)] (coring (fun c => { c with secure := true }))).dev.core (0), by decide +kernel, rfl, by decide +kernel, by decide +kernel, by decide +kernel⟩,
   ⟨mk [(Off.PWR_DOM_STATE 24, 1)], 0, (mk [(Off.PWR_DOM_STATE 24, 1)]).dev.core (0), by decide +kernel, rfl, by decide +kernel⟩,
   ⟨mk [], 16, 0, 0, 0, 0, 0, (0 : W64), .gate (16), by decide +kernel, by decide +kernel⟩⟩

/-- States and operands that meet every hypothesis of `Obligations.SecureInterruptSavesAndResumes`, clause by clause. -/
theorem test_witness_SecureInterruptSavesAndResumes :
    (∃ (s : State), ∃ (n : Nat), ∃ (c : Core), s.dev.coreRuns n = true ∧ c = s.dev.core n ∧ c.secure = false ∧ c.pendSecure = [] ∧ s.dev.frameAt c.wsave.toNat = true ∧ s.dev.verdict (.core n) true .write c.wsave.toNat c.frame.length = .ok) ∧
    (∃ (s : State), ∃ (n : Nat), ∃ (cause : Nat), ∃ (c : Core), s.dev.coreRuns n = true ∧ c = s.dev.core n ∧ cause ∉ c.pendSecure ∧ (c.secure = true ∨ s.dev.frameAt c.wsave.toNat = false)) ∧
    (∃ (s : State), ∃ (n : Nat), ∃ (c : Core), s.dev.coreRuns n = true ∧ c = s.dev.core n ∧ c.secure = true ∧ c.pendSecure = [] ∧ s.dev.verdict (.core n) true .read c.wsave.toNat 2048 = .ok) ∧
    (∃ (c : Core), ∃ (x : Core), c.priv < 4 ∧ c.priv ≠ 3) ∧
    (∃ (c : Core), ∃ (x : Core), ∃ (pad : List Byte), ∃ r, (r < 32) ∧ c.priv < 4) :=
  ⟨⟨mk ((Off.PWR_DOM_STATE 24, 1) :: hbmAs 9) (coring (fun c => { c with wsave := 0x10000000800 })), 0, (mk ((Off.PWR_DOM_STATE 24, 1) :: hbmAs 9) (coring (fun c => { c with wsave := 0x10000000800 }))).dev.core (0), by decide +kernel, rfl, by decide +kernel, by decide +kernel, by decide +kernel, by decide +kernel⟩,
   ⟨mk [(Off.PWR_DOM_STATE 24, 1)] (coring id), 0, 0, (mk [(Off.PWR_DOM_STATE 24, 1)] (coring id)).dev.core (0), by decide +kernel, rfl, by decide +kernel, by decide +kernel⟩,
   ⟨mk ((Off.PWR_DOM_STATE 24, 1) :: hbmAs 9) (coring (fun c => { c with secure := true, wsave := 0x10000000800 })), 0, (mk ((Off.PWR_DOM_STATE 24, 1) :: hbmAs 9) (coring (fun c => { c with secure := true, wsave := 0x10000000800 }))).dev.core (0), by decide +kernel, rfl, by decide +kernel, by decide +kernel, by decide +kernel⟩,
   ⟨{ Core.empty 15 with priv := 1 }, Core.empty 15, by decide +kernel⟩,
   ⟨Core.empty 15, Core.empty 15, [], 31, by decide +kernel, by decide +kernel⟩⟩

/-- States and operands that meet every hypothesis of `Obligations.HubDmaCopies`, clause by clause. -/
theorem test_witness_HubDmaCopies :
    (∃ (s : State), ∃ (m : Master), ∃ (c : Nat), ∃ (v : Nat), c < 16 ∧ s.dev.setupRefused m (Off.DMA_CMD c) 4 = none ∧ s.dev.dmaAdmits m c = true ∧ v % 4 = 1 ∧ s.dev.dmaState c ≠ 1 ∧ s.dev.domOn 46 = true) ∧
    (∃ (s : State), ∃ (m : Master), ∃ (c : Nat), ∃ (v : Nat), c < 16 ∧ s.dev.setupRefused m (Off.DMA_CMD c) 4 = none ∧ s.dev.dmaAdmits m c = true ∧ v % 4 = 1 ∧ (s.dev.dmaState c = 1 ∨ s.dev.domOn 46 = false)) ∧
    (∃ (s : State), ∃ (m : Master), ∃ (c : Nat), c < 16 ∧ s.dev.setupRefused m (Off.DMA_CMD c) 4 = none ∧ s.dev.dmaAdmits m c = false) ∧
    (∃ (s : State), ∃ (c : Nat), ∃ (done : Nat), ∃ (j : DmaJob), KMap.find s.dev.dma c = some j ∧ 0 < j.len ∧ s.dev.verdict (.dma c) (s.dev.world (.dma c)) .read j.src j.len = .ok ∧ s.dev.verdict (.dma c) (s.dev.world (.dma c)) .write j.dst j.len = .ok ∧ s.dev.reach (.dma c) (s.dev.world (.dma c)) .read j.src j.len = j.len ∧ s.dev.reach (.dma c) (s.dev.world (.dma c)) .write j.dst j.len = j.len ∧ done < j.len) ∧
    (∃ (s : State), ∃ (c : Nat), ∃ (r : Nat), ∃ (k : Nat), ∃ (j : DmaJob), KMap.find s.dev.dma c = some j ∧ 0 < j.len ∧ r = s.dev.reach (.dma c) (s.dev.world (.dma c)) .read j.src j.len ∧ k = s.dev.reach (.dma c) (s.dev.world (.dma c)) .write j.dst j.len ∧ (r < j.len ∨ k < j.len)) ∧
    (∃ (s : State), ∃ (c : Nat), KMap.find s.dev.dma c = none) ∧
    (∃ (s : State), ∃ (m : Master), ∃ (c : Nat), ∃ (v : Nat), ∃ (j : DmaJob), c < 16 ∧ s.dev.setupRefused m (Off.DMA_CMD c) 4 = none ∧ s.dev.dmaAdmits m c = true ∧ v % 4 = 2 ∧ KMap.find s.dev.dma c = some j) :=
  ⟨⟨mk [(Off.PWR_DOM_STATE 46, 1)], .mgmt, 15, 1, by decide +kernel⟩,
   ⟨mk [(Off.DMA_STATUS 15, 1)], .mgmt, 15, 5, by decide +kernel⟩,
   ⟨mk [(Off.RT_ATTR 0, 3), (Off.RT_BASE_LO 0, 0xF0000000), (Off.RT_LIMIT_HI 0, 1), (Off.WLD_DMA_SEC, 0x8000), (Off.WLD_SETUP_SEC 7, 0)], .core 0, 15, by decide +kernel⟩,
   ⟨mk [(Off.WLD_DMA_SEC, 0x8000)] (fun d => { d with dma := [(15, ⟨0x1000000, 0x1000100, 8, true⟩)] }), 15, 0, ⟨0x1000000, 0x1000100, 8, true⟩, by decide +kernel⟩,
   ⟨mk [(Off.WLD_DMA_SEC, 0x8000)] (fun d => { d with dma := [(15, ⟨0x1000000, 0x1FFFFFF, 2, true⟩)] }), 15, 2, 1, ⟨0x1000000, 0x1FFFFFF, 2, true⟩, by decide +kernel⟩,
   ⟨mk [], 15, by decide +kernel⟩,
   ⟨mk [] (fun d => { d with dma := [(15, ⟨0x1000000, 0x1FFFFFF, 2, true⟩)] }), .mgmt, 15, 2, ⟨0x1000000, 0x1FFFFFF, 2, true⟩, by decide +kernel⟩⟩

/-- States and operands that meet every hypothesis of `Obligations.SecureWatchdog`, clause by clause. -/
theorem test_witness_SecureWatchdog :
    (∃ (s : State), ∃ (m : Master), s.dev.setupRefused m Off.WDG_SERVICE 4 = none) ∧
    (∃ (s : State), s.dev.b Off.WDG_CTRL 0 = true ∧ s.dev.wdg.expired = false ∧ s.dev.wdg.warned = false) ∧
    (∃ (s : State), s.dev.b Off.WDG_CTRL 0 = true ∧ s.dev.wdg.expired = false ∧ s.dev.wdg.since + s.dev.f Off.WDG_CTRL 29 16 * 1000000 ≤ s.dev.now) ∧
    (∃ (s : State), s.dev.wdg.expired = true) :=
  ⟨⟨mk [], .mgmt, by decide +kernel⟩,
   ⟨mk [(Off.WDG_CTRL, 1)], by decide +kernel⟩,
   ⟨mk [(Off.WDG_CTRL, 0x10001)] (fun d => { d with now := 1000000 }), by decide +kernel⟩,
   ⟨mk [] (fun d => { d with wdg := { d.wdg with expired := true } }), by decide +kernel⟩⟩

/-- States and operands that meet every hypothesis of `Obligations.KeeperLoopsInputsFrames`, clause by clause. -/
theorem test_witness_KeeperLoopsInputsFrames :
    (∃ (s : State), ∃ (l : Nat), ∃ (c : LoopCfg), KMap.find s.dev.keeper.table.loops l = some c ∧ s.dev.loopDue l c = true ∧ s.dev.loopStale c = false) ∧
    (∃ (s : State), ∃ (l : Nat), ∃ (c : LoopCfg), KMap.find s.dev.keeper.table.loops l = some c ∧ s.dev.loopDue l c = true ∧ s.dev.loopStale c = true) ∧
    (∃ (s : State), ∃ (l : Nat), ∃ (c : LoopCfg), KMap.find s.dev.keeper.table.loops l = some c ∧ s.dev.loopDue l c = false) ∧
    (∃ (s : State), ∃ (j : Nat), ∃ (c : InputCfg), (j, c) ∈ s.dev.keeper.table.inputs ∧ (∀ p ∈ s.dev.keeper.table.inputs, p.1 = j → p.2 = c)) ∧
    (∃ (s : State), ∃ (j : Nat), ∃ (c : InputCfg), KMap.find s.dev.keeper.table.inputs j = some c ∧ s.dev.inputLate j c = false) ∧
    (∃ (s : State), ∃ (j : Nat), ∃ (c : InputCfg), KMap.find s.dev.keeper.table.inputs j = some c ∧ s.dev.inputLate j c = true ∧ KMap.find s.dev.keeper.inputs j ≠ none) ∧
    (∃ (s : State), ∃ (n : Nat), ∃ (f : FrameCfg), KMap.find s.dev.keeper.table.frames n = some f) ∧
    (∃ (f : FrameCfg), nbit f.flags 3 = true ∧ f.safe.length = 32 ∧ 2 ≤ f.length ∧ f.length ≤ 32) ∧
    (∃ (s : State), s.dev.islandUp = true) ∧
    (∃ (s : State), ∃ (m : Master), s.dev.setupRefused m Off.KPR_RELEASE 4 = none) ∧
    (∃ (s : State), ∃ (m : Master), s.dev.masterRuns m = true ∧ isIsland m = false ∧ m ≠ .mgmtRom) :=
  ⟨⟨mk [] (looped 1), 31, loopOf 1, by decide +kernel⟩,
   ⟨mk [] (keeping (fun t => { t with loops := [(31, { loopOf 1 with src := 0x40 })] })), 31, { loopOf 1 with src := 0x40 }, by decide +kernel⟩,
   ⟨mk [] (fun d => looped 1 { d with keeper := { d.keeper with stepped := [(31, 1)] } }), 31, loopOf 1, by decide +kernel⟩,
   ⟨mk [] (keeping (fun t => { t with inputs := [(63, { channel := 3, signed := false, startBit := 0, id := 5, bits := 8, timeoutMs := 10 })] })), 63, { channel := 3, signed := false, startBit := 0, id := 5, bits := 8, timeoutMs := 10 }, by decide +kernel⟩,
   ⟨mk [] (keeping (fun t => { t with inputs := [(63, { channel := 3, signed := false, startBit := 0, id := 5, bits := 8, timeoutMs := 10 })] })), 63, { channel := 3, signed := false, startBit := 0, id := 5, bits := 8, timeoutMs := 10 }, by decide +kernel⟩,
   ⟨mk [] (fun d => keeping (fun t => { t with inputs := [(63, { channel := 3, signed := false, startBit := 0, id := 5, bits := 8, timeoutMs := 10 })] }) { after 10000000 d with keeper := { d.keeper with inputs := [(63, 1)] } }), 63, { channel := 3, signed := false, startBit := 0, id := 5, bits := 8, timeoutMs := 10 }, by decide +kernel⟩,
   ⟨mk [] (keeping (fun t => { t with frames := [(31, frameOf)] })), 31, frameOf, by decide +kernel⟩,
   ⟨frameOf, by decide +kernel⟩,
   ⟨mk [], by decide +kernel⟩,
   ⟨mk [], .island 0, by decide +kernel⟩,
   ⟨mk [], .mgmt, by decide +kernel⟩⟩

/-- States and operands that meet every hypothesis of `Obligations.DoubtAndOwnership`, clause by clause. -/
theorem test_witness_DoubtAndOwnership :
    (∃ (code : Nat), ∃ k, 1 ≤ code ∧ code ≤ 9 ∧ 1 ≤ k ∧ k ≤ 9 ∧ k ≠ code) ∧
    (∃ (d : Dev), d.outputsDead = false) ∧
    (∃ (d : Dev), d.keeperOwns false = false ∧ d.ownerFull = false ∧ d.b Off.KPR_CTRL 8 = true ∧ d.keeper.taken = true ∧ d.keeper.released = false) :=
  ⟨⟨9, 1, by decide +kernel⟩,
   ⟨regd [], by decide +kernel⟩,
   ⟨regd [(Off.START_STAGE, 5), (Off.KPR_STATUS, 0), (Off.KPR_CTRL, 0x100)] (fun d => { d with keeper := { d.keeper with taken := true } }), by decide +kernel⟩⟩

/-- States and operands that meet every hypothesis of `Obligations.JudgeAndLockstepPairs`, clause by clause. -/
theorem test_witness_JudgeAndLockstepPairs :
    (∃ (s : State), ∃ (id : Nat), ∃ (c : Cmd), ∃ (x : Plan), s.dev.cmd id = some c ∧ s.dev.cmdPlan c = some x ∧ c.phase = .running ∧ c.endedA = true ∧ c.endedB = true ∧ c.judged = false ∧ s.dev.instSafe c.inst = true) ∧
    (∃ (s : State), ∃ (p : Nat), ∃ (what : LockFault), p < 2 ∧ lockDiffers what = true ∧ s.dev.islandUp = true ∧ s.dev.split = false ∧ s.dev.pairState p = 0) ∧
    (∃ (s : State), ∃ (p : Nat), ∃ (what : LockFault), (s.dev.split = true ∨ s.dev.pairState p ≠ 0 ∨ lockDiffers what = false)) ∧
    (∃ (s : State), ∃ (p : Nat), s.dev.islandNow < (s.dev.pair p).resetAt + 50000) ∧
    (∃ (s : State), ∃ (p : Nat), p < 2 ∧ s.dev.pairState p = 1 ∧ (s.dev.pair p).resetAt + 50000 ≤ s.dev.islandNow) ∧
    (∃ (s : State), ∃ (p : Nat), ∃ (reg : Nat), s.dev.debugs p = true ∧ s.dev.split = false ∧ 0 < reg ∧ reg < 32) ∧
    (∃ (s : State), ∃ (p : Nat), s.dev.debugs p = true ∧ s.dev.pairState p = 2 ∧ s.dev.split = false) ∧
    (∃ (s : State), ∃ (p : Nat), ∃ (a : Nat), ∃ (bs : List Byte), s.dev.debugs p = true ∧ islandOwn a = true ∧ s.dev.verdict (.island p) true .write a bs.length = .ok) ∧
    (∃ (s : State), ∃ (p : Nat), ∃ (reg : Nat), ∃ (a : Nat), ∃ (v : W64), ∃ (b : Bool), ∃ (bs : List Byte), ∃ c, (c ∈ [Instr.debugHalt p b, .debugRegisterWrite p reg v, .debugMemoryWrite p a bs, .debugSingleStep p]) ∧ s.dev.debugs p = false) :=
  ⟨⟨run ({ cmdOf [(0, 1, 1), (0x10, 4, 1)] .running with endedA := true, endedB := true }) [] (fun d => { d with plans := [planOf], sched := { d.sched with ctrl := 0 } }), 1, { cmdOf [(0, 1, 1), (0x10, 4, 1)] .running with endedA := true, endedB := true }, planOf, by decide +kernel⟩,
   ⟨mk [], 1, .checkpoint [(1, 0)] [(1, 1)], by decide +kernel⟩,
   ⟨mk [(Off.ISL_STATUS, 1)], 0, .checkpoint [] [], by decide +kernel⟩,
   ⟨mk [], 0, by decide +kernel⟩,
   ⟨mk [(Off.ISL_STATUS, 8)] (after 50000), 1, by decide +kernel⟩,
   ⟨mk [(Off.ISL_STATUS, 0x20)], 1, 31, by decide +kernel⟩,
   ⟨mk [(Off.ISL_STATUS, 0x30)], 1, by decide +kernel⟩,
   ⟨mk [(Off.ISL_STATUS, 0x20)], 1, 0x807FFFFF, [1], by decide +kernel⟩,
   ⟨mk [], 1, 0, 0, (0 : W64), true, [], .debugSingleStep 1, by decide +kernel, by decide +kernel⟩⟩

/-- States and operands that meet every hypothesis of `Obligations.BankHandoverAndRegionTest`, clause by clause. -/
theorem test_witness_BankHandoverAndRegionTest :
    (∃ (s : State), ∃ (t : Nat), ∃ (b : Nat), t < 64 ∧ b < 32 ∧ s.dev.b (Off.TILE_BANK_STATUS t b) 2 = true ∧ s.dev.bankUnused t b = true) ∧
    (∃ (s : State), ∃ (t : Nat), ∃ (b : Nat), (s.dev.b (Off.TILE_BANK_STATUS t b) 2 = false ∨ s.dev.bankUnused t b = false)) ∧
    (∃ (s : State), ∃ (t : Nat), ∃ (k : Nat), t < 64 ∧ s.dev.b (Off.TILE_BTEST_CTRL t) 0 = true ∧ s.dev.tileState t ≠ 0 ∧ (btestFrom (s.dev.n (Off.TILE_BTEST_MASK t)) (s.dev.f (Off.TILE_BTEST_STATUS t) 13 0)).orElse (fun _ => btestFrom (s.dev.n (Off.TILE_BTEST_MASK t)) 0) = some k) ∧
    (∃ (s : State), ∃ (t : Nat), s.dev.b (Off.TILE_BTEST_CTRL t) 0 = false) :=
  ⟨⟨mk [(Off.TILE_BANK_STATUS 63 31, 4)], 63, 31, by decide +kernel⟩,
   ⟨mk [], 0, 0, by decide +kernel⟩,
   ⟨mk [(Off.TILE_STATUS 63, 1), (Off.TILE_BTEST_CTRL 63, 1), (Off.TILE_BTEST_MASK 63, 0x80000000)], 63, 31 * 512, by decide +kernel⟩,
   ⟨mk [(Off.TILE_BTEST_CTRL 0, 0)], 0, by decide +kernel⟩⟩

/-- States and operands that meet every hypothesis of `Obligations.DerateRouterSelfTest`, clause by clause. -/
theorem test_witness_DerateRouterSelfTest :
    (∃ (s : State), ∃ (t : Nat), ∃ (temp : Int), t < 64 ∧ 1760 < temp ∧ temp < 32768 ∧ s.dev.tileState t ≠ 0) ∧
    (∃ (t : Nat), ∃ (temp : Int), t < 64 ∧ temp < 1680) ∧
    (∃ (temp : Int), temp ≤ 1760) ∧
    (∃ (temp : Int), 1680 ≤ temp) ∧
    (∃ (s : State), ∃ (t : Nat), ∃ (link : Nat), t < 64 ∧ nbit (routerLinks t) link = true ∧ s.dev.b (Off.TILE_ROUTER_STATUS t) link = true) ∧
    (∃ (s : State), ∃ (t : Nat), ∃ (link : Nat), s.dev.b (Off.TILE_ROUTER_STATUS t) link = false) ∧
    (∃ (s : State), ∃ (t : Nat), ∃ (k : Nat), t < 64 ∧ (s.dev.tile t).piece = some k) ∧
    (∃ (s : State), ∃ (t : Nat), (s.dev.tile t).piece = none) ∧
    (∃ (t : Nat), t < 64) :=
  ⟨⟨mk [(Off.TILE_STATUS 63, 1)], 63, 1761, by decide +kernel⟩,
   ⟨63, 1679, by decide +kernel⟩,
   ⟨1760, by decide +kernel⟩,
   ⟨1680, by decide +kernel⟩,
   ⟨mk [(Off.TILE_ROUTER_STATUS 63, 0x1F)], 63, 0, by decide +kernel⟩,
   ⟨mk [(Off.TILE_ROUTER_STATUS 63, 0)], 63, 0, by decide +kernel⟩,
   ⟨mk [] (fun d => { d with tiles := [(63, { Tile.empty with piece := some 2 })] }), 63, 2, by decide +kernel⟩,
   ⟨mk [], 0, by decide +kernel⟩,
   ⟨63, by decide +kernel⟩⟩

/-- States and operands that meet every hypothesis of `Obligations.UmpireWindowsAndRequests`, clause by clause. -/
theorem test_witness_UmpireWindowsAndRequests :
    (∃ (s : State), ∃ (k : Nat), ∃ (p : Nat), s.dev.sitePopulated k = true ∧ p < 32 ∧ s.dev.b (Off.UMP_STATUS k) 0 = true) ∧
    (∃ (s : State), ∃ (m : HbmMaster), ∃ (a : Nat), ∃ (k : Nat), ∃ (p : Nat), ∃ (cls : Nat), ∃ (n : Nat), s.dev.inHbm a = true ∧ k = s.dev.hbmSite (s.dev.localAddr a) ∧ p = hbmPseudo (s.dev.localAddr a) ∧ cls = s.dev.umpClass m a ∧ k < 8 ∧ p < 32 ∧ s.dev.b (Off.UMP_STATUS k) 0 = true ∧ 0 < n) ∧
    (∃ (s : State), ∃ (a : Nat), (s.dev.inHbm a = false ∨ s.dev.b (Off.UMP_STATUS (s.dev.hbmSite (s.dev.localAddr a))) 0 = false)) ∧
    (∃ (u : Umpire), ∃ (c : Nat), ∃ (x : Nat), u.queue = [⟨3, true, 1, 0⟩] ∧ u.hp c = true ∧ 0 < u.creditOf c ∧ c ∉ u.masked ∧ x < c) ∧
    (∃ (s : State), ∃ (m : Master), ∃ (k : Nat), k < 8 ∧ s.dev.setupRefused m (Off.UMP_CNT_CLEAR k) 4 = none) ∧
    (∃ (s : State), ∃ (k : Nat), s.dev.sitePopulated k = true) :=
  ⟨⟨mk [(Off.UMP_STATUS 7, 1)], 7, 31, by decide +kernel⟩,
   ⟨mk [(Off.UMP_STATUS 7, 1)], .other, 0x10000007F80, (mk [(Off.UMP_STATUS 7, 1)]).dev.hbmSite ((mk [(Off.UMP_STATUS 7, 1)]).dev.localAddr (0x10000007F80)), hbmPseudo ((mk [(Off.UMP_STATUS 7, 1)]).dev.localAddr (0x10000007F80)), (mk [(Off.UMP_STATUS 7, 1)]).dev.umpClass (.other) (0x10000007F80), 1, by decide +kernel, rfl, rfl, rfl, by decide +kernel, by decide +kernel, by decide +kernel, by decide +kernel⟩,
   ⟨mk [], 0, by decide +kernel⟩,
   ⟨{ (regd []).umpStart 0 [⟨3, true, 1, 0⟩] none with classes := List.replicate 16 0x8000, credit := [(3, 5)] }, 3, 0, by decide +kernel⟩,
   ⟨mk [], .mgmt, 7, by decide +kernel⟩,
   ⟨mk [], 7, by decide +kernel⟩⟩

/-- States and operands that meet every hypothesis of `Obligations.DisplayPipesAndCameras`, clause by clause. -/
theorem test_witness_DisplayPipesAndCameras :
    (∃ (s : State), ∃ (p : Nat), p < 6 ∧ s.dev.pipeOn p = true) ∧
    (∃ (s : State), ∃ (p : Nat), ∃ (x : Surface), p < 6 ∧ s.dev.pipeOn p = true ∧ (s.dev.pipe p).scanned = some x) ∧
    (∃ (s : State), ∃ (c : Nat), c < 8 * s.dev.ioDies) ∧
    (∃ (s : State), ∃ (p : Nat), ∃ (late : List (Nat × Nat)), ∃ c, (c ∈ [Instr.displayLatch p, .displayFrameEnd p late, .displayLinkTrained p, .displayLinkDown p]) ∧ s.dev.pipeOn p = false) ∧
    (∃ (s : State), ∃ (c : Nat), c < 16 ∧ (s.dev.camera c).cur = none ∧ s.dev.effB (Off.CAM_CTRL c) 0 = true ∧ c < 8 * s.dev.ioDies ∧ s.dev.domOn (33 + c / 8) = true ∧ s.dev.camTooSoon c = false) ∧
    (∃ (s : State), ∃ (c : Nat), (s.dev.camera c).cur = none ∧ s.dev.effB (Off.CAM_CTRL c) 0 = true ∧ c < 8 * s.dev.ioDies ∧ s.dev.domOn (33 + c / 8) = true ∧ s.dev.camTooSoon c = true) ∧
    (∃ (s : State), ∃ (c : Nat), ∃ (x : Nat), (s.dev.camera c).lastStart = some x) ∧
    (∃ (s : State), ∃ (c : Nat), ∃ (o : Nat), ∃ (base : Nat), ∃ (i : Nat), ∃ (f : CamFrame), ∃ (e : CamEnd), ∃ (bs : List Byte), c < 16 ∧ o < 2 ∧ (s.dev.camera c).cur = some f ∧ f.outs = [o] ∧ s.dev.effF (Off.CAM_SIZE c) 31 16 ≤ e.lines ∧ e.errors = 0 ∧ KMap.find e.data o = some bs ∧ bs ≠ [] ∧ bs.length ≤ s.dev.camBytes c o ∧ i = s.dev.n (Off.CAM_PROD c o) % s.dev.camBufs c o ∧ base = s.dev.effAddr (Off.CAM_BUF_BASE_LO c o) (Off.CAM_BUF_BASE_HI c o) + i * (s.dev.eff (Off.CAM_BUF_STRIDE c o)).toNat ∧ s.dev.verdict (.camera c) (s.dev.world (.camera c)) .write base bs.length = .ok) :=
  ⟨⟨mk [(Off.DISP_CTRL 5, 1), (Off.PWR_DOM_STATE 31, 1)], 5, by decide +kernel⟩,
   ⟨mk [(Off.DISP_CTRL 5, 1), (Off.PWR_DOM_STATE 31, 1)] (fun d => { d with media := { d.media with pipes := [(5, { pending := none, scanned := some ⟨0x10000000000, 64, 64, 0, 256⟩ })] } }), 5, ⟨0x10000000000, 64, 64, 0, 256⟩, by decide +kernel⟩,
   ⟨mk [], 15, by decide +kernel⟩,
   ⟨mk [], 6, [], .displayLatch (6), by decide +kernel, by decide +kernel⟩,
   ⟨mk [(Off.CAM_CTRL 15, 0xF00001), (Off.PWR_DOM_STATE 34, 1)], 15, by decide +kernel⟩,
   ⟨mk [(Off.CAM_CTRL 15, 0xF00001), (Off.PWR_DOM_STATE 34, 1)] (fun d => filming { frames := 1, lastStart := some 0, cur := none } { d with now := 1 }), 15, by decide +kernel⟩,
   ⟨mk [] (filming { frames := 1, lastStart := some 0, cur := none }), 15, 0, by decide +kernel⟩,
   ⟨mk ([(Off.CAM_CTRL 15, 0xF00001), (Off.CAM_SIZE 15, 0x10001), (Off.CAM_OUT_CTRL 15 1, 3), (Off.CAM_OUT_SIZE 15 1, 0x10001), (Off.CAM_BUF_BASE_HI 15 1, 0x100)] ++ hbmAs 1) (filming { frames := 1, lastStart := some 0, cur := some ⟨0, 0, 0, [1], none⟩ }), 15, 1, 0x10000000000, 0, ⟨0, 0, 0, [1], none⟩, ⟨1, 0, [(1, [7, 8, 9])]⟩, [7, 8, 9], by decide +kernel⟩⟩

/-- States and operands that meet every hypothesis of `Obligations.CodecJobsAndDrawLists`, clause by clause. -/
theorem test_witness_CodecJobsAndDrawLists :
    (∃ (s : State), ∃ (v : Nat), ∃ (a : Nat), a = s.dev.effAddr (Off.VC_RING_BASE_LO v) (Off.VC_RING_BASE_HI v) + s.dev.n (Off.VC_CONS v) % s.dev.vcSize v * 64 ∧ s.dev.vcCan v false s.dev.media.lastDec = true) ∧
    (∃ (s : State), ∃ (v : Nat), ∃ (a : Nat), a = s.dev.effAddr (Off.VC_RING_BASE_LO v) (Off.VC_RING_BASE_HI v) + s.dev.n (Off.VC_CONS v) % s.dev.vcSize v * 64 ∧ s.dev.vcCan v true s.dev.media.lastEnc = true) ∧
    (∃ (s : State), ∃ (v : Nat), ∃ (j : CodecJob), (s.dev.session v).job = some j ∧ j.sizeOk = false) ∧
    (∃ (s : State), ∃ (v : Nat), ∃ (j : CodecJob), ∃ (out : List Byte), ∃ (made : List Byte), (s.dev.session v).job = some j ∧ j.reservedOk = true ∧ j.sizeOk = true ∧ made = (if s.dev.effB (Off.VC_CTRL v) 1 = true then out else out.take j.picture) ∧ made ≠ [] ∧ (if s.dev.effB (Off.VC_CTRL v) 1 = true then out.length else j.picture) ≤ j.at 0x14 4 ∧ j.context ≤ (s.dev.eff (Off.VC_CTX_MIB v)).toNat * 2 ^ 20 ∧ s.dev.verdict (.codec v) (s.dev.world (.codec v)) .read (j.at 8 8) (j.at 0x10 4) = .ok ∧ s.dev.verdict (.codec v) (s.dev.world (.codec v)) .write (s.dev.effAddr (Off.VC_CTX_BASE_LO v) (Off.VC_CTX_BASE_HI v)) j.context = .ok ∧ s.dev.verdict (.codec v) (s.dev.world (.codec v)) .write (j.at 0x18 8) made.length = .ok) ∧
    (∃ (s : State), ∃ (v : Nat), ∃ (a : Nat), ∃ (j : CodecJob), v < 16 ∧ (s.dev.session v).job = some j ∧ a = s.dev.effAddr (Off.VC_CPL_BASE_LO v) (Off.VC_CPL_BASE_HI v) + j.x % s.dev.vcSize v * 32 ∧ s.dev.verdict (.codec v) (s.dev.world (.codec v)) .write a 32 = .ok) ∧
    (∃ (s : State), ∃ (id : Nat), ∃ (x : Nat), ∃ (n : Nat), ∃ (k : Nat), ∃ (c : Cmd), ∃ (w : DrawSt), let z := n * ((16 + 4 * k + 15) / 16 * 16); s.dev.cmd id = some c ∧ c.op = 0x30 ∧ c.phase = .running ∧ x = c.at 0x1C 1 ∧ w = c.draw ∧ w.bins = true ∧ 1 ≤ n ∧ n ≤ 1024 ∧ k ≤ 32 ∧ w.binUsed + z ≤ s.dev.binBytes x) ∧
    (∃ (s : State), ∃ (id : Nat), ∃ (x : Nat), ∃ (n : Nat), ∃ (k : Nat), ∃ (c : Cmd), ∃ (w : DrawSt), let z := n * ((16 + 4 * k + 15) / 16 * 16); s.dev.cmd id = some c ∧ c.op = 0x30 ∧ c.phase = .running ∧ x = c.at 0x1C 1 ∧ w = c.draw ∧ w.bins = true ∧ 1 ≤ n ∧ n ≤ 1024 ∧ k ≤ 32 ∧ s.dev.binBytes x < w.binUsed + z ∧ s.dev.extBytes x < w.extUsed + z) ∧
    (∃ (s : State), ∃ (id : Nat), ∃ (x : Nat), ∃ (st : Nat), ∃ (c : Cmd), ∃ (w : DrawSt), let o := w.owner.getD st 64; s.dev.cmd id = some c ∧ c.op = 0x30 ∧ c.phase = .running ∧ x = c.at 0x1C 1 ∧ w = c.draw ∧ w.wants o = some st ∧ (s.dev.tile o).cmd = none ∧ s.dev.tileState o = 1 ∧ s.dev.commandDue o = false ∧ s.dev.dueWithin o (s.dev.jobNs x) = false ∧ s.dev.jobOutranked id x o = false) ∧
    (∃ (s : State), ∃ (id : Nat), ∃ (x : Nat), ∃ (st : Nat), ∃ (c : Cmd), ∃ (w : DrawSt), ∃ j, s.dev.cmd id = some c ∧ c.op = 0x30 ∧ c.phase = .running ∧ x = c.at 0x1C 1 ∧ w = c.draw ∧ w.jobs.find? (fun y => y.2 == st) = some j ∧ w.boundary st = true) ∧
    (∃ (s : State), ∃ (id : Nat), ∃ (x : Nat), ∃ (c : Cmd), ∃ (w : DrawSt), s.dev.cmd id = some c ∧ c.op = 0x30 ∧ c.phase = .running ∧ x = c.at 0x1C 1 ∧ w = c.draw ∧ w.full = true ∧ w.allShaded = true) ∧
    (∃ (s : State), ∃ (id : Nat), ∃ (x : Nat), ∃ (st : Nat), ∃ (c : Cmd), ∃ (w : DrawSt), ∃ (p : Prim), ∃ (rest : List Prim), s.dev.cmd id = some c ∧ c.op = 0x30 ∧ c.phase = .running ∧ x = c.at 0x1C 1 ∧ w = c.draw ∧ w.jobs.any (fun j => j.2 == st) = true ∧ s.dev.mustYield id x st w = false ∧ (footprint w.list = 0 ∨ s.dev.gfxBanks x (w.owner.getD st 64) ≠ []) ∧ w.todo st = p :: rest) ∧
    (∃ (s : State), ∃ (id : Nat), ∃ (x : Nat), ∃ (st : Nat), ∃ (c : Cmd), ∃ (w : DrawSt), ∃ (u : State), ∃ (y : Cmd), s.dev.cmd id = some c ∧ c.op = 0x30 ∧ c.phase = .running ∧ x = c.at 0x1C 1 ∧ w = c.draw ∧ (footprint w.list = 0 ∨ s.dev.gfxBanks x (w.owner.getD st 64) ≠ []) ∧ recType w.list w.next = 0 ∧ w.allShaded = true ∧ st < w.owner.length ∧ st ∉ w.stored ∧ w.owner.length ≤ w.stored.length + 1 ∧ s.storeTargets id st c w (tgtCount w.list) = (u, true) ∧ u.dev.cmd id = some y) :=
  ⟨⟨mk [(Off.VC_CTRL 15, 1), (Off.VC_STATUS 15, 1), (Off.PWR_DOM_STATE 35, 1)] (fun d => { d with media := { d.media with sessions := [(15, { prod := 1, job := none })] } }), 15, (mk [(Off.VC_CTRL 15, 1), (Off.VC_STATUS 15, 1), (Off.PWR_DOM_STATE 35, 1)] (fun d => { d with media := { d.media with sessions := [(15, { prod := 1, job := none })] } })).dev.effAddr (Off.VC_RING_BASE_LO (15)) (Off.VC_RING_BASE_HI (15)) + (mk [(Off.VC_CTRL 15, 1), (Off.VC_STATUS 15, 1), (Off.PWR_DOM_STATE 35, 1)] (fun d => { d with media := { d.media with sessions := [(15, { prod := 1, job := none })] } })).dev.n (Off.VC_CONS (15)) % (mk [(Off.VC_CTRL 15, 1), (Off.VC_STATUS 15, 1), (Off.PWR_DOM_STATE 35, 1)] (fun d => { d with media := { d.media with sessions := [(15, { prod := 1, job := none })] } })).dev.vcSize (15) * 64, rfl, by decide +kernel⟩,
   ⟨mk [(Off.VC_CTRL 15, 3), (Off.VC_STATUS 15, 1), (Off.PWR_DOM_STATE 36, 1)] (fun d => { d with media := { d.media with sessions := [(15, { prod := 1, job := none })] } }), 15, (mk [(Off.VC_CTRL 15, 3), (Off.VC_STATUS 15, 1), (Off.PWR_DOM_STATE 36, 1)] (fun d => { d with media := { d.media with sessions := [(15, { prod := 1, job := none })] } })).dev.effAddr (Off.VC_RING_BASE_LO (15)) (Off.VC_RING_BASE_HI (15)) + (mk [(Off.VC_CTRL 15, 3), (Off.VC_STATUS 15, 1), (Off.PWR_DOM_STATE 36, 1)] (fun d => { d with media := { d.media with sessions := [(15, { prod := 1, job := none })] } })).dev.n (Off.VC_CONS (15)) % (mk [(Off.VC_CTRL 15, 3), (Off.VC_STATUS 15, 1), (Off.PWR_DOM_STATE 36, 1)] (fun d => { d with media := { d.media with sessions := [(15, { prod := 1, job := none })] } })).dev.vcSize (15) * 64, rfl, by decide +kernel⟩,
   ⟨mk [] (jobbing { jobOf 0 with desc := descOf [(0x20, 2, 4097), (0x22, 2, 64)] }), 15, { jobOf 0 with desc := descOf [(0x20, 2, 4097), (0x22, 2, 64)] }, by decide +kernel⟩,
   ⟨mk ([(Off.VC_CTRL 15, 1), (Off.VC_CTX_MIB 15, 3), (Off.VC_CTX_BASE_HI 15, 0x100)] ++ hbmAs 1) (jobbing (jobOf 0)), 15, jobOf 0, [1], [1], by decide +kernel⟩,
   ⟨mk ([(Off.VC_CTRL 15, 1), (Off.VC_CPL_BASE_HI 15, 0x100)] ++ hbmAs 1) (jobbing (jobOf 0)), 15, 0x10000000000, jobOf 0, by decide +kernel⟩,
   ⟨run (drawOf (fun y => { y with list := leBytes 1 5 })) [(Off.GFX_BIN_MIB 0, 1)], 1, (drawOf (fun y => { y with list := leBytes 1 5 })).at 0x1C 1, 1024, 32, drawOf (fun y => { y with list := leBytes 1 5 }), (drawOf (fun y => { y with list := leBytes 1 5 })).draw, by decide +kernel, by decide +kernel, by decide +kernel, rfl, rfl, by decide +kernel, by decide +kernel, by decide +kernel, by decide +kernel, by decide +kernel⟩,
   ⟨run (drawOf (fun y => { y with list := leBytes 1 5 })) [(Off.GFX_BIN_MIB 0, 0), (Off.GFX_EXT_MIB 0, 0)], 1, (drawOf (fun y => { y with list := leBytes 1 5 })).at 0x1C 1, 1, 0, drawOf (fun y => { y with list := leBytes 1 5 }), (drawOf (fun y => { y with list := leBytes 1 5 })).draw, by decide +kernel, by decide +kernel, by decide +kernel, rfl, rfl, by decide +kernel, by decide +kernel, by decide +kernel, by decide +kernel, by decide +kernel, by decide +kernel⟩,
   ⟨run (drawOf (fun y => { y with owner := [63], prims := [⟨0, 0, [], [0]⟩] })) [(Off.TILE_STATUS 63, 1)], 1, (drawOf (fun y => { y with owner := [63], prims := [⟨0, 0, [], [0]⟩] })).at 0x1C 1, 0, drawOf (fun y => { y with owner := [63], prims := [⟨0, 0, [], [0]⟩] }), (drawOf (fun y => { y with owner := [63], prims := [⟨0, 0, [], [0]⟩] })).draw, by decide +kernel, by decide +kernel, by decide +kernel, rfl, rfl, by decide +kernel, by decide +kernel, by decide +kernel, by decide +kernel, by decide +kernel, by decide +kernel⟩,
   ⟨run (drawOf (fun y => { y with jobs := [(63, 0)] })), 1, (drawOf (fun y => { y with jobs := [(63, 0)] })).at 0x1C 1, 0, drawOf (fun y => { y with jobs := [(63, 0)] }), (drawOf (fun y => { y with jobs := [(63, 0)] })).draw, (63, 0), by decide +kernel, by decide +kernel, by decide +kernel, rfl, rfl, by decide +kernel, by decide +kernel⟩,
   ⟨run (drawOf (fun y => { y with full := true })), 1, (drawOf (fun y => { y with full := true })).at 0x1C 1, drawOf (fun y => { y with full := true }), (drawOf (fun y => { y with full := true })).draw, by decide +kernel, by decide +kernel, by decide +kernel, rfl, rfl, by decide +kernel, by decide +kernel⟩,
   ⟨run (drawOf (fun y => { y with owner := [63], prims := [⟨0, 0, [], [0]⟩], jobs := [(63, 0)] })), 1, (drawOf (fun y => { y with owner := [63], prims := [⟨0, 0, [], [0]⟩], jobs := [(63, 0)] })).at 0x1C 1, 0, drawOf (fun y => { y with owner := [63], prims := [⟨0, 0, [], [0]⟩], jobs := [(63, 0)] }), (drawOf (fun y => { y with owner := [63], prims := [⟨0, 0, [], [0]⟩], jobs := [(63, 0)] })).draw, ⟨0, 0, [], [0]⟩, [], by decide +kernel, by decide +kernel, by decide +kernel, rfl, rfl, by decide +kernel, by decide +kernel, by decide +kernel, by decide +kernel⟩,
   ⟨run (drawOf (fun y => { y with owner := [63] })), 1, (drawOf (fun y => { y with owner := [63] })).at 0x1C 1, 0, drawOf (fun y => { y with owner := [63] }), (drawOf (fun y => { y with owner := [63] })).draw, (run (drawOf (fun y => { y with owner := [63] }))), (drawOf (fun y => { y with owner := [63] })), by decide +kernel, by decide +kernel, by decide +kernel, rfl, rfl, by decide +kernel, by decide +kernel, by decide +kernel, by decide +kernel, by decide +kernel, by decide +kernel, by decide +kernel, by decide +kernel⟩⟩

/-- States and operands that meet every hypothesis of `Obligations.FramesThroughTheGateway`, clause by clause. -/
theorem test_witness_FramesThroughTheGateway :
    (∃ (s : State), ∃ (p : Nat), ∃ (b : List Byte), p < 14 ∧ s.dev.portUp p = true ∧ s.dev.b Off.GW_CTRL 0 = true ∧ b.length ≤ 9280 ∧ s.dev.matchFlow p b = none) ∧
    (∃ (s : State), ∃ (p : Nat), ∃ (b : List Byte), p < 14 ∧ s.dev.portUp p = true ∧ s.dev.b Off.GW_CTRL 0 = true ∧ b.length ≤ 9280 ∧ s.dev.b (Off.GW_PORT_CTRL p) 2 = false ∧ ¬ (p ≤ 11 ∧ beAt b 12 2 = 0x88F7) ∧ s.dev.matchFlow p b = none ∧ s.dev.f (Off.GW_PORT_CTRL p) 5 4 ≠ 1) ∧
    (∃ (s : State), ∃ (p : Nat), ∃ (b : List Byte), ∃ f, ∃ x, p < 14 ∧ s.dev.portUp p = true ∧ s.dev.b Off.GW_CTRL 0 = true ∧ b.length ≤ 9280 ∧ s.dev.b (Off.GW_PORT_CTRL p) 2 = false ∧ ¬ (p ≤ 11 ∧ beAt b 12 2 = 0x88F7) ∧ s.dev.matchFlow p b = some (f, x) ∧ s.dev.flow f = some x ∧ s.dev.cutThrough p x = none ∧ x.flag 5 = true ∧ x.quiet s.dev.now = false ∧ beAt b (rtagAt b) 2 = 0xF1C1 ∧ (x.recover (beAt b (rtagAt b + 4) 2)).1 = false) ∧
    (∃ (s : State), ∃ (p : Nat), ∃ (b : List Byte), ∃ f, ∃ x, p < 14 ∧ s.dev.portUp p = true ∧ s.dev.b Off.GW_CTRL 0 = true ∧ b.length ≤ 9280 ∧ s.dev.b (Off.GW_PORT_CTRL p) 2 = false ∧ ¬ (p ≤ 11 ∧ beAt b 12 2 = 0x88F7) ∧ s.dev.matchFlow p b = some (f, x) ∧ s.dev.flow f = some x ∧ s.dev.cutThrough p x = none ∧ x.flag 5 = false ∧ x.at 0x10 2 ≠ 0 ∧ x.at 0x10 2 < b.length) ∧
    (∃ (s : State), ∃ (p : Nat), ∃ (b : List Byte), ∃ f, ∃ x, p < 14 ∧ s.dev.portUp p = true ∧ s.dev.b Off.GW_CTRL 0 = true ∧ b.length ≤ 9280 ∧ s.dev.b (Off.GW_PORT_CTRL p) 2 = false ∧ ¬ (p ≤ 11 ∧ beAt b 12 2 = 0x88F7) ∧ s.dev.matchFlow p b = some (f, x) ∧ s.dev.flow f = some x ∧ s.dev.cutThrough p x = none ∧ x.flag 5 = false ∧ x.at 0x10 2 = 0 ∧ 63 < x.at 0x12 1 ∧ (x.meter s.dev.now (b.length + 4)).1 = 2) ∧
    (∃ (s : State), ∃ (p : Nat), ∃ (b : List Byte), ∃ f, ∃ x, ∃ q, p < 14 ∧ s.dev.portUp p = true ∧ s.dev.b Off.GW_CTRL 0 = true ∧ b.length ≤ 9280 ∧ s.dev.b (Off.GW_PORT_CTRL p) 2 = false ∧ ¬ (p ≤ 11 ∧ beAt b 12 2 = 0x88F7) ∧ s.dev.matchFlow p b = some (f, x) ∧ s.dev.flow f = some x ∧ s.dev.cutThrough p x = none ∧ x.egress = [q] ∧ q < 14 ∧ x.flag 1 = false ∧ x.flag 4 = false ∧ x.flag 5 = false ∧ x.at 0x10 2 = 0 ∧ 63 < x.at 0x12 1 ∧ (x.meter s.dev.now (b.length + 4)).1 = 0 ∧ x.at 0x13 1 % 8 = 0) ∧
    (∃ (x : Flow), ∃ (now : Nat), ∃ (cb : Nat), ∃ (eb : Nat), (x.at 0x14 4 ≠ 0 ∨ x.at 0x1C 4 ≠ 0) ∧ cb = min (x.at 0x18 4 * 8000000) (x.cBucket + x.at 0x14 4 * (now - x.filledAt)) ∧ eb = min (x.at 0x20 4 * 8000000) (x.eBucket + x.at 0x1C 4 * (now - x.filledAt))) ∧
    (∃ (s : State), ∃ (p : Nat), (s.dev.portUp p = false ∨ s.dev.b Off.GW_CTRL 0 = false)) ∧
    (∃ (s : State), ∃ (p : Nat), ∃ (tc : Nat), ∃ (q : QFrame), ∃ (rest : List QFrame), p < 14 ∧ tc < 8 ∧ s.dev.portUp p = true ∧ s.dev.b Off.GW_CTRL 0 = true ∧ (s.dev.b (Off.GW_PORT_CTRL p) 2 = false ∨ 12 ≤ p) ∧ KMap.getD s.dev.gw.queues (p * 8 + tc) [] = q :: rest ∧ s.dev.gateFits p tc (wireNs p (q.bytes.length + wireExtra)) = true ∧ (∀ k < 8, tc < k → s.dev.classReady p k = false) ∧ q.pdu = none ∧ q.ts = none) ∧
    (∃ (s : State), ∃ (p : Nat), (∀ k < 8, s.dev.classReady p k = false)) ∧
    (∃ (s : State), ∃ (l : Nat), ∃ (p : Nat), ∃ (g : GList), (s.dev.gcl l).cur = some g ∧ s.dev.deadOver = false ∧ (s.dev.gcl l).entry < g.entries.length ∧ (s.dev.gcl l).entryEnd g ≤ s.dev.now ∧ p < 18 ∧ s.dev.b (Off.GW_PORT_GCL p) 0 = true ∧ s.dev.f (Off.GW_PORT_GCL p) 13 8 = l) ∧
    (∃ (s : State), ∃ (tb : Nat), ∃ (first : Nat), ∃ (n : Nat), ∃ (rest : List (Nat × Nat × Nat)), s.dev.gw.load = (tb, first, n) :: rest ∧ 4 ≤ s.dev.stage) ∧
    (∃ (s : State), (s.dev.gw.load = [] ∨ s.dev.stage < 4)) ∧
    (∃ (s : State), ∃ (n : Nat), ∃ (b : List Byte), b = s.bytes (s.dev.gwTable + n * 64) 64 ∧ s.dev.verdict .gwTables (s.dev.world .gwTables) .read (s.dev.gwTable + n * 64) 64 = .ok ∧ s.dev.flowOk n b = true ∧ leAt b 0 1 ≠ 0) ∧
    (∃ (s : State), ∃ (f : Nat), ∃ (x : Flow), s.dev.flow f = some x ∧ x.changed = false) ∧
    (∃ (s : State), ∃ (f : Nat), ∃ (x : Flow), s.dev.flow f = some x ∧ x.changed = true ∧ s.dev.verdict .gwTables (s.dev.world .gwTables) .write (s.dev.gwTable + 0x500000 + f * 16) 16 = .ok) ∧
    (∃ (s : State), ∃ (p : Nat), p < 14 ∧ s.dev.portThere p = true) :=
  ⟨⟨flowing (flowOf 0 []), 13, [0x55], by decide +kernel⟩,
   ⟨flowing (flowOf 0 []), 13, [0x55], by decide +kernel⟩,
   ⟨flowing { flowOf 0x20 [(0x26, 1, 16)] with takeAny := false, recHist := 1 }, 13, zeros 12 ++ [0xF1, 0xC1] ++ zeros 46, 5, { flowOf 0x20 [(0x26, 1, 16)] with takeAny := false, recHist := 1 }, by decide +kernel⟩,
   ⟨flowing (flowOf 0 [(0x10, 2, 59)]), 13, zeros 60, 5, flowOf 0 [(0x10, 2, 59)], by decide +kernel⟩,
   ⟨flowing (flowOf 0 [(0x14, 4, 1)]), 13, zeros 60, 5, flowOf 0 [(0x14, 4, 1)], by decide +kernel⟩,
   ⟨flowing (flowOf 0 []), 13, zeros 60, 5, flowOf 0 [], 13, by decide +kernel⟩,
   ⟨flowOf 0 [(0x14, 4, 1)], 0, min ((flowOf 0 [(0x14, 4, 1)]).at 0x18 4 * 8000000) ((flowOf 0 [(0x14, 4, 1)]).cBucket + (flowOf 0 [(0x14, 4, 1)]).at 0x14 4 * ((0) - (flowOf 0 [(0x14, 4, 1)]).filledAt)), min ((flowOf 0 [(0x14, 4, 1)]).at 0x20 4 * 8000000) ((flowOf 0 [(0x14, 4, 1)]).eBucket + (flowOf 0 [(0x14, 4, 1)]).at 0x1C 4 * ((0) - (flowOf 0 [(0x14, 4, 1)]).filledAt)), by decide +kernel, rfl, rfl⟩,
   ⟨mk [], 0, by decide +kernel⟩,
   ⟨mk [(Off.GW_CTRL, 1), (Off.GW_PORT_CTRL 13, 0x10001), (Off.GW_PORT_STATUS 13, 1), (Off.T1S_CTRL 1, 1)] (gating (fun w => { w with queues := [(13 * 8 + 6, [⟨zeros 60, 5, none, none⟩])] })), 13, 6, ⟨zeros 60, 5, none, none⟩, [], by decide +kernel⟩,
   ⟨mk [], 13, by decide +kernel⟩,
   ⟨mk [(Off.GW_PORT_GCL 17, 0x1F01)] (fun d => gating (fun w => { w with lists := [(31, { raw := [], cur := some ⟨0, [(255, 100), (1, 100)]⟩, entry := 1, startAt := 0 })] }) (after 100 d)), 31, 17, ⟨0, [(255, 100), (1, 100)]⟩, by decide +kernel⟩,
   ⟨mk [(Off.START_STAGE, 4)] (gating (fun w => { w with load := [(0, 7, 1)] })), 0, 7, 1, [], by decide +kernel⟩,
   ⟨mk [], by decide +kernel⟩,
   ⟨holding 0x100000001C0 (flowOf 0 []).raw (mk ([(Off.GW_TAB_BASE_HI, 0x100)] ++ hbmAs 1)), 7, (flowOf 0 []).raw, by decide +kernel⟩,
   ⟨flowing (flowOf 0 []), 5, flowOf 0 [], by decide +kernel⟩,
   ⟨mk ([(Off.GW_TAB_BASE_HI, 0x100)] ++ hbmAs 1) (gating (fun w => { w with flows := [(5, { flowOf 0 [] with changed := true })] })), 5, { flowOf 0 [] with changed := true }, by decide +kernel⟩,
   ⟨mk [], 13, by decide +kernel⟩⟩

/-- States and operands that meet every hypothesis of `Obligations.BusFramesAndPdus`, clause by clause. -/
theorem test_witness_BusFramesAndPdus :
    (∃ (s : State), ∃ (ch : Nat), ∃ (id : Nat), ∃ (fm : Nat), ∃ (ext : Bool), ∃ (b : List Byte), ∃ n, ∃ x, s.dev.canOn ch = true ∧ s.dev.f (Off.CAN_STATUS ch) 1 0 < 2 ∧ b.length ≤ 64 ∧ s.dev.sgOn = true ∧ s.dev.rxPdu 1 ch (id + if ext = true then 2 ^ 31 else 0) = some (n, x) ∧ (s.dev.b (Off.CAN_CTRL ch) 5 = false ∨ nbit fm 5 = true)) ∧
    (∃ (s : State), ∃ (ch : Nat), ∃ (id : Nat), ∃ (fm : Nat), ∃ (ext : Bool), ∃ (b : List Byte), s.dev.canOn ch = true ∧ s.dev.f (Off.CAN_STATUS ch) 1 0 < 2 ∧ b.length ≤ 64 ∧ (s.dev.sgOn = false ∨ s.dev.rxPdu 1 ch (id + if ext = true then 2 ^ 31 else 0) = none) ∧ (s.dev.b (Off.CAN_CTRL ch) 5 = false ∨ nbit fm 5 = true)) ∧
    (∃ (s : State), ∃ (ch : Nat), ∃ (id : Nat), ∃ (fm : Nat), ∃ (ext : Bool), ∃ (b : List Byte), ∃ n, ∃ f, ∃ q, let z := (s.dev.ntscf f ch (acfCan ch id ext fm b)).1; let old := KMap.getD s.dev.gw.queues (q * 8 + f.tc) []; s.dev.canOn ch = true ∧ s.dev.f (Off.CAN_STATUS ch) 1 0 < 2 ∧ b.length ≤ 64 ∧ (s.dev.sgOn = false ∨ s.dev.rxPdu 1 ch (id + if ext = true then 2 ^ 31 else 0) = none) ∧ s.dev.b (Off.CAN_CTRL ch) 5 = true ∧ nbit fm 5 = false ∧ n = s.dev.f (Off.CAN_CTRL ch) 31 16 ∧ s.dev.flow n = some f ∧ f.kind = 2 ∧ f.egress = [q] ∧ q < 14 ∧ f.flag 1 = false ∧ f.flag 4 = false ∧ f.at 0x13 1 % 8 = 0 ∧ s.dev.portUp q = true ∧ qBytes old + z.length ≤ s.dev.f (Off.GW_PORT_QLIMIT q) 10 0 * 1024 ∧ (s.dev.gw.queues.map (fun y => qBytes y.2)).sum + z.length ≤ 8 * 2 ^ 20) ∧
    (∃ (d : Dev), ∃ (n : Nat), ∃ (x : Pdu), ∃ (b : List Byte), let p := b.take x.length; let ctr := nfld (leNat p) ((x.length - 2) * 8 + 3) ((x.length - 2) * 8); let bad := x.flag 1 = true ∧ (x.lastCtr = some ctr ∨ leAt p (x.length - 1) 1 ≠ crcOf 3 (leBytes 4 x.id ++ p.take (x.length - 1))); d.pdu n = some x ∧ x.isTx = false ∧ x.length ≤ b.length ∧ bad) ∧
    (∃ (d : Dev), ∃ (n : Nat), ∃ (x : Pdu), ∃ (y : Pdu), ∃ (b : List Byte), ∃ (r : List Byte), d.pdu n = some x ∧ x.isTx = false ∧ x.length ≤ b.length ∧ x.flag 1 = false ∧ d.routesOf x = [r] ∧ d.pdu (leAt r 0 2) = some y ∧ y.isTx = true ∧ y.medium ≠ 3 ∧ leAt r 2 2 + leAt r 6 1 ≤ x.bits ∧ leAt r 4 2 + leAt r 6 1 ≤ y.bits) ∧
    (∃ (s : State), ∃ (ch : Nat), (s.dev.canOn ch = false ∨ 2 ≤ s.dev.f (Off.CAN_STATUS ch) 1 0)) ∧
    (∃ (s : State), ∃ (ch : Nat), s.dev.canOn ch = true ∧ s.dev.f (Off.CAN_STATUS ch) 1 0 < 2) ∧
    (∃ (s : State), ∃ (ch : Nat), s.dev.canOn ch = true ∧ s.dev.f (Off.CAN_STATUS ch) 1 0 = 2 ∧ s.dev.b (Off.CAN_CTRL ch) 3 = true) ∧
    (∃ (s : State), ∃ (ch : Nat), s.dev.canOn ch = true ∧ s.dev.f (Off.CAN_STATUS ch) 1 0 = 2 ∧ s.dev.b (Off.CAN_CTRL ch) 3 = false) ∧
    (∃ (s : State), ∃ (n : Nat), ∃ (x : Pdu), ∃ k, s.dev.pdu n = some x ∧ s.dev.sgOn = true ∧ x.period ≠ 0 ∧ x.medium ≠ 3 ∧ (x.isTx = true ∨ x.medium = 2) ∧ k ≠ n) ∧
    (∃ (s : State), ∃ (n : Nat), ∃ (k : Nat), ∃ (x : Pdu), s.dev.pdu n = none ∧ s.dev.pdu k = some x ∧ x.medium = 1 ∧ x.queued = true ∧ x.flag 1 = false ∧ s.dev.canSends x.channel = true) ∧
    (∃ (s : State), ∃ (ch : Nat), (s.dev.linOn ch = false ∨ KMap.find s.dev.gw.linSlots ch = some (s.dev.linSlotNow ch))) ∧
    (∃ (s : State), ∃ (ch : Nat), ∃ (n : Nat), ∃ (x : Pdu), s.dev.linOn ch = true ∧ KMap.find s.dev.gw.linSlots ch ≠ some (s.dev.linSlotNow ch) ∧ s.dev.pdu n = some x ∧ s.dev.gw.pdus.find? (fun y => y.2.medium == 2 && y.2.channel == ch && y.2.queued) = some (n, x)) ∧
    (∃ (s : State), ∃ (ch : Nat), ∃ (n : Nat), ∃ (cs : Nat), ∃ (b : List Byte), ∃ x, ch < 8 ∧ KMap.find s.dev.gw.linWait ch = some n ∧ s.dev.pdu n = some x ∧ cs = linChecksum x.id b ∧ s.dev.sgOn = true) ∧
    (∃ (s : State), ∃ (ch : Nat), ∃ (n : Nat), ∃ (cs : Nat), ∃ (b : List Byte), ∃ x, ch < 8 ∧ KMap.find s.dev.gw.linWait ch = some n ∧ s.dev.pdu n = some x ∧ cs ≠ linChecksum x.id b) ∧
    (∃ (s : State), ∃ (ch : Nat), KMap.find s.dev.gw.linWait ch = none) ∧
    (∃ (s : State), ∃ (n : Nat), ∃ (x : Pdu), s.dev.pdu n = some x ∧ x.isTx = false ∧ x.period ≠ 0 ∧ s.dev.sgOn = true ∧ (x.timedOut = true ∨ s.dev.now < x.lastAt + x.period * 1000)) ∧
    (∃ (s : State), ∃ (n : Nat), ∃ (x : Pdu), s.dev.pdu n = some x ∧ x.isTx = false ∧ x.period ≠ 0 ∧ s.dev.sgOn = true ∧ x.timedOut = false ∧ x.lastAt + x.period * 1000 ≤ s.dev.now) :=
  ⟨⟨pdued (pduOf [(0, 1, 1), (2, 1, 8), (4, 2, 11), (8, 4, 5)]) [(Off.SG_CTRL, 1), (Off.CAN_CTRL 11, 1), (Off.CAN_STATUS 11, 0)], 11, 5, 0, false, zeros 64, 9, pduOf [(0, 1, 1), (2, 1, 8), (4, 2, 11), (8, 4, 5)], by decide +kernel⟩,
   ⟨mk [(Off.CAN_CTRL 11, 0x21), (Off.CAN_STATUS 11, 0)], 11, 0, 32, true, [], by decide +kernel⟩,
   ⟨mk [(Off.CAN_CTRL 11, 0x50021), (Off.CAN_STATUS 11, 1), (Off.T1S_CTRL 1, 1), (Off.GW_PORT_CTRL 13, 0x10001), (Off.GW_PORT_STATUS 13, 1), (Off.GW_PORT_QLIMIT 13, 1)] (gating (fun w => { w with flows := [(5, flowOf 0 [(0, 1, 2)])] })), 11, 0, 1, true, zeros 64, 5, flowOf 0 [(0, 1, 2)], 13, by decide +kernel⟩,
   ⟨(pdued { pduOf [(0, 1, 1), (1, 1, 2), (2, 1, 4)] with lastCtr := some 0 }).dev, 9, { pduOf [(0, 1, 1), (1, 1, 2), (2, 1, 4)] with lastCtr := some 0 }, zeros 4, by decide +kernel⟩,
   ⟨regd [] (gating (fun w => { w with pdus := [(9, pduOf [(0, 1, 1), (2, 1, 8), (0x14, 2, 1)]), (10, pduOf [(0, 1, 2), (1, 1, 1), (2, 1, 8)])], routes := [(0, (descOf [(0, 2, 10), (2, 2, 32), (4, 2, 32), (6, 1, 32)]).take 16)] })), 9, pduOf [(0, 1, 1), (2, 1, 8), (0x14, 2, 1)], pduOf [(0, 1, 2), (1, 1, 1), (2, 1, 8)], zeros 8, (descOf [(0, 2, 10), (2, 2, 32), (4, 2, 32), (6, 1, 32)]).take 16, by decide +kernel⟩,
   ⟨mk [(Off.CAN_CTRL 11, 1)], 11, by decide +kernel⟩,
   ⟨mk [(Off.CAN_CTRL 11, 1), (Off.CAN_STATUS 11, 1)], 11, by decide +kernel⟩,
   ⟨mk [(Off.CAN_CTRL 11, 9), (Off.CAN_STATUS 11, 2)], 11, by decide +kernel⟩,
   ⟨mk [(Off.CAN_CTRL 11, 1), (Off.CAN_STATUS 11, 2)], 11, by decide +kernel⟩,
   ⟨pdued (pduOf [(0, 1, 2), (0xC, 4, 1)]) [(Off.SG_CTRL, 1)], 9, ((pdued (pduOf [(0, 1, 2), (0xC, 4, 1)]) [(Off.SG_CTRL, 1)]).dev.pdu (9)).get (by decide +kernel), 8, by decide +kernel⟩,
   ⟨pdued { pduOf [(0, 1, 1), (1, 1, 1)] with queued := true } [(Off.CAN_CTRL 0, 1), (Off.CAN_STATUS 0, 1)], 8, 9, ((pdued { pduOf [(0, 1, 1), (1, 1, 1)] with queued := true } [(Off.CAN_CTRL 0, 1), (Off.CAN_STATUS 0, 1)]).dev.pdu (9)).get (by decide +kernel), by decide +kernel⟩,
   ⟨mk [], 7, by decide +kernel⟩,
   ⟨pdued { pduOf [(0, 1, 2), (1, 1, 1), (4, 2, 7)] with queued := true } [(Off.LIN_CTRL 7, 1)], 7, 9, { pduOf [(0, 1, 2), (1, 1, 1), (4, 2, 7)] with queued := true }, by decide +kernel⟩,
   ⟨pdued (pduOf [(0, 1, 2), (4, 2, 7)]) [(Off.SG_CTRL, 1)] (fun w => { w with linWait := [(7, 9)] }), 7, 9, linChecksum (pduOf [(0, 1, 2), (4, 2, 7)]).id [], [], pduOf [(0, 1, 2), (4, 2, 7)], by decide +kernel⟩,
   ⟨pdued (pduOf [(0, 1, 2), (4, 2, 7)]) [(Off.SG_CTRL, 1)] (fun w => { w with linWait := [(7, 9)] }), 7, 9, 256, [], pduOf [(0, 1, 2), (4, 2, 7)], by decide +kernel⟩,
   ⟨mk [], 0, by decide +kernel⟩,
   ⟨pdued (pduOf [(0, 1, 1), (0xC, 4, 1)]) [(Off.SG_CTRL, 1)], 9, ((pdued (pduOf [(0, 1, 1), (0xC, 4, 1)]) [(Off.SG_CTRL, 1)]).dev.pdu (9)).get (by decide +kernel), by decide +kernel⟩,
   ⟨mk [(Off.SG_CTRL, 1)] (fun d => gating (fun w => { w with pdus := [(9, pduOf [(0, 1, 1), (0xC, 4, 1)])] }) { d with now := 1000 }), 9, ((mk [(Off.SG_CTRL, 1)] (fun d => gating (fun w => { w with pdus := [(9, pduOf [(0, 1, 1), (0xC, 4, 1)])] }) { d with now := 1000 })).dev.pdu (9)).get (by decide +kernel), by decide +kernel⟩⟩

/-- States and operands that meet every hypothesis of `Obligations.CapturesTimestampsPulses`, clause by clause. -/
theorem test_witness_CapturesTimestampsPulses :
    (∃ (s : State), ∃ (i : Nat), ∃ (up : Bool), ∃ (q : List Nat), i < 4 ∧ q = KMap.getD s.dev.gw.caps i [] ∧ (s.dev.b (Off.CAP_CTRL i) 0 = false ∨ nbit (s.dev.f (Off.CAP_CTRL i) 2 1) (if up = true then 0 else 1) = false)) ∧
    (∃ (s : State), ∃ (i : Nat), ∃ (up : Bool), ∃ (q : List Nat), i < 4 ∧ q = KMap.getD s.dev.gw.caps i [] ∧ s.dev.b (Off.CAP_CTRL i) 0 = true ∧ nbit (s.dev.f (Off.CAP_CTRL i) 2 1) (if up = true then 0 else 1) = true) ∧
    (∃ (s : State), ∃ (m : Master), ∃ (i : Nat), ∃ (q : List Nat), i < 4 ∧ q = (KMap.getD s.dev.gw.caps i []).tail ∧ s.dev.setupRefused m (Off.CAP_POP i) 4 = none) ∧
    (∃ (s : State), ∃ (m : Master), ∃ (p : Nat), ∃ (q : List Nat), p < 18 ∧ q = (KMap.getD s.dev.gw.txts p []).tail ∧ s.dev.setupRefused m (Off.GW_PORT_TXTS_POP p) 4 = none) ∧
    (∃ (d : Dev), ∃ (p : Nat), ∃ (q : List Nat), p < 18 ∧ q = KMap.getD d.gw.txts p []) ∧
    (∃ (s : State), ∃ (o : Nat), ∃ (x : Int), o < 8 ∧ KMap.find s.dev.gw.pulses o = some x ∧ s.dev.f (Off.PULSE_CTRL o) 1 0 ≠ 3 ∧ s.dev.hwNs < x) ∧
    (∃ (s : State), ∃ (o : Nat), ∃ (x : Int), o < 8 ∧ KMap.find s.dev.gw.pulses o = some x ∧ s.dev.f (Off.PULSE_CTRL o) 1 0 ≠ 3 ∧ x ≤ s.dev.hwNs) ∧
    (∃ (s : State), ∃ (o : Nat), o < 8 ∧ s.dev.f (Off.PULSE_CTRL o) 1 0 = 3) :=
  ⟨⟨mk [(Off.CAP_CTRL 3, 5)], 3, true, KMap.getD (mk [(Off.CAP_CTRL 3, 5)]).dev.gw.caps (3) [], by decide +kernel, rfl, by decide +kernel⟩,
   ⟨mk [(Off.CAP_CTRL 3, 5)], 3, false, KMap.getD (mk [(Off.CAP_CTRL 3, 5)]).dev.gw.caps (3) [], by decide +kernel, rfl, by decide +kernel, by decide +kernel⟩,
   ⟨mk [], .mgmt, 3, (KMap.getD (mk []).dev.gw.caps (3) []).tail, by decide +kernel, rfl, by decide +kernel⟩,
   ⟨mk [], .mgmt, 17, (KMap.getD (mk []).dev.gw.txts (17) []).tail, by decide +kernel, rfl, by decide +kernel⟩,
   ⟨regd [], 17, KMap.getD (regd []).gw.txts (17) [], by decide +kernel, rfl⟩,
   ⟨mk [(Off.PULSE_CTRL 7, 1)] (gating (fun w => { w with pulses := [(7, 1)] })), 7, 1, by decide +kernel⟩,
   ⟨mk [(Off.PULSE_CTRL 7, 2)] (gating (fun w => { w with pulses := [(7, 0)] })), 7, 0, by decide +kernel⟩,
   ⟨mk [(Off.PULSE_CTRL 7, 3)], 7, by decide +kernel⟩⟩

/-- States and operands that meet every hypothesis of `Obligations.MailboxChannels`, clause by clause. -/
theorem test_witness_MailboxChannels :
    (∃ (s : State), ∃ (m : Master), s.dev.setupRefused m Off.VOX_HEARTBEAT 4 = none) ∧
    (∃ (s : State), ∃ (m : Master), ∃ (c : Nat), ∃ (v : Nat), ∃ (b : List Byte), c < 16 ∧ s.dev.setupRefused m (Off.MBX_SUBMIT c) 4 = none ∧ b = (s.dev.box c).bytes ∧ nbit v 0 = false) ∧
    (∃ (s : State), ∃ (m : Master), ∃ (c : Nat), ∃ (v : Nat), ∃ (b : List Byte), c < 16 ∧ s.dev.setupRefused m (Off.MBX_SUBMIT c) 4 = none ∧ b = (s.dev.box c).bytes ∧ nbit v 0 = true ∧ s.dev.mbxUndefined m c = true) ∧
    (∃ (s : State), ∃ (m : Master), ∃ (c : Nat), ∃ (v : Nat), ∃ (b : List Byte), c < 16 ∧ s.dev.setupRefused m (Off.MBX_SUBMIT c) 4 = none ∧ b = (s.dev.box c).bytes ∧ nbit v 0 = true ∧ s.dev.mbxUndefined m c = false ∧ s.dev.b (Off.MBX_CH_CTRL c) 0 = true) ∧
    (∃ (s : State), ∃ (c : Nat), ∃ (k : Nat), ∃ (r : MboxReq), c < 16 ∧ s.dev.mbxReq c k = some r ∧ (r.timedOut = true ∨ s.dev.now < r.since + s.dev.f (Off.MBX_CH_CTRL c) 29 16 * 1000000)) ∧
    (∃ (s : State), ∃ (c : Nat), ∃ (k : Nat), ∃ (r : MboxReq), c < 16 ∧ s.dev.mbxReq c k = some r ∧ r.timedOut = false ∧ r.since + s.dev.f (Off.MBX_CH_CTRL c) 29 16 * 1000000 ≤ s.dev.now) ∧
    (∃ (s : State), ∃ (c : Nat), ∃ (k : Nat), ∃ (r : MboxReq), c < 16 ∧ s.dev.mbxReq c k = some r ∧ r.timedOut = true ∧ ((knownType (leAt r.msg 2 2) = false ∨ r.answer ≠ none))) ∧
    (∃ (s : State), ∃ (c : Nat), ∃ (k : Nat), ∃ (r : MboxReq), c < 16 ∧ s.dev.mbxReq c k = some r ∧ r.timedOut = false ∧ knownType (leAt r.msg 2 2) = false) ∧
    (∃ (s : State), ∃ (c : Nat), ∃ (k : Nat), ∃ (r : MboxReq), ∃ a, c < 16 ∧ s.dev.mbxReq c k = some r ∧ r.timedOut = false ∧ knownType (leAt r.msg 2 2) = true ∧ r.answer = some a) ∧
    (∃ (s : State), ∃ (c : Nat), ∃ (k : Nat), ∃ (r : MboxReq), c < 16 ∧ s.dev.mbxReq c k = some r ∧ knownType (leAt r.msg 2 2) = true ∧ r.answer = none) :=
  ⟨⟨mk [], .mgmt, by decide +kernel⟩,
   ⟨mk [], .mgmt, 15, 2, ((mk []).dev.box (15)).bytes, by decide +kernel, by decide +kernel, rfl, by decide +kernel⟩,
   ⟨mk [(Off.MBX_CH_CTRL 15, 1)] (fun d => { d with vox := { d.vox with record := leBytes 6 (2 ^ 32) } }), .mgmt, 15, 1, ((mk [(Off.MBX_CH_CTRL 15, 1)] (fun d => { d with vox := { d.vox with record := leBytes 6 (2 ^ 32) } })).dev.box (15)).bytes, by decide +kernel, by decide +kernel, rfl, by decide +kernel, by decide +kernel⟩,
   ⟨mk [(Off.MBX_CH_CTRL 15, 1)], .mgmt, 15, 1, ((mk [(Off.MBX_CH_CTRL 15, 1)]).dev.box (15)).bytes, by decide +kernel, by decide +kernel, rfl, by decide +kernel, by decide +kernel, by decide +kernel⟩,
   ⟨asked (reqOf 0x10 []) [(Off.MBX_CH_CTRL 15, 0x10001)], 15, 0, reqOf 0x10 [], by decide +kernel⟩,
   ⟨asked (reqOf 0x10 []) [(Off.MBX_CH_CTRL 15, 1)], 15, 0, reqOf 0x10 [], by decide +kernel⟩,
   ⟨asked { reqOf 0x11 [] with timedOut := true, answer := some (0, []) }, 15, 0, { reqOf 0x11 [] with timedOut := true, answer := some (0, []) }, by decide +kernel⟩,
   ⟨asked (reqOf 0x13 []), 15, 0, reqOf 0x13 [], by decide +kernel⟩,
   ⟨asked { reqOf 0x11 [] with answer := some (0x22, []) }, 15, 0, { reqOf 0x11 [] with answer := some (0x22, []) }, (0x22, []), by decide +kernel⟩,
   ⟨asked (reqOf 0x11 []), 15, 0, reqOf 0x11 [], by decide +kernel⟩⟩

/-- States and operands that meet every hypothesis of `Obligations.MailboxMessages`, clause by clause. -/
theorem test_witness_MailboxMessages :
    (∃ (s : State), ∃ (c : Nat), ∃ (k : Nat), ∃ (r : MboxReq), s.dev.mbxServes c k 0x10 = some r) ∧
    (∃ (s : State), ∃ (c : Nat), ∃ (k : Nat), ∃ (r : MboxReq), s.dev.mbxServes c k 0x11 = some r ∧ s.dev.mbxWorld c = true ∧ 4 ≤ r.payload.length) ∧
    (∃ (s : State), ∃ (c : Nat), ∃ (k : Nat), ∃ (r : MboxReq), s.dev.mbxServes c k 0x12 = some r ∧ s.dev.mbxWorld c = true ∧ 4 ≤ r.payload.length) ∧
    (∃ (s : State), ∃ (c : Nat), ∃ (k : Nat), ∃ (r : MboxReq), ∃ (x : Instr), s.dev.mbxWorld c = false ∧ x = .pwrSetCap c k ∧ s.dev.mbxServes c k 0x11 = some r) ∧
    (∃ (s : State), ∃ (c : Nat), ∃ (k : Nat), ∃ (r : MboxReq), s.dev.mbxServes c k 0x20 = some r ∧ 4 ≤ r.payload.length) ∧
    (∃ (s : State), ∃ (c : Nat), ∃ (k : Nat), ∃ (r : MboxReq), s.dev.mbxServes c k 0x21 = some r ∧ 1 ≤ r.payload.length) ∧
    (∃ (s : State), ∃ (c : Nat), ∃ (k : Nat), ∃ (r : MboxReq), s.dev.mbxServes c k 0x30 = some r ∧ s.dev.mbxWorld c = true) ∧
    (∃ (s : State), ∃ (c : Nat), ∃ (k : Nat), ∃ (a : Nat), ∃ (r : MboxReq), ∃ (b : List Byte), s.dev.mbxServes c k 0x40 = some r ∧ 44 ≤ r.payload.length ∧ b.length ≤ 6144 ∧ a = leAt r.payload 32 8 % 2 ^ 52) :=
  ⟨⟨asked (reqOf 0x10 []), 15, 0, reqOf 0x10 [], by decide +kernel⟩,
   ⟨asked (reqOf 0x11 (leBytes 4 561)) [(Off.MBX_CH_CTRL 15, 3)], 15, 0, reqOf 0x11 (leBytes 4 561), by decide +kernel⟩,
   ⟨asked (reqOf 0x12 (leBytes 4 69)) [(Off.MBX_CH_CTRL 15, 3)], 15, 0, reqOf 0x12 (leBytes 4 69), by decide +kernel⟩,
   ⟨asked (reqOf 0x11 (leBytes 4 561)) [(Off.MBX_CH_CTRL 15, 1)], 15, 0, reqOf 0x11 (leBytes 4 561), .pwrSetCap 15 0, by decide +kernel⟩,
   ⟨asked (reqOf 0x20 (leBytes 4 47)), 15, 0, reqOf 0x20 (leBytes 4 47), by decide +kernel⟩,
   ⟨asked (reqOf 0x21 [47]), 15, 0, reqOf 0x21 [47], by decide +kernel⟩,
   ⟨asked (reqOf 0x30 []) [(Off.MBX_CH_CTRL 15, 3)], 15, 0, reqOf 0x30 [], by decide +kernel⟩,
   ⟨asked (reqOf 0x40 (zeros 44)), 15, 0, 0, reqOf 0x40 (zeros 44), [1], by decide +kernel⟩⟩

/-- States and operands that meet every hypothesis of `Obligations.DomainRequestsAndWakes`, clause by clause. -/
theorem test_witness_DomainRequestsAndWakes :
    (∃ (s : State), ∃ (m : Master), ∃ (k : Nat), ∃ (op : Nat), k < 48 ∧ op ≤ 2 ∧ s.dev.setupRefused m Off.PWR_DOM_REQ 4 = none ∧ s.dev.domPresent k = false) ∧
    (∃ (s : State), ∃ (m : Master), ∃ (k : Nat), ∃ (op : Nat), let secure := if k < 32 then s.dev.b Off.PWR_DOM_OWNER_LO k else s.dev.b Off.PWR_DOM_OWNER_HI (k - 32); k < 48 ∧ op ≤ 2 ∧ s.dev.setupRefused m Off.PWR_DOM_REQ 4 = none ∧ s.dev.domPresent k = true ∧ s.dev.world m = false ∧ secure = true) ∧
    (∃ (s : State), ∃ (m : Master), ∃ (k : Nat), ∃ (op : Nat), let secure := if k < 32 then s.dev.b Off.PWR_DOM_OWNER_LO k else s.dev.b Off.PWR_DOM_OWNER_HI (k - 32); k < 48 ∧ op ≤ 2 ∧ s.dev.setupRefused m Off.PWR_DOM_REQ 4 = none ∧ s.dev.domPresent k = true ∧ (s.dev.world m = true ∨ secure = false) ∧ 16 ≤ k ∧ k < 24 ∧ op ≠ 0) ∧
    (∃ (s : State), ∃ (m : Master), ∃ (k : Nat), ∃ (op : Nat), ∃ (h : Bool), let secure := if k < 32 then s.dev.b Off.PWR_DOM_OWNER_LO k else s.dev.b Off.PWR_DOM_OWNER_HI (k - 32); k < 48 ∧ op ≤ 2 ∧ s.dev.setupRefused m Off.PWR_DOM_REQ 4 = none ∧ s.dev.domPresent k = true ∧ (s.dev.world m = true ∨ secure = false) ∧ ¬ (16 ≤ k ∧ k < 24) ∧ op ≠ 0 ∧ s.dev.domIdle k h = false) ∧
    (∃ (s : State), ∃ (m : Master), ∃ (k : Nat), ∃ (op : Nat), ∃ (h : Bool), let secure := if k < 32 then s.dev.b Off.PWR_DOM_OWNER_LO k else s.dev.b Off.PWR_DOM_OWNER_HI (k - 32); k < 48 ∧ op ≤ 2 ∧ s.dev.setupRefused m Off.PWR_DOM_REQ 4 = none ∧ s.dev.domPresent k = true ∧ (s.dev.world m = true ∨ secure = false) ∧ (op = 0 ∨ (¬ (16 ≤ k ∧ k < 24) ∧ s.dev.domIdle k h = true)) ∧ s.dev.power.tripped = false) ∧
    (∃ (s : State), ∃ (k : Nat), k < 48 ∧ s.dev.domState k ≠ 4) ∧
    (∃ (s : State), ∃ (k : Nat), k < 48 ∧ s.dev.domState k = 4) :=
  ⟨⟨mk [] (fun d => { d with ioDies := 1 }), .mgmt, 31, 2, by decide +kernel⟩,
   ⟨mk openSetup, .core 0, 47, 1, by decide +kernel⟩,
   ⟨mk [], .mgmt, 23, 1, by decide +kernel⟩,
   ⟨mk [(Off.TILE_CTRL 63, 1)], .mgmt, 15, 1, true, by decide +kernel⟩,
   ⟨mk [(Off.TILE_CTRL 60, 0), (Off.TILE_CTRL 61, 0), (Off.TILE_CTRL 62, 0), (Off.TILE_CTRL 63, 0)], .mgmt, 15, 2, true, by decide +kernel⟩,
   ⟨mk [(Off.PWR_DOM_STATE 47, 1)], 47, by decide +kernel⟩,
   ⟨mk [(Off.PWR_DOM_STATE 47, 4)], 47, by decide +kernel⟩⟩

/-- States and operands that meet every hypothesis of `Obligations.SupplyCapAndTemperature`, clause by clause. -/
theorem test_witness_SupplyCapAndTemperature :
    (∃ mv, mv ≤ 12000) ∧
    (∃ mv, 20000 ≤ mv) ∧
    (∃ mv, 12000 ≤ mv ∧ mv ≤ 20000) ∧
    (∃ (s : State), ∃ (mw : Nat), ∃ (lim : Nat), lim = s.dev.n Off.PWR_LIMIT_W * 1000 ∧ mw ≤ lim) ∧
    (∃ (s : State), ∃ (mw : Nat), ∃ (lim : Nat), lim = s.dev.n Off.PWR_LIMIT_W * 1000 ∧ lim < mw) ∧
    (∃ (temp : Nat), 125 ≤ temp) ∧
    (∃ (s : State), ∃ (temp : Nat), temp < 125 ∧ s.dev.b Off.PWR_STATUS 3 = false) ∧
    (∃ (temp : Nat), 130 ≤ temp) ∧
    (∃ (temp : Nat), temp < 130) ∧
    (∃ (s : State), s.dev.power.tripped = true) ∧
    (∃ (s : State), (s.dev.vox.oppAt = none ∨ s.dev.start.voxsar = false)) ∧
    (∃ (s : State), ∃ (x : Nat), s.dev.vox.oppAt = some x ∧ s.dev.now < x) ∧
    (∃ (s : State), ∃ (x : Nat), s.dev.vox.oppAt = some x ∧ x ≤ s.dev.now ∧ s.dev.start.voxsar = true ∧ s.dev.conservative = true) ∧
    (∃ (s : State), ∃ (x : Nat), s.dev.vox.oppAt = some x ∧ x ≤ s.dev.now ∧ s.dev.start.voxsar = true ∧ s.dev.conservative = false) :=
  ⟨⟨12000, by decide +kernel⟩,
   ⟨20000, by decide +kernel⟩,
   ⟨12001, by decide +kernel⟩,
   ⟨mk [(Off.PWR_LIMIT_W, 300)], 300000, 300000, by decide +kernel⟩,
   ⟨mk [(Off.PWR_LIMIT_W, 300)], 300001, 300000, by decide +kernel⟩,
   ⟨125, by decide +kernel⟩,
   ⟨mk [(Off.PWR_STATUS, 0)], 124, by decide +kernel⟩,
   ⟨130, by decide +kernel⟩,
   ⟨129, by decide +kernel⟩,
   ⟨mk [] (fun d => { d with power := { d.power with tripped := true } }), by decide +kernel⟩,
   ⟨mk [], by decide +kernel⟩,
   ⟨mk [] (fun d => { d with vox := { d.vox with oppAt := some 1 } }), 1, by decide +kernel⟩,
   ⟨mk [(Off.PWR_STATUS, 2)] (fun d => { d with vox := { d.vox with oppAt := some 0 } }), 0, by decide +kernel⟩,
   ⟨mk [(Off.PWR_STATUS, 0)] (fun d => { d with vox := { d.vox with oppAt := some 0 } }), 0, by decide +kernel⟩⟩

/-- States and operands that meet every hypothesis of `Obligations.PortsSupplyAndJtag`, clause by clause. -/
theorem test_witness_PortsSupplyAndJtag :
    (∃ (s : State), ∃ (p : Nat), ∃ (peer : Nat), ∃ (q : Nat), ∃ (half : Bool), ∃ (w : Nat × Nat), p < 12 ∧ s.dev.b Off.IVM_CTRL 0 = true ∧ s.dev.domOn (43 + p % 6 / 3) = true ∧ s.dev.ivmState p ≠ 2 ∧ s.dev.wiredTo p = some w ∧ (peer ≠ w.1 ∨ peer = s.dev.moduleNum ∨ q + (if half = true then 6 else 0) ≠ w.2)) ∧
    (∃ (s : State), ∃ (p : Nat), ∃ (peer : Nat), ∃ (q : Nat), ∃ (half : Bool), ∃ (w : Nat × Nat), p < 12 ∧ s.dev.b Off.IVM_CTRL 0 = true ∧ s.dev.domOn (43 + p % 6 / 3) = true ∧ s.dev.ivmState p ≠ 2 ∧ s.dev.wiredTo p = some w ∧ peer = w.1 ∧ peer < 4 ∧ peer ≠ s.dev.moduleNum ∧ q + (if half = true then 6 else 0) = w.2) ∧
    (∃ (s : State), ∃ (p : Nat), p < 12 ∧ s.dev.ivmState p ≠ 2) ∧
    (∃ (s : State), ∃ (p : Nat), p < 12 ∧ s.dev.ivmState p = 2) ∧
    (∃ (s : State), ∃ (p : Nat), p < 12 ∧ KMap.getD s.dev.linkFails p 0 < 16) ∧
    (∃ (s : State), ∃ (p : Nat), p < 12 ∧ s.dev.ivmState p = 2 ∧ 16 ≤ KMap.getD s.dev.linkFails p 0) ∧
    (∃ (s : State), s.dev.start.powered = false ∧ s.dev.power.holdoff = false) ∧
    (∃ (s : State), (s.dev.start.powered = true ∨ s.dev.power.holdoff = true)) ∧
    (∃ (s : State), let may := s.dev.bootMode = 2 ∨ s.dev.bootMode = 3; may ∧ s.dev.b Off.START_STRAPS 3 = true) ∧
    (∃ (s : State), let may := s.dev.bootMode = 2 ∨ s.dev.bootMode = 3; ¬ (may ∧ s.dev.b Off.START_STRAPS 3 = true)) :=
  ⟨⟨mk [(Off.IVM_CTRL, 1), (Off.GLB_MODULE, 4), (Off.IVM_PORT_STATUS 5, 0)], 5, 1, 4, false, (1, 5), by decide +kernel⟩,
   ⟨mk [(Off.IVM_CTRL, 1), (Off.GLB_MODULE, 4), (Off.IVM_PORT_STATUS 5, 0)], 5, 1, 5, false, (1, 5), by decide +kernel⟩,
   ⟨mk [], 11, by decide +kernel⟩,
   ⟨mk [(Off.IVM_PORT_STATUS 11, 2)], 11, by decide +kernel⟩,
   ⟨mk [], 11, by decide +kernel⟩,
   ⟨mk [(Off.IVM_PORT_STATUS 11, 2)] (fun d => { d with linkFails := [(11, 16)] }), 11, by decide +kernel⟩,
   ⟨{ State.reset with dev := Dev.reset }, by decide +kernel⟩,
   ⟨mk [], by decide +kernel⟩,
   ⟨mk [(Off.START_STRAPS, 10)], by decide +kernel⟩,
   ⟨mk [(Off.START_STRAPS, 8)], by decide +kernel⟩⟩

/-- States and operands that meet every hypothesis of `Obligations.TileArithmetic`, clause by clause. -/
theorem test_witness_TileArithmetic :
    (∃ (x : FpFmt), ∃ (code : Nat), x ∈ [fp4, fp6e2, fp6e3, fp8e4, fp8e5, fp16, bf16, fp19, fp32] ∧ code < 2 ^ x.width ∧ (match x.value code with | .val _ _ _ => true | _ => false) = true) ∧
    (∃ (lo : Int), ∃ (hi : Int), lo ≤ hi) ∧
    (∃ c, c < 256) ∧
    (∃ (s : State), ∃ (id : Nat), ∃ (t : Nat), ∃ (sq : Nat), ∃ (dst : Nat), ∃ (a : Nat), ∃ (b : Nat), ∃ (k : Nat), ∃ (c : Cmd), s.dev.cmd id = some c ∧ c.op = 0x01 ∧ c.phase = .running ∧ s.dev.onIt id t = true ∧ sq < 64 ∧ dst < 256 ∧ s.dev.squadOk t sq [dst, a, b, k] = true) ∧
    (∃ (s : State), ∃ (t : Nat), ∃ (sq : Nat), ∃ (dst : Nat), ∃ (a : Nat), ∃ (b : Nat), ∃ (k : Nat), s.dev.squadOk t sq [dst, a, b, k] = false) ∧
    (∃ (s : State), ∃ (id : Nat), ∃ (t : Nat), ∃ (row : Nat), ∃ (aOff : Nat), ∃ (bOff : Nat), ∃ (depth : Nat), ∃ (cols : Nat), ∃ (c : Cmd), s.dev.cmd id = some c ∧ c.op = 0x01 ∧ c.phase = .running ∧ s.dev.onIt id t = true ∧ row < 512 ∧ cols ≤ 128 ∧ depth ≤ 96 ∧ s.dev.scratchOk t aOff depth = true ∧ s.dev.scratchOk t bOff (depth * cols) = true) ∧
    (∃ (s : State), ∃ (id : Nat), ∃ (t : Nat), ∃ (c : Cmd), s.dev.cmd id = some c ∧ c.op = 0x01 ∧ c.phase = .running ∧ s.dev.onIt id t = true) :=
  ⟨⟨fp4, 7, by decide +kernel⟩,
   ⟨-8, 7, by decide +kernel⟩,
   ⟨255, by decide +kernel⟩,
   ⟨tiling, 1, 63, 63, 255, 255, 255, 255, cmdOf [(0, 1, 1)] .running, by decide +kernel⟩,
   ⟨mk [], 0, 64, 0, 0, 0, 0, by decide +kernel⟩,
   ⟨tiling, 1, 63, 511, 0, 0, 96, 128, cmdOf [(0, 1, 1)] .running, by decide +kernel⟩,
   ⟨tiling, 1, 63, cmdOf [(0, 1, 1)] .running, by decide +kernel⟩⟩

/-! ### The spec's own values -/

/-- The nine bytes of the check column of R527. -/
def nine : List Byte := [0x31, 0x32, 0x33, 0x34, 0x35, 0x36, 0x37, 0x38, 0x39]

/-- The check values of the four polynomials (R527). -/
theorem test_crc_check_values :
    crcOf 0 nine = 0xE3069283 ∧ crcOf 1 nine = 0x6C40DF5F0B497347 ∧ crcOf 2 nine = 0x29B1 ∧ crcOf 3 nine = 0x4B := by decide +kernel

/-- A folded check value covers the sequence, the identifier, then the data (R528). -/
theorem test_fold_block :
    checkValue 0 true 0x34333231 0x38373635 [0x39] = 0xE3069283 ∧ checkValue 0 false 7 7 nine = 0xE3069283 := by decide +kernel

/-- The block of FP32 activations in MXFP4 of the number formats' example: bytes 0xB7 and 0x06, scale 0x82, nothing counted (R212). -/
theorem test_mxfp4_example :
    let r := convert (convOf 0x45) 0 0 ([.val false 60 1, .val true 11 1, .val false 75 2, .val false 9 10] ++ List.replicate 28 (.val false 0 1))
    (packElems 5 r.raws).take 2 = [0xB7, 0x06] ∧ r.scales = [0x82] ∧ r.counted = 0 := by decide +kernel

/-- Three FP32 terms summed in two orders (the example after R219). -/
theorem test_sum_orders :
    f32Add (f32Add 0x4B800000 0x3F800000) 0x3F800000 = 0x4B800000 ∧
    f32Add 0x4B800000 (f32Add 0x3F800000 0x3F800000) = 0x4B800001 := by decide +kernel

/-- BINT4: the scale is amax / 7 in FP8 E4M3, a block of zeros has scale +0, a block with a NaN has 0x7F (R213). -/
theorem test_bint4_scales :
    (convert (convOf 0x0F) 0 0 (.val false 7 1 :: List.replicate 15 (.val true 8 1))).scales = [0x39] ∧
    (convert (convOf 0x0F) 0 0 (List.replicate 16 (.val false 0 1))).scales = [0] ∧
    (convert (convOf 0x0F) 0 0 (.nan :: List.replicate 15 (.val false 1 1))).scales = [0x7F] := by decide +kernel

/-- Ball 7 of an Over of 2,000 µs and 20 Balls begins 700,000 ns after the edge (the example of R17). -/
theorem test_ball_seven :
    ({ Dev.reset with time := { Dev.reset.time with geom := { Dev.reset.time.geom with steps := 40, balls := 20 } } }).ballStart 7 = 700000 := by
  decide +kernel

/-- The read at 0x0040_094A_00C5 of the scratchpad example lies in bank 5 of tile 37, in word 3 at s = 5. -/
theorem test_bank_address : bankAddr 37 5 + 3 * 64 + 5 = 0x40094A00C5 := by decide +kernel

/-- Tile 37 is on die 1, row 0, column 5 (R14). -/
theorem test_tile_ident : tileIdent 37 % 64 = 37 ∧ tileIdent 37 / 64 % 4 = 1 ∧ tileIdent 37 / 256 % 4 = 0 ∧ tileIdent 37 / 1024 = 5 := by
  decide +kernel

/-- On a variant of six stacks, 0x0100_0000_5280 lies on site 6, pseudo-channel 5, stack address 0x280 (the example of R366). -/
theorem test_interleave_example :
    let d := { Dev.reset with hbmStacks := 6 }
    d.hbmSite 0x10000005280 = 6 ∧ hbmPseudo 0x10000005280 = 5 ∧ d.hbmStackAddr 0x10000005280 = 0x280 := by decide +kernel

/-- The ceiling and floor of the tile example: 1,100 MHz is clamped to 1,000 and reported with WRITTEN 1,100, APPLIED 1,000 (R81, R189). -/
theorem test_tile_37_example :
    (match exec (.tileCfgApply .mgmt 37 1) (mk [(Off.START_STAGE, 5)] (fun d => stagedAt 0x350008 0x04E2044C d)) with
     | .next t => (t.dev.f 0x350008 10 0, t.dev.f 0x350008 26 16, t.bytes 0x1FFE000 16)
     | _ => (0, 0, [])) =
    (1000, 1250, leBytes 4 0x350008 ++ [0, 11, 0, 0] ++ leBytes 4 1100 ++ leBytes 4 1000) := by decide +kernel

/-- The second write of the OVER_CTRL example: two reports, and 250 µs with 4 Balls applied (the example of R82). -/
theorem test_over_ctrl_example :
    (match exec (.glbCfgApply .mgmt 1) (mk [(Off.START_STAGE, 5)] (fun d => stagedAt 0x10 0x00041000 d)) with
     | .next t => (t.dev.f 0x10 8 0, t.dev.f 0x10 22 16, t.bytes 0x1FFE000 32)
     | _ => (0, 0, [])) =
    (5, 4, leBytes 4 0x10 ++ [0, 9, 0, 0] ++ leBytes 4 0 ++ leBytes 4 5 ++ leBytes 4 0x10 ++ [9, 7, 0, 2] ++ leBytes 4 8 ++ leBytes 4 0) := by
  decide +kernel

/-- The bandwidth example: class 5 asks for 100 with 69 left on an eight-stack variant, and one report says so (R381, R382). -/
theorem test_umpire_clamp_example :
    (match exec (.umpCfgApply .mgmt 0 1)
        (mk [(Off.START_STAGE, 5), (Off.UMP_CTRL 0, 0x303), (0x600104, 0x188000), (0x600108, 60), (0x60010C, 150), (0x600110, 10)] (fun d => stagedAt 0x600114 100 d)) with
     | .next t => (t.dev.f 0x600114 11 0, t.bytes 0x1FFE000 16)
     | _ => (0, [])) =
    (69, leBytes 4 0x600114 ++ [0, 12, 0, 0] ++ leBytes 4 100 ++ leBytes 4 69) := by decide +kernel

/-- IDCODE of stepping B0: version 1, part 0x6400, manufacturer 0x2C7, bit 0 set (R596). -/
theorem test_idcode :
    (match step { State.reset with pending := [.idcode] } with | .next t => t.dev.resp | _ => .none) = .data 0x1640058F := by decide +kernel

/-- A command taken from the front of the queue: the rest of the queue stays (the block's step). -/
theorem test_step_takes_the_front :
    (match step { State.reset with pending := [.tapReset, .idcode] } with | .next t => t.pending | _ => []) = [.idcode] := by decide +kernel

/-- An empty queue lets one nanosecond pass (log 3). -/
theorem test_empty_queue : (match step State.reset with | .next t => t.pending | _ => [.idcode]) = [] := by decide +kernel

/-! ### WellFormed refuses -/

/-- Ill-formed terms, one for each check of `Instr.wf`, are refused (part 1). -/
theorem test_wf_refuses_1 :
    ([.powerGood (16) 0 0 true,
      .powerGood 0 (4) 0 true,
      .powerGood 0 0 (4) true,
      .warmupComplete (14) ⟨0, []⟩,
      .warmupComplete 0 ⟨0, [(0, 5)]⟩,
      .fetchOffer ⟨[], ⟨0, 0, 0, 0, 0⟩, 0⟩ 0 0 0,
      .fetchOffer ⟨zeros 16, ⟨0, 0, 0, 0, 0⟩, 0⟩ (2 ^ 32) 0 0,
      .fetchOffer ⟨zeros 16, ⟨0, 0, 0, 0, 0⟩, 0⟩ 0 (2 ^ 32) 0,
      .fetchOffer ⟨zeros 16, ⟨0, 0, 0, 0, 0⟩, 0⟩ 0 0 (2 ^ 32),
      .fetchData ⟨0, 256, 0, 0, 0⟩ [] true true true none,
      .fetchError ⟨zeros 16, ⟨0, 256, 0, 0, 0⟩, 0⟩ 0,
      .fetchError ⟨zeros 16, ⟨0, 0, 0, 0, 0⟩, 0⟩ (2 ^ 32),
      .bootDataTimeout (2 ^ 32),
      .hbmTrainingDone (256) [],
      .loaderRelease true [] (2 ^ 64),
      .startCtrlReady (.core 16) 0,
      .startCtrlReady (.core 0) (2 ^ 64),
      .pcieConfigRequest (2),
      .spIdent [] 256,
      .spStatus [] 256,
      .spClampRead [] 256,
      .spKeeperGet [] 256,
      .spKeeperSet [] 256,
      .spFlashErase [] 256,
      .spFlashWrite [] 256,
      .spFlashRead [] 256,
      .spFlashVerify [] 256,
      .overEdge (2 ^ 32) ⟨[], [], []⟩,
      .overEdge 0 ⟨[], [], [(64, .session 0)]⟩,
      .overEdge 0 ⟨[], [], [(0, .ring 256 0)]⟩] : List Instr).all (fun i => !i.wf) = true := by decide +kernel

/-- Ill-formed terms, one for each check of `Instr.wf`, are refused (part 2). -/
theorem test_wf_refuses_2 :
    ([.overEdge 0 ⟨[(64, 0)], [], []⟩,
      .sidebandAligned (2 ^ 32) 0 0 0 0,
      .sidebandAligned 0 0 (512) 0 0,
      .sidebandAligned 0 0 0 (128) 0,
      .sidebandAligned 0 0 0 0 (2 ^ 32),
      .timeAdjRate (.core 16) 0,
      .timeAdjRate (.core 0) (2 ^ 64),
      .timeAdjOffset (.core 16) 0,
      .timeAdjOffset (.core 0) (2 ^ 64),
      .timeSet (.core 16) 0,
      .timeSet (.core 0) (2 ^ 32),
      .timeNowRead (.core 16),
      .registerWrite (.core 16) 0 0 0,
      .registerWrite (.core 0) (2 ^ 32) 0 0,
      .registerWrite (.core 0) 0 0 (2 ^ 64),
      .glbCfgApply (.core 16) 0,
      .glbCfgApply (.core 0) (2 ^ 64),
      .cfgApply (.core 16) 0,
      .cfgApply (.core 0) (2 ^ 64),
      .qeCfgApply (.core 16) 0 0,
      .qeCfgApply (.core 0) (256) 0,
      .qeCfgApply (.core 0) 0 (2 ^ 64),
      .tileCfgApply (.core 16) 0 0,
      .tileCfgApply (.core 0) (64) 0,
      .tileCfgApply (.core 0) 0 (2 ^ 64),
      .umpCfgApply (.core 16) 0 0,
      .umpCfgApply (.core 0) (8) 0,
      .umpCfgApply (.core 0) 0 (2 ^ 64),
      .kvCfgApply (.core 16) 0,
      .kvCfgApply (.core 0) (2 ^ 64)] : List Instr).all (fun i => !i.wf) = true := by decide +kernel

/-- Ill-formed terms, one for each check of `Instr.wf`, are refused (part 3). -/
theorem test_wf_refuses_3 :
    ([.gfxCfgApply (.core 16) 0 0,
      .gfxCfgApply (.core 0) (4) 0,
      .gfxCfgApply (.core 0) 0 (2 ^ 64),
      .gwCfgApply (.core 16) 0 0,
      .gwCfgApply (.core 0) (4) 0,
      .gwCfgApply (.core 0) 0 (2 ^ 64),
      .ibrCfgApply (.core 16) 0,
      .ibrCfgApply (.core 0) (2 ^ 64),
      .islCfgApply (.core 16) 0,
      .islCfgApply (.core 0) (2 ^ 64),
      .ljCfgApply (.core 16) 0,
      .ljCfgApply (.core 0) (2 ^ 64),
      .kprCfgApply (.core 16) 0,
      .kprCfgApply (.core 0) (2 ^ 64),
      .stestCfgApply (.core 16) 0,
      .stestCfgApply (.core 0) (2 ^ 64),
      .wldCfgApply (.core 16) 0,
      .wldCfgApply (.core 0) (2 ^ 64),
      .pwrCfgApply (.core 16) 0,
      .pwrCfgApply (.core 0) (2 ^ 64),
      .mbxCfgApply (.core 16) 0 0,
      .mbxCfgApply (.core 0) (16) 0,
      .mbxCfgApply (.core 0) 0 (2 ^ 64),
      .ivmCfgApply (.core 16) 0,
      .ivmCfgApply (.core 0) (2 ^ 64),
      .doorbellWrite (.core 16) (.session 0) ⟨0, false⟩,
      .doorbellWrite (.core 0) (.session 16) ⟨0, false⟩,
      .doorbellWrite (.core 0) (.session 0) ⟨2 ^ 64, false⟩,
      .commandPickup (256) ⟨0, .clean, .clean⟩,
      .commandPickup 0 ⟨16, .clean, .clean⟩] : List Instr).all (fun i => !i.wf) = true := by decide +kernel

/-- Ill-formed terms, one for each check of `Instr.wf`, are refused (part 4). -/
theorem test_wf_refuses_4 :
    ([.qeCplConsWrite (.core 16) 0 0 0,
      .qeCplConsWrite (.core 0) (256) 0 0,
      .qeCplConsWrite (.core 0) 0 (16) 0,
      .qeCplConsWrite (.core 0) 0 0 (2 ^ 64),
      .runPlan 0 [.release 64],
      .runaheadDiscard (2 ^ 64),
      .teardownComplete (256),
      .schPartReset (.core 16) 0 0,
      .schPartReset (.core 0) (8) 0,
      .schPartReset (.core 0) 0 (2 ^ 64),
      .partitionResetEnd (8),
      .instancePartitionChange (256),
      .freeze (.core 16) 0,
      .freeze (.core 0) (256),
      .freezeDone (256),
      .save (.core 16) 0,
      .save (.core 0) (256),
      .saveDone (256),
      .restore (.core 16) 0,
      .restore (.core 0) (256),
      .restoreDone (256) .clean [],
      .thaw (.core 16) 0,
      .thaw (.core 0) (256),
      .discard (.core 16) 0,
      .discard (.core 0) (256),
      .kvRsvSeqChange (512),
      .bankHandover (64) 0,
      .bankHandover 0 (32),
      .scratchpadMainAccess (.core 16) 0 .read [] 0 .clean,
      .scratchpadMainAccess (.core 0) (2 ^ 64) .read [] 0 .clean] : List Instr).all (fun i => !i.wf) = true := by decide +kernel

/-- Ill-formed terms, one for each check of `Instr.wf`, are refused (part 5). -/
theorem test_wf_refuses_5 :
    ([.btestRegion (64) 0 none,
      .thermalDerate 64 0,
      .thermalDerate 0 (-32769),
      .derateRelease 64 0,
      .derateRelease 0 (-32769),
      .routerLinkFail (64) 0 [],
      .routerLinkFail 0 (5) [],
      .umpireWindow (8) 0 [],
      .umpireWindow 0 (32) [],
      .umpireWindow 0 0 [.drop 16 none],
      .hpRequest .other true (2 ^ 52) 0,
      .umpCntClear (.core 16) 0 0,
      .umpCntClear (.core 0) (8) 0,
      .umpCntClear (.core 0) 0 (2 ^ 64),
      .refresh2x (8) true,
      .islandRead (8) 0 0 0 true .clean,
      .islandRead 0 (2 ^ 64) 0 0 true .clean,
      .readTimeout (8) 0,
      .readTimeout 0 (2 ^ 64),
      .islandWrite (8) 0 [] 0 0,
      .islandWrite 0 (2 ^ 64) [] 0 0,
      .mainIslandAccess (.core 16) 0 .read [] 0 true ⟨false, []⟩ .clean,
      .mainIslandAccess (.core 0) (2 ^ 64) .read [] 0 true ⟨false, []⟩ .clean,
      .mainTimeout (.core 16) 0 .read [] 0 [],
      .mainTimeout (.core 0) (2 ^ 64) .read [] 0 [],
      .exclusiveLoad (8) 0 0 ⟨0, 0, .clean⟩,
      .exclusiveLoad 0 (2 ^ 64) 0 ⟨0, 0, .clean⟩,
      .exclusiveStore (8) 0 [],
      .exclusiveStore 0 (2 ^ 64) [],
      .lockedReadWrite (8) 0 [] ⟨0, 0, .clean⟩] : List Instr).all (fun i => !i.wf) = true := by decide +kernel

/-- Ill-formed terms, one for each check of `Instr.wf`, are refused (part 6). -/
theorem test_wf_refuses_6 :
    ([.lockedReadWrite 0 (2 ^ 64) [] ⟨0, 0, .clean⟩,
      .atomicOperation (8) 0 8 .add 0 ⟨0, 0, .clean⟩,
      .atomicOperation 0 (2 ^ 64) 8 .add 0 ⟨0, 0, .clean⟩,
      .atomicOperation 0 0 3 .add 0 ⟨0, 0, .clean⟩,
      .semaphoreClear (.core 16) 0 [],
      .semaphoreClear (.core 0) (2 ^ 64) [],
      .kprRelease (.core 16) 0,
      .kprRelease (.core 0) (2 ^ 64),
      .lockstepMismatch (2) (.checkpoint [] []) 0,
      .lockstepMismatch 0 (.checkpoint [] []) (2 ^ 64),
      .pairRestart (2),
      .keeperLoopStep (64) 0,
      .keeperLoopStep 0 (4096),
      .keeperCanReceive (4) 0 true [],
      .keeperCanReceive 0 (536870912) true [],
      .inputStale (64),
      .keeperFrameTx (64),
      .debugHalt (2) true,
      .debugRegisterWrite (2) 0 0,
      .debugRegisterWrite 0 (32) 0,
      .debugMemoryWrite (2) 0 [],
      .debugMemoryWrite 0 (2 ^ 64) [],
      .debugSingleStep (2),
      .selftestPieceDone (64) true,
      .latent (64) true true,
      .displayLatch (6),
      .displayFrameEnd (6) [],
      .cameraFrameStart (16) ⟨0, 0, []⟩,
      .cameraFrameEnd (16) ⟨0, 0, []⟩,
      .cameraFrameTimeout (16) ⟨0, 0, []⟩] : List Instr).all (fun i => !i.wf) = true := by decide +kernel

/-- Ill-formed terms, one for each check of `Instr.wf`, are refused (part 7). -/
theorem test_wf_refuses_7 :
    ([.decodeJob ⟨16, .clean⟩,
      .encodeJob ⟨16, .clean⟩,
      .codecJobDone (16) true true true true 0 [] .clean,
      .codecJobDone 0 true true true true (2 ^ 64) [] .clean,
      .frameReceive 0 [] true none 9,
      .frameReceive (18) [] true none 0,
      .frameReceive 0 [] true (some { sci := 0, an := 4, pn := 0, ok := true }) 0,
      .frameTransmit 0 [] (-9),
      .frameTransmit (18) [] 0,
      .gclEntry (64),
      .recoveryReset (65536),
      .flowCounterWrite (65536),
      .canFrameReceive (12) 0 true 0 [],
      .canFrameReceive 0 (536870912) true 0 [],
      .canFrameReceive 0 0 true (64) [],
      .busOff (12),
      .busOffRecovery (12),
      .linSlot (8),
      .linResponse (8) [] 0,
      .linResponse 0 [] (256),
      .noResponse (8),
      .rxTimeout (4096),
      .pduDue (4096) [],
      .timeCapture (4) true,
      .capPop (.core 16) 0 0,
      .capPop (.core 0) (4) 0,
      .capPop (.core 0) 0 (2 ^ 64),
      .txtsPop (.core 16) 0 0,
      .txtsPop (.core 0) (18) 0,
      .txtsPop (.core 0) 0 (2 ^ 64)] : List Instr).all (fun i => !i.wf) = true := by decide +kernel

/-- Ill-formed terms, one for each check of `Instr.wf`, are refused (part 8). -/
theorem test_wf_refuses_8 :
    ([.pulse (8),
      .gate (16),
      .wgate (16) 0 0,
      .wgate 0 (32) 0,
      .wgate 0 0 (32),
      .wret (16) 0,
      .wret 0 (32),
      .secureInterrupt (16) 0,
      .wsaveWrite (16) 0,
      .dmaStart (.core 16) 0 0,
      .dmaStart (.core 0) (16) 0,
      .dmaStart (.core 0) 0 (2 ^ 64),
      .dmaAbort (.core 16) 0 0 0,
      .dmaAbort (.core 0) (16) 0 0,
      .dmaAbort (.core 0) 0 (2 ^ 64) 0,
      .dmaDone (16) 0 .clean,
      .wdgService (.core 16) 0,
      .wdgService (.core 0) (2 ^ 64),
      .watchdogRestart (16) 0 0,
      .watchdogRestart 0 (4) 0,
      .watchdogRestart 0 0 (4),
      .voxHeartbeat (.core 16) 0,
      .voxHeartbeat (.core 0) (2 ^ 64),
      .mbxSubmit (.core 16) 0 0,
      .mbxSubmit (.core 0) (16) 0,
      .mbxSubmit (.core 0) 0 (2 ^ 64),
      .mbxResponse (16) 0,
      .mbxTimeout (16) 0,
      .pwrGet (16) 0 [],
      .pwrGet 0 0 [(0, 32768)]] : List Instr).all (fun i => !i.wf) = true := by decide +kernel

/-- Ill-formed terms, one for each check of `Instr.wf`, are refused (part 9). -/
theorem test_wf_refuses_9 :
    ([.pwrSetCap (16) 0,
      .thermSetTarget (16) 0,
      .domSet (16) 0 true,
      .domGet (16) 0,
      .oppStore (16) 0 [],
      .attest (16) 0 [],
      .domainOn (.core 16) 0 0,
      .domainOn (.core 0) (64) 0,
      .domainOn (.core 0) 0 (65536),
      .domainGate (.core 16) 0 0 true,
      .domainGate (.core 0) (64) 0 true,
      .domainGate (.core 0) 0 (65536) true,
      .domainOff (.core 16) 0 0 true,
      .domainOff (.core 0) (64) 0 true,
      .domainOff (.core 0) 0 (65536) true,
      .domainWakeDone (48),
      .thermalCrit ⟨0, [(0, 32768)]⟩,
      .portUp 0 0 0 true 0 ⟨0, 5⟩,
      .portUp (12) 0 0 true 0 ⟨0, 8⟩,
      .portUp 0 (4) 0 true 0 ⟨0, 8⟩,
      .portUp 0 0 (6) true 0 ⟨0, 8⟩,
      .portUp 0 0 0 true (65536) ⟨0, 8⟩,
      .portUp 0 0 0 true 0 ⟨4, 8⟩,
      .flitRetry ⟨12, true⟩,
      .portDown (12) [],
      .controlTransfer (16) 0 0,
      .controlTransfer 0 (2 ^ 64) 0,
      .controlTransfer 0 0 2,
      .controlTransfer 0 0 7,
      .mainFabricAccess (.core 16) 0 .read [] 0 .clean] : List Instr).all (fun i => !i.wf) = true := by decide +kernel

/-- Ill-formed terms, one for each check of `Instr.wf`, are refused (part 10). -/
theorem test_wf_refuses_10 :
    ([.mainFabricAccess (.core 0) (2 ^ 64) .read [] 0 .clean,
      .linkDown (18),
      .linkUp (18),
      .displayLinkDown (6),
      .displayLinkTrained (6),
      .cameraLinkDown (16),
      .cameraLinkUp (16),
      .fetchOffer ⟨zeros 16, ⟨0, 256, 0, 0, 0⟩, 0⟩ 0 0 0,
      .fetchError ⟨zeros 16, ⟨0, 0, 0, 0, 0⟩, 2 ^ 16⟩ 0,
      .frameReceive 0 [] true none (-9),
      .frameTransmit 0 [] 9] : List Instr).all (fun i => !i.wf) = true := by decide +kernel

/-- A frame longer than the command window is refused. -/
theorem test_wf_refuses_frames (f : List Byte) (h : f.length = 4097) :
    ([.spIdent f 1, .spStatus f 1, .spClampRead f 1, .spKeeperGet f 1, .spKeeperSet f 1, .spFlashErase f 1, .spFlashWrite f 1, .spFlashRead f 1, .spFlashVerify f 1] : List Instr).all (fun i => !i.wf) = true := by simp [Instr.wf, h]

/-- The extremes of well-formed terms are accepted. -/
theorem test_wf_accepts :
    ([.powerGood 15 3 3 true, .tileCfgApply (.core 15) 63 (2 ^ 64 - 1), .umpCfgApply .mgmt 7 1, .timeSet .mgmt (2 ^ 32 - 1),
      .bankHandover 63 31, .hpRequest .other true (2 ^ 52 - 1) 0, .idcode, .displayLinkDown 5, .busOffRecovery 11, .thermalDerate 63 (-32768),
      .controlTransfer 15 (2 ^ 64 - 1) 5] : List Instr).all (fun i => i.wf) = true := by
  decide +kernel

end Sys2Proof.Tests
end

section
/-! PROOFS. What a write to a set-up register and an apply of a staging copy do (R9, R10, R50, R78, R79, R81, R545, R568). -/

namespace Sys2Proof.Machine

/-! ### Bits and fields of a word -/

theorem bitOf_eq_getLsbD (v : W64) (k : Nat) : bitOf v k = v.getLsbD k := by
  rw [bitOf, fld, Nat.add_sub_cancel_left, Nat.pow_one, BitVec.getLsbD, Nat.testBit_eq_decide_div_mod_eq, Bool.eq_iff_iff, beq_iff_eq, decide_eq_true_iff]

theorem nbit_eq_testBit (n k : Nat) : nbit n k = n.testBit k := by
  rw [nbit, Nat.testBit_eq_decide_div_mod_eq, Bool.eq_iff_iff, beq_iff_eq, decide_eq_true_iff]

/-- A field depends on its own bits only. -/
theorem fld_congr {v w : W64} {hi lo : Nat} (h : ∀ k, lo ≤ k → k ≤ hi → v.getLsbD k = w.getLsbD k) : fld v hi lo = fld w hi lo := by
  apply Nat.eq_of_testBit_eq
  intro j
  rw [fld_testBit, fld_testBit]
  by_cases hj : j < hi + 1 - lo
  · rw [decide_eq_true hj, Bool.true_and, Bool.true_and]
    exact h (j + lo) (by omega) (by omega)
  · simp [hj]

theorem maskOf_getLsbD {hi lo k : Nat} (hk : k < 64) : (maskOf hi lo).getLsbD k = decide (lo ≤ k ∧ k ≤ hi) := by
  rw [maskOf, BitVec.getLsbD_ofNat, Nat.mul_comm, Nat.testBit_two_pow_mul, Nat.testBit_two_pow_sub_one, decide_eq_true hk, Bool.true_and,
    ← Bool.decide_and, decide_eq_decide]
  omega

/-- A word shares a bit with a field's mask exactly if one of its bits inside the field is set. -/
theorem and_maskOf_ne_zero {v : W64} {hi lo : Nat} (hw : hi < 64) : v &&& maskOf hi lo ≠ 0 ↔ ∃ k, lo ≤ k ∧ k ≤ hi ∧ bitOf v k = true := by
  have hzero : ∀ k, BitVec.getLsbD (0 : W64) k = false := fun _ => BitVec.getLsbD_zero
  constructor
  · intro hne
    apply Classical.byContradiction
    intro hn
    apply hne
    apply BitVec.eq_of_getLsbD_eq
    intro k hk
    rw [BitVec.getLsbD_and, maskOf_getLsbD hk, ← bitOf_eq_getLsbD, hzero]
    by_cases hin : lo ≤ k ∧ k ≤ hi
    · have hclear : bitOf v k = false := Bool.eq_false_iff.2 fun hb => hn ⟨k, hin.1, hin.2, hb⟩
      rw [hclear, Bool.false_and]
    · rw [decide_eq_false hin, Bool.and_false]
  · rintro ⟨k, hlo, hhi, hb⟩ hz
    have hbit : (v &&& maskOf hi lo).getLsbD k = true := by
      rw [BitVec.getLsbD_and, maskOf_getLsbD (by omega), ← bitOf_eq_getLsbD, hb, decide_eq_true ⟨hlo, hhi⟩, Bool.true_and]
    rw [hz, hzero] at hbit
    exact Bool.false_ne_true hbit

/-! ### The register table -/

theorem findLocal_mem {l : List RegDesc} {x y : Nat} {r : RegDesc} (h : findLocal l x = some (r, y)) : r ∈ l := by
  induction l with
  | nil => simp [findLocal] at h
  | cons q t ih =>
    unfold findLocal at h
    split at h
    · simp [(Prod.mk.inj (Option.some.inj h)).1]
    · split at h
      · simp [(Prod.mk.inj (Option.some.inj h)).1]
      · exact List.mem_cons_of_mem _ (ih h)

/-- A located register is one of a block of the table. -/
theorem locate_mem {off o : Nat} {r : RegDesc} (h : locate off = some (r, o)) : ∃ b ∈ blocks, r ∈ b.regs := by
  unfold locate at h
  split at h
  · simp at h
  · rename_i b hb
    obtain ⟨⟨q, y⟩, hq, heq⟩ := Option.map_eq_some_iff.1 h
    obtain ⟨rfl, -⟩ := Prod.mk.inj heq
    exact ⟨b, List.mem_of_find?_eq_some hb, findLocal_mem hq⟩

/-- In every register of the table the segments lie in the word and share no bit. -/
theorem blocks_segs_disjoint : ∀ b ∈ blocks, ∀ r ∈ b.regs, ∀ g ∈ r.segs,
    (g.lo ≤ g.hi ∧ g.hi < 64) ∧ ∀ g' ∈ r.segs, g' ≠ g → g'.hi < g.lo ∨ g.hi < g'.lo := by
  decide +kernel

theorem seg_in_word {off o : Nat} {r : RegDesc} {g : Seg} (h : locate off = some (r, o)) (hg : g ∈ r.segs) : g.lo ≤ g.hi ∧ g.hi < 64 := by
  obtain ⟨b, hb, hr⟩ := locate_mem h
  exact (blocks_segs_disjoint b hb r hr g hg).1

theorem segs_disjoint {off o : Nat} {r : RegDesc} {g g' : Seg} (h : locate off = some (r, o)) (hg : g ∈ r.segs) (hg' : g' ∈ r.segs) (hne : g' ≠ g) :
    g'.hi < g.lo ∨ g.hi < g'.lo := by
  obtain ⟨b, hb, hr⟩ := locate_mem h
  exact (blocks_segs_disjoint b hb r hr g hg).2 g' hg' hne

/-! ### The world log (R568) -/

/-- The registers a refusal that is counted and logged writes. -/
def Dev.worldLogRegs (d : Dev) : List Nat :=
  [Off.WLD_CNT_DENIED, Off.WLD_EVENTS, Off.WLD_LOG_PROD, Off.WLD_LOG_A (d.n Off.WLD_LOG_PROD % 32), Off.WLD_LOG_B (d.n Off.WLD_LOG_PROD % 32)]

/-- Counting a refusal and setting its event leave the slot of its log entry as it was. -/
theorem Dev.wldDenied_logProd (d : Dev) (event : Nat) :
    ((d.incSat Off.WLD_CNT_DENIED).setB Off.WLD_EVENTS event true).n Off.WLD_LOG_PROD = d.n Off.WLD_LOG_PROD := by
  have hev : Off.WLD_LOG_PROD ≠ Off.WLD_EVENTS := by decide
  have hcnt : Off.WLD_LOG_PROD ≠ Off.WLD_CNT_DENIED := by decide
  rw [Dev.n, Dev.setB_r, if_neg hev, Dev.incSat_r, if_neg hcnt, Dev.n]

/-- `e` is `d` but for its registers. -/
def Dev.RegsOnly (d e : Dev) : Prop := ∃ rs, e = { d with regs := rs }

theorem Dev.RegsOnly.w {d e : Dev} (h : d.RegsOnly e) (o : Nat) (v : W64) : d.RegsOnly (e.w o v) := by
  obtain ⟨rs, rfl⟩ := h
  exact ⟨_, rfl⟩

theorem Dev.wldDenied_regsOnly (d : Dev) (event kind : Nat) (m : Master) (index addr : Nat) : d.RegsOnly (d.wldDenied event kind m index addr) := by
  have hrefl : d.RegsOnly d := ⟨d.regs, rfl⟩
  exact ((((hrefl.w _ _).w _ _).w _ _).w _ _).w _ _

@[simp] theorem Dev.wldDenied_staged (d : Dev) (event kind : Nat) (m : Master) (index addr : Nat) :
    (d.wldDenied event kind m index addr).staged = d.staged := by
  obtain ⟨rs, hrs⟩ := d.wldDenied_regsOnly event kind m index addr
  rw [hrs]

/-- A refused set-up write changes registers and the answer only. -/
theorem Dev.setupDenied_eq (d : Dev) (m : Master) (off : Nat) : d.setupDenied m off = { d with regs := (d.setupDenied m off).regs, resp := .error } := by
  obtain ⟨rs, hrs⟩ := d.wldDenied_regsOnly 0 1 m (off / 0x10000) off
  unfold Dev.setupDenied
  rw [hrs]
  rfl

theorem Dev.setupDenied_r (d : Dev) (m : Master) (off o : Nat) : (d.setupDenied m off).r o = (d.wldDenied 0 1 m (off / 0x10000) off).r o := Dev.answer_r ..

theorem Dev.wldDenied_r_of_not_mem (d : Dev) (event kind : Nat) (m : Master) (index addr : Nat) {o : Nat} (h : o ∉ d.worldLogRegs) :
    (d.wldDenied event kind m index addr).r o = d.r o := by
  simp only [Dev.worldLogRegs, List.mem_cons, List.not_mem_nil, or_false, not_or] at h
  obtain ⟨hcnt, hev, hprod, ha, hb⟩ := h
  simp only [Dev.wldDenied, Dev.wldLog, Dev.wldDenied_logProd, Dev.incWrap_r, Dev.wn_r, Dev.setB_r, Dev.incSat_r, if_neg hcnt, if_neg hev, if_neg hprod,
    if_neg ha, if_neg hb]

/-- The entries of the world log lie above its count, its event and its producer index. -/
theorem ne_wldLog_entry {o : Nat} (h : o < 0xF00100) (i : Nat) : o ≠ Off.WLD_LOG_A i ∧ o ≠ Off.WLD_LOG_B i := by
  unfold Off.WLD_LOG_A Off.WLD_LOG_B
  omega

theorem Dev.wldDenied_count (d : Dev) (event kind : Nat) (m : Master) (index addr : Nat) :
    (d.wldDenied event kind m index addr).n Off.WLD_CNT_DENIED = satInc 32 (d.n Off.WLD_CNT_DENIED) := by
  have hprod : Off.WLD_CNT_DENIED ≠ Off.WLD_LOG_PROD := by decide
  have hev : Off.WLD_CNT_DENIED ≠ Off.WLD_EVENTS := by decide
  have hentry := ne_wldLog_entry (show Off.WLD_CNT_DENIED < 0xF00100 by decide)
  simp only [Dev.wldDenied, Dev.wldLog, Dev.n, Dev.incWrap_r, Dev.wn_r, Dev.setB_r, Dev.incSat_r, if_neg hprod, if_neg hev, if_neg (hentry _).1,
    if_neg (hentry _).2, if_true, BitVec.toNat_ofNat]
  unfold satInc
  omega

theorem Dev.wldDenied_event (d : Dev) (event kind : Nat) (m : Master) (index addr : Nat) (h : event < 64) :
    (d.wldDenied event kind m index addr).b Off.WLD_EVENTS event = true := by
  have hprod : Off.WLD_EVENTS ≠ Off.WLD_LOG_PROD := by decide
  have hentry := ne_wldLog_entry (show Off.WLD_EVENTS < 0xF00100 by decide)
  simp only [Dev.wldDenied, Dev.wldLog, Dev.b, Dev.incWrap_r, Dev.wn_r, Dev.setB_r, if_neg hprod, if_neg (hentry _).1, if_neg (hentry _).2, if_true]
  exact bitOf_setBit_self _ _ _ h

/-- KIND of the entry written (R568). -/
theorem Dev.wldDenied_kind (d : Dev) (event kind : Nat) (m : Master) (index addr : Nat) (h : kind < 256) :
    fld ((d.wldDenied event kind m index addr).r (Off.WLD_LOG_B (d.n Off.WLD_LOG_PROD % 32))) 7 0 = kind := by
  have hprod := fun i => (ne_wldLog_entry (show Off.WLD_LOG_PROD < 0xF00100 by decide) i).2.symm
  simp only [Dev.wldDenied, Dev.wldLog, Dev.wldDenied_logProd, Dev.incWrap_r, Dev.wn_r, if_neg (hprod _), if_true, fld, BitVec.toNat_ofNat]
  omega

/-- No register that a refusal writes is an RW register. -/
theorem Dev.not_mem_worldLogRegs_of_rw (d : Dev) {o o' : Nat} {r : RegDesc} (h : locate o = some (r, o')) (hrw : r.acc = .rw) : o ∉ d.worldLogRegs := by
  have hfixed : ∀ k ∈ [Off.WLD_CNT_DENIED, Off.WLD_EVENTS, Off.WLD_LOG_PROD], (locate k).map (fun p => p.1.acc) ≠ some .rw := by decide +kernel
  have hslots : ∀ i < 32, ∀ k ∈ [Off.WLD_LOG_A i, Off.WLD_LOG_B i], (locate k).map (fun p => p.1.acc) ≠ some .rw := by decide +kernel
  have hacc : (locate o).map (fun p => p.1.acc) = some .rw := by rw [h, Option.map_some, hrw]
  have hslot : d.n Off.WLD_LOG_PROD % 32 < 32 := Nat.mod_lt _ (by decide)
  intro hmem
  rcases List.mem_append.1 (show o ∈ [Off.WLD_CNT_DENIED, Off.WLD_EVENTS, Off.WLD_LOG_PROD] ++ _ from hmem) with hm | hm
  · exact hfixed o hm hacc
  · exact hslots _ hslot o hm hacc

/-! ### One segment of an apply -/

/-- All that the apply of one segment can leave of an apply `a`: nothing done, a report of a reserved segment, a logged refusal, or a value
in the segment's own field. -/
inductive ApplyRun.SegStep (a : ApplyRun) (off : Nat) (g : Seg) : ApplyRun → Prop
  | idle : SegStep a off g a
  | reserved (p : Report) : SegStep a off g { a with reports := p :: a.reports }
  | rejected (p : Report) : SegStep a off g { a with new := a.new.wldDenied 1 2 a.by_ (off / 0x10000) off, reports := p :: a.reports }
  | applied (v : Nat) (ps : List Report) (hl : g.legal ≠ none) (hps : a.reports ⊆ ps) :
      SegStep a off g { a with new := a.new.setF off g.hi g.lo v, reports := ps }

theorem ApplyRun.seg_step (a : ApplyRun) (late : Bool) (off : Nat) (g : Seg) : a.SegStep off g (a.seg late off g) := by
  cases hl : g.legal with
  | none =>
    simp only [ApplyRun.seg, hl]
    exact iteInduction (motive := a.SegStep off g) (fun _ => .reserved _) (fun _ => .idle)
  | some l =>
    have hps : ∀ (v x : Nat) (p : Report), a.reports ⊆ if v = x then a.reports else p :: a.reports := fun v x p =>
      iteInduction (motive := (a.reports ⊆ ·)) (fun _ => List.Subset.refl _) (fun _ => List.subset_cons_self ..)
    simp only [ApplyRun.seg, hl]
    refine iteInduction (motive := a.SegStep off g) (fun _ => .idle) fun _ => ?_
    refine iteInduction (motive := a.SegStep off g) (fun _ => .rejected _) fun _ => ?_
    refine iteInduction (motive := a.SegStep off g) (fun _ => ?_) fun _ => .idle
    exact .applied _ _ (by simp [hl]) (hps ..)

theorem ApplyRun.SegStep.reports_subset {a b : ApplyRun} {off : Nat} {g : Seg} (h : a.SegStep off g b) : a.reports ⊆ b.reports := by
  cases h with
  | idle => exact List.Subset.refl _
  | reserved | rejected => exact List.subset_cons_self ..
  | applied v ps hl hps => exact hps

/-- The apply so far began from `d` and has not touched its staging copies. -/
def ApplyRun.From (d : Dev) (a : ApplyRun) : Prop := a.old = d ∧ a.new.staged = d.staged

theorem ApplyRun.SegStep.keeps_from {a b : ApplyRun} {off : Nat} {g : Seg} (h : a.SegStep off g b) {d : Dev} (ha : a.From d) : b.From d := by
  obtain ⟨hold, hstaged⟩ := ha
  cases h with
  | idle | reserved => exact ⟨hold, hstaged⟩
  | rejected => exact ⟨hold, (a.new.wldDenied_staged ..).trans hstaged⟩
  | applied => exact ⟨hold, (a.new.setF_staged ..).trans hstaged⟩

/-- A field of an RW register outlives the apply of every segment of another register, of another segment of its own, and of a reserved segment. -/
theorem ApplyRun.SegStep.keeps_field {a b : ApplyRun} {o o' off : Nat} {r : RegDesc} {g g' : Seg} (h : a.SegStep off g' b)
    (ho : locate o = some (r, o')) (hrw : r.acc = .rw) (hw : g'.lo ≤ g'.hi ∧ g'.hi < 64) (hother : off ≠ o ∨ (g'.hi < g.lo ∨ g.hi < g'.lo) ∨ g'.legal = none) :
    b.new.f o g.hi g.lo = a.new.f o g.hi g.lo := by
  cases h with
  | idle | reserved => rfl
  | rejected => exact congrArg (fld · g.hi g.lo) (a.new.wldDenied_r_of_not_mem _ _ _ _ _ (a.new.not_mem_worldLogRegs_of_rw ho hrw))
  | applied v ps hl =>
    unfold Dev.f
    rw [Dev.setF_r]
    split
    · subst o
      rcases hother with hne | hdis | hnone
      · exact absurd rfl hne
      · exact fld_setFld_ne _ _ _ _ _ _ hw.1 hw.2 (by omega)
      · exact absurd hnone hl
    · rfl

/-- What a field of fixed legal values takes for a value written (R79); `none` where the legal values depend on other state. -/
def Legal.fixedValue : Legal → Nat → Option Nat
  | .any, x => some x
  | .range lo hi step, x => some (nearest lo hi step x)
  | .codes mx repl also, x => some (if x ≤ mx ∨ x = also then x else repl)
  | .locked .., _ => none
  | .dep _, _ => none

/-- `fixedValue` is what `legalize` gives, whatever the block holds. -/
theorem legalize_of_fixedValue {l : Legal} {x v : Nat} (h : l.fixedValue x = some v) (c : Applying) (off old : Nat) : legalize l c off x old = v := by
  cases l with
  | any => simpa [Legal.fixedValue, legalize] using h
  | range lo hi step => simpa [Legal.fixedValue, legalize] using h
  | codes mx repl also => simpa [Legal.fixedValue, legalize] using h
  | locked lockOff selfOff bit => simp [Legal.fixedValue] at h
  | dep x => simp [Legal.fixedValue] at h

/-- Every bit of the field `g` of the staging copy `st` of the register at `o` was written, and by the secure world. -/
def Dev.StagedSecure (d : Dev) (o : Nat) (g : Seg) (st : Staged) : Prop :=
  KMap.find d.staged o = some st ∧ ∀ k, g.lo ≤ k → k ≤ g.hi → bitOf st.written k = true ∧ bitOf st.normal k = false

/-- The value to apply is the value staged where every bit of the field was written. -/
theorem Dev.StagedSecure.raw {d : Dev} {o : Nat} {g : Seg} {st : Staged} (h : d.StagedSecure o g st) : fld (d.stagedRaw o) g.hi g.lo = fld st.value g.hi g.lo := by
  obtain ⟨hst, hbits⟩ := h
  apply fld_congr
  intro k hlo hhi
  have hwritten : st.written.getLsbD k = true := by rw [← bitOf_eq_getLsbD, (hbits k hlo hhi).1]
  simp [Dev.stagedRaw, hst, hwritten]

theorem Dev.StagedSecure.written {d : Dev} {o : Nat} {g : Seg} {st : Staged} (h : d.StagedSecure o g st) (hw : g.lo ≤ g.hi ∧ g.hi < 64) :
    decide (st.written &&& maskOf g.hi g.lo ≠ 0) = true :=
  decide_eq_true ((and_maskOf_ne_zero hw.2).2 ⟨g.lo, Nat.le_refl _, hw.1, (h.2 g.lo (Nat.le_refl _) hw.1).1⟩)

theorem Dev.StagedSecure.not_normal {d : Dev} {o : Nat} {g : Seg} {st : Staged} (h : d.StagedSecure o g st) (hw : g.lo ≤ g.hi ∧ g.hi < 64) :
    decide (st.normal &&& maskOf g.hi g.lo ≠ 0) = false := by
  rw [decide_eq_false_iff_not, and_maskOf_ne_zero hw.2]
  rintro ⟨k, hlo, hhi, hb⟩
  simp [(h.2 k hlo hhi).2] at hb

theorem Dev.StagedSecure.getD {d : Dev} {o : Nat} {g : Seg} {st : Staged} (h : d.StagedSecure o g st) (dflt : Staged) : KMap.getD d.staged o dflt = st := by
  rw [KMap.getD, h.1, Option.getD_some]

section
variable {d : Dev} {a : ApplyRun} {o : Nat} {g : Seg} {st : Staged} (hfrom : a.From d) (hst : d.StagedSecure o g st) (hw : g.lo ≤ g.hi ∧ g.hi < 64)
include hfrom hst hw

/-- In the first pass a field of fixed legal values takes the value they allow. -/
theorem ApplyRun.seg_new_of_fixedValue {l : Legal} {v : Nat} (hl : g.legal = some l) (hv : l.fixedValue (fld st.value g.hi g.lo) = some v) :
    (a.seg false o g).new = a.new.setF o g.hi g.lo v := by
  obtain ⟨rfl, -⟩ := hfrom
  cases l with
  | any | range | codes =>
    simp only [ApplyRun.seg, hl, segRaw, hst.getD, hst.written hw, hst.not_normal hw, hst.raw, legalize_of_fixedValue hv, bne_self_eq_false, Bool.and_false,
      Bool.false_and, Bool.true_or, Bool.false_eq_true, if_true, if_false]
  | locked | dep => simp [Legal.fixedValue] at hv

/-- In the first pass a non-zero value written to a reserved field is reported (R81). -/
theorem ApplyRun.seg_reports_reserved (hl : g.legal = none) (hx : fld st.value g.hi g.lo ≠ 0) :
    { off := o, lsb := g.lo, width := g.hi + 1 - g.lo, rejected := false, reserved := true, written := fld st.value g.hi g.lo, applied := 0 } ∈
      (a.seg false o g).reports := by
  obtain ⟨rfl, -⟩ := hfrom
  simp only [ApplyRun.seg, hl, hst.getD, hst.written hw, hst.raw, bne_iff_ne.2 hx, Bool.not_false, Bool.and_true, if_true]
  exact List.mem_cons_self
end

/-- In the second pass a field of fixed legal values is left alone. -/
theorem ApplyRun.seg_late_of_fixedValue (a : ApplyRun) (o : Nat) {g : Seg} {l : Legal} {x v : Nat} (hl : g.legal = some l) (hv : l.fixedValue x = some v) :
    a.seg true o g = a := by
  cases l with
  | any | range | codes => simp [ApplyRun.seg, hl]
  | locked | dep => simp [Legal.fixedValue] at hv

/-! ### The two passes of an apply -/

/-- What every step of a fold keeps holds after it; what one element brings about and every step keeps holds after it too. -/
theorem foldl_reaches {α β : Type} {f : β → α → β} {I Q : β → Prop} {l : List α} {x : α} (hx : x ∈ l) (keepI : ∀ b, ∀ y ∈ l, I b → I (f b y))
    (keepQ : ∀ b, ∀ y ∈ l, I b → Q b → Q (f b y)) (hit : ∀ b, I b → Q (f b x)) {b : β} (hI : I b) : Q (l.foldl f b) := by
  obtain ⟨s, t, rfl⟩ := List.append_of_mem hx
  rw [List.foldl_append, List.foldl_cons]
  have hs : I (s.foldl f b) := List.foldlRecOn s f hI fun c hc y hy => keepI c y (List.mem_append_left _ hy) hc
  have hall : I (t.foldl f (f (s.foldl f b) x)) ∧ Q (t.foldl f (f (s.foldl f b) x)) :=
    List.foldlRecOn (motive := fun c => I c ∧ Q c) t f ⟨keepI _ x hx hs, hit _ hs⟩ fun c hc y hy =>
      have hy' : y ∈ s ++ x :: t := List.mem_append_right _ (List.mem_cons_of_mem _ hy)
      ⟨keepI c y hy' hc.1, keepQ c y hy' hc.1 hc.2⟩
  exact hall.2

/-- The apply of every segment of an RW register keeps `P`, in the pass that `late` names. -/
def ApplyRun.Kept (P : ApplyRun → Prop) (late : Bool) : Prop :=
  ∀ a off r o' g, locate off = some (r, o') → r.acc = .rw → g ∈ r.segs → P a → P (a.seg late off g)

theorem ApplyRun.Kept.reg {P : ApplyRun → Prop} {late : Bool} (h : ApplyRun.Kept P late) {a : ApplyRun} (ha : P a) (off : Nat) : P (a.reg late off) := by
  unfold ApplyRun.reg
  split
  · exact ha
  · rename_i r o' hloc
    split
    · rename_i hrw
      exact List.foldlRecOn r.segs _ ha fun b hb g hg => h b off r o' g hloc hrw hg hb
    · exact ha

/-- The registers of a list, in one pass. -/
def ApplyRun.pass (a : ApplyRun) (late : Bool) (l : List Nat) : ApplyRun := l.foldl (fun b o => b.reg late o) a

theorem ApplyRun.Kept.pass {P : ApplyRun → Prop} {late : Bool} (h : ApplyRun.Kept P late) {a : ApplyRun} (ha : P a) (l : List Nat) : P (a.pass late l) :=
  List.foldlRecOn l _ ha fun _ hb o _ => h.reg hb o

/-- What one segment of a listed RW register brings about, and every segment keeps, holds after the pass. -/
theorem ApplyRun.pass_reaches {I Q : ApplyRun → Prop} {late : Bool} {l : List Nat} {o o' : Nat} {r : RegDesc} {g : Seg} (ho : o ∈ l)
    (hloc : locate o = some (r, o')) (hrw : r.acc = .rw) (hg : g ∈ r.segs) (keepI : ApplyRun.Kept I late)
    (keepQ : ApplyRun.Kept (fun a => I a ∧ Q a) late) (hit : ∀ a, I a → Q (a.seg late o g)) {a : ApplyRun} (hI : I a) : Q (a.pass late l) := by
  refine foldl_reaches (I := I) ho (fun b y _ hb => keepI.reg hb y) (fun b y _ hb hq => (keepQ.reg ⟨hb, hq⟩ y).2) (fun b hb => ?_) hI
  simp only [ApplyRun.reg, hloc, hrw, if_true]
  exact foldl_reaches (I := I) hg (fun c y hy hc => keepI c o r o' y hloc hrw hy hc) (fun c y hy hc hq => (keepQ c o r o' y hloc hrw hy ⟨hc, hq⟩).2) hit hb

/-- An apply before its first segment. -/
def Dev.applyStart (d : Dev) (m : Master) : ApplyRun := { by_ := m, old := d, new := d, reports := [] }

/-- An apply after both passes over its registers. -/
def Dev.applyRun (d : Dev) (m : Master) (lo hi : Nat) : ApplyRun := ((d.applyStart m).pass false (d.applyList lo hi)).pass true (d.applyList lo hi)

theorem Dev.applyRange_eq (d : Dev) (m : Master) (lo hi : Nat) :
    d.applyRange m lo hi = ({ (d.applyRun m lo hi).new with staged := (d.applyRun m lo hi).new.staged.filter (fun p => decide (p.1 < lo) || decide (hi ≤ p.1)) },
      (d.applyRun m lo hi).reports.reverse) := rfl

theorem Dev.applyRange_f (d : Dev) (m : Master) (lo hi o h l : Nat) : (d.applyRange m lo hi).1.f o h l = (d.applyRun m lo hi).new.f o h l := rfl

theorem Dev.applyStart_from (d : Dev) (m : Master) : (d.applyStart m).From d := ⟨rfl, rfl⟩

theorem ApplyRun.kept_from (d : Dev) (late : Bool) : ApplyRun.Kept (·.From d) late := fun a off _ _ g _ _ _ ha => (a.seg_step late off g).keeps_from ha

theorem Dev.applyRun_from (d : Dev) (m : Master) (lo hi : Nat) : (d.applyRun m lo hi).From d :=
  (ApplyRun.kept_from d true).pass ((ApplyRun.kept_from d false).pass (d.applyStart_from m) _) _

/-- The staging copies of the block are consumed and no other is (R78). -/
theorem Dev.applyRange_staged (d : Dev) (m : Master) (lo hi k : Nat) :
    KMap.find (d.applyRange m lo hi).1.staged k = if k < lo ∨ hi ≤ k then KMap.find d.staged k else none := by
  rw [d.applyRange_eq]
  dsimp only
  rw [(d.applyRun_from m lo hi).2, KMap.find_filter d.staged (fun i => decide (i < lo) || decide (hi ≤ i))]
  simp

theorem KMap.mem_of_find {α : Type} {m : KMap α} {k : Nat} {v : α} (h : KMap.find m k = some v) : (k, v) ∈ m := by
  induction m with
  | nil => simp [KMap.find] at h
  | cons p t ih =>
    obtain ⟨j, w⟩ := p
    unfold KMap.find at h
    split at h
    · simp [‹j = k›, Option.some.inj h]
    · exact List.mem_cons_of_mem _ (ih h)

/-- Every key put into a map from a list is a key of it. -/
theorem KMap.foldl_put_isSome {l : List Nat} {k : Nat} (hk : k ∈ l) (m : KMap Unit) : (KMap.find (l.foldl (fun n o => KMap.put n o ()) m) k).isSome = true := by
  refine foldl_reaches (I := fun _ => True) (Q := fun n => (KMap.find n k).isSome = true) hk (fun _ _ _ _ => trivial) (fun n y _ _ hn => ?_) (fun n _ => ?_) trivial
  · rw [KMap.find_put]
    split
    · rfl
    · exact hn
  · rw [KMap.find_put_self]; rfl

/-- A register of the block whose staging copy was written is one the apply looks at. -/
theorem Dev.mem_applyList {d : Dev} {lo hi o : Nat} {st : Staged} (hlo : lo ≤ o) (hhi : o < hi) (hst : KMap.find d.staged o = some st) :
    o ∈ d.applyList lo hi := by
  have hwritten : o ∈ (d.staged.map (fun p => p.1)).filter (fun o => decide (lo ≤ o) && decide (o < hi)) :=
    List.mem_filter.2 ⟨List.mem_map.2 ⟨(o, st), KMap.mem_of_find hst, rfl⟩, by simp [hlo, hhi]⟩
  obtain ⟨u, hu⟩ := Option.isSome_iff_exists.1 (KMap.foldl_put_isSome (List.mem_append_left _ hwritten) [])
  exact List.mem_map.2 ⟨(o, u), KMap.mem_of_find hu, rfl⟩

/-! ### What an apply leaves in a field -/

section
variable {d : Dev} {m : Master} {lo hi o : Nat} {r : RegDesc} {g : Seg} {st : Staged} (hlo : lo ≤ o) (hhi : o < hi) (hloc : locate o = some (r, o))
  (hrw : r.acc = .rw) (hg : g ∈ r.segs) (hst : d.StagedSecure o g st)

include hloc hrw hg

/-- A value in a field outlives every segment but the field's own. -/
theorem ApplyRun.kept_field {late : Bool} {v : Nat} {I : ApplyRun → Prop} (hI : ApplyRun.Kept I late)
    (hown : ∀ a, I a → a.new.f o g.hi g.lo = v → (a.seg late o g).new.f o g.hi g.lo = v) :
    ApplyRun.Kept (fun a => I a ∧ a.new.f o g.hi g.lo = v) late := by
  rintro a off r' o' g' hloc' hrw' hg' ⟨ha, hv⟩
  refine ⟨hI a off r' o' g' hloc' hrw' hg' ha, ?_⟩
  by_cases hoff : off = o
  · subst hoff
    obtain ⟨rfl, -⟩ := Prod.mk.inj (Option.some.inj (hloc'.symm.trans hloc))
    by_cases hseg : g' = g
    · subst hseg
      exact hown a ha hv
    · rw [(a.seg_step late off g').keeps_field hloc hrw (seg_in_word hloc hg') (.inr (.inl (segs_disjoint hloc hg hg' hseg))), hv]
  · rw [(a.seg_step late off g').keeps_field hloc hrw (seg_in_word hloc' hg') (.inl hoff), hv]

/-- A reserved field reads as before the apply (R10). -/
theorem Dev.applyRange_reserved (hl : g.legal = none) : (d.applyRange m lo hi).1.f o g.hi g.lo = d.f o g.hi g.lo := by
  have hkept : ∀ late, ApplyRun.Kept (fun a => a.From d ∧ a.new.f o g.hi g.lo = d.f o g.hi g.lo) late := fun late =>
    ApplyRun.kept_field hloc hrw hg (ApplyRun.kept_from d late) fun a _ hv => by
      rw [(a.seg_step late o g).keeps_field hloc hrw (seg_in_word hloc hg) (.inr (.inr hl)), hv]
  rw [d.applyRange_f]
  exact ((hkept true).pass ((hkept false).pass ⟨d.applyStart_from m, rfl⟩ _) _).2

include hlo hhi hst

/-- A field of fixed legal values, staged by the secure world, takes the value they allow (R79). -/
theorem Dev.applyRange_fixedValue {l : Legal} {v : Nat} (hl : g.legal = some l) (hv : l.fixedValue (fld st.value g.hi g.lo) = some v) :
    (d.applyRange m lo hi).1.f o g.hi g.lo = v % 2 ^ (g.hi + 1 - g.lo) := by
  have hw := seg_in_word hloc hg
  have hit : ∀ a : ApplyRun, a.From d → (a.seg false o g).new.f o g.hi g.lo = v % 2 ^ (g.hi + 1 - g.lo) := fun a ha => by
    rw [ApplyRun.seg_new_of_fixedValue ha hst hw hl hv, Dev.f, Dev.setF_r, if_pos rfl, fld_setFld_self _ _ _ _ hw.1 hw.2]
  have hfirst : ((d.applyStart m).pass false (d.applyList lo hi)).new.f o g.hi g.lo = v % 2 ^ (g.hi + 1 - g.lo) :=
    ApplyRun.pass_reaches (I := (·.From d)) (Q := fun a => a.new.f o g.hi g.lo = v % 2 ^ (g.hi + 1 - g.lo)) (Dev.mem_applyList hlo hhi hst.1) hloc hrw hg
      (ApplyRun.kept_from d false) (ApplyRun.kept_field hloc hrw hg (ApplyRun.kept_from d false) fun a ha _ => hit a ha) hit (d.applyStart_from m)
  have hsecond : ApplyRun.Kept (fun a => True ∧ a.new.f o g.hi g.lo = v % 2 ^ (g.hi + 1 - g.lo)) true :=
    ApplyRun.kept_field hloc hrw hg (fun _ _ _ _ _ _ _ _ _ => trivial) fun a _ ha => by rw [a.seg_late_of_fixedValue o hl hv, ha]
  rw [d.applyRange_f]
  exact (hsecond.pass ⟨trivial, hfirst⟩ _).2

/-- A non-zero value written to a reserved field is reported (R81). -/
theorem Dev.applyRange_reports_reserved (hl : g.legal = none) (hx : fld st.value g.hi g.lo ≠ 0) :
    { off := o, lsb := g.lo, width := g.hi + 1 - g.lo, rejected := false, reserved := true, written := fld st.value g.hi g.lo, applied := 0 } ∈
      (d.applyRange m lo hi).2 := by
  have hkept : ∀ (p : Report) late, ApplyRun.Kept (p ∈ ·.reports) late := fun p late a off _ _ g' _ _ _ hp => (a.seg_step late off g').reports_subset hp
  rw [d.applyRange_eq, List.mem_reverse]
  refine (hkept _ true).pass ?_ _
  exact ApplyRun.pass_reaches (I := (·.From d)) (Dev.mem_applyList hlo hhi hst.1) hloc hrw hg (ApplyRun.kept_from d false)
    (fun a off r' o' g' hloc' hrw' hg' ha =>
      ⟨ApplyRun.kept_from d false a off r' o' g' hloc' hrw' hg' ha.1, hkept _ false a off r' o' g' hloc' hrw' hg' ha.2⟩)
    (fun a ha => ApplyRun.seg_reports_reserved ha hst (seg_in_word hloc hg) hl hx) (d.applyStart_from m)
end

/-- Settles O16: an invariant of the two passes, which holds from the field's own segment on, as no other segment shares a bit with it. -/
theorem applyChecksEachField : Obligations.ApplyChecksEachField := by
  intro d m lo hi o r g st hlo hhi hloc hrw hg hfind hbits
  have hst : d.StagedSecure o g st := ⟨hfind, hbits⟩
  have hcut : fld st.value g.hi g.lo % 2 ^ (g.hi + 1 - g.lo) = fld st.value g.hi g.lo := Nat.mod_eq_of_lt (fld_lt ..)
  refine ⟨fun hl => ?_, fun a b step hl => ?_, fun mx repl also hl => ?_, fun hl => ⟨?_, fun hx => ?_⟩, fun k hklo hkhi => ?_, fun k hk => ?_⟩
  · rw [Dev.applyRange_fixedValue hlo hhi hloc hrw hg hst hl rfl, hcut]
  · exact Dev.applyRange_fixedValue hlo hhi hloc hrw hg hst hl rfl
  · rw [Dev.applyRange_fixedValue hlo hhi hloc hrw hg hst hl rfl, apply_ite (· % 2 ^ (g.hi + 1 - g.lo)), hcut]
  · exact Dev.applyRange_reserved hloc hrw hg hl
  · exact ⟨_, Dev.applyRange_reports_reserved hlo hhi hloc hrw hg hst hl hx, rfl, rfl, rfl, rfl, rfl, rfl⟩
  · rw [Dev.applyRange_staged, if_neg (by omega)]
  · rw [Dev.applyRange_staged, if_pos hk]

/-! ### A write to a set-up register -/

theorem exec_registerWrite (m : Master) (off size value : Nat) (s : State) : exec (.registerWrite m off size value) s = s.setupWrite m off size value := rfl

theorem exec_registerWrite_refused {s : State} {m : Master} {off size value : Nat} {d : Dev} (h : s.dev.setupRefused m off size = some d) :
    exec (.registerWrite m off size value) s = .next { s with dev := d } := by
  rw [exec_registerWrite, State.setupWrite, h]

/-- REGISTER_WRITE of a word that no rule refuses and that lies outside the mailbox block's memory takes effect on the register there. -/
theorem exec_registerWrite_admitted {s : State} {m : Master} {off value : Nat} (hadm : s.dev.setupRefused m off 4 = none) (hbox : s.dev.mbxByte off = none) :
    exec (.registerWrite m off 4 value) s = andThen (s.writeParts m (wordPart off value)) (fun t => .next (t.onDev (fun d => d.answer .ok))) := by
  rw [exec_registerWrite, State.setupWrite, hadm]
  simp [hbox, regParts]

/-- A word written at the offset of a register that is not WO. -/
theorem exec_registerWrite_register {s : State} {m : Master} {off value : Nat} {r : RegDesc} (hadm : s.dev.setupRefused m off 4 = none)
    (hbox : s.dev.mbxByte off = none) (hloc : locate off = some (r, off)) (hacc : r.acc ≠ .wo) :
    exec (.registerWrite m off 4 value) s =
      .next ((s.plainWrite m ⟨r, off, BitVec.ofNat 64 (value % 2 ^ 32), maskOf 31 0⟩).onDev (fun d => d.answer .ok)) := by
  rw [exec_registerWrite_admitted hadm hbox]
  simp [wordPart, hloc, State.writeParts, hacc, andThen]

theorem State.plainWrite_rw (s : State) (m : Master) {p : RegPart} (h : p.reg.acc = .rw) :
    s.plainWrite m p = s.onDev (fun d => d.stageBits (s.dev.world m) p.off p.value p.mask) := by
  simp only [State.plainWrite, h]
  rfl

theorem State.plainWrite_ro (s : State) (m : Master) {p : RegPart} (h : p.reg.acc = .ro) : s.plainWrite m p = s := by
  simp only [State.plainWrite, h]

/-- Only PWR_EVENTS has a bit that a W1C write may not clear (R566). -/
theorem State.plainWrite_w1c (s : State) (m : Master) {p : RegPart} (h : p.reg.acc = .w1c) (hne : p.off ≠ Off.PWR_EVENTS) :
    s.plainWrite m p = s.onDev (fun d => d.w1c p.off (p.value &&& p.mask)) := by
  simp [State.plainWrite, h, Dev.w1cWrite, hne]

/-- The staging copy after a write of the bits of a mask (R78, R546). -/
theorem Dev.stageBits_find (d : Dev) (w : Bool) (off : Nat) (value mask : W64) : ∃ x o : Staged,
    KMap.find (d.stageBits w off value mask).staged off = some x ∧ x.value = (o.value &&& ~~~mask) ||| (value &&& mask) ∧
      x.written = o.written ||| mask ∧ x.normal = (if w then o.normal &&& ~~~mask else o.normal ||| mask) :=
  ⟨_, _, KMap.find_put_self .., rfl, rfl, rfl⟩

theorem Dev.stageBits_find_ne (d : Dev) (w : Bool) {off o : Nat} (value mask : W64) (h : o ≠ off) :
    KMap.find (d.stageBits w off value mask).staged o = KMap.find d.staged o := KMap.find_put_ne _ _ _ _ h

theorem maskOf_low_getLsbD {k : Nat} (hk : k ≤ 31) : (maskOf 31 0).getLsbD k = true := by
  rw [maskOf_getLsbD (by omega)]
  exact decide_eq_true ⟨Nat.zero_le k, hk⟩

/-- A word's low half where a mask of the low half selects another word. -/
theorem fld_select_low (u : W64) (n : Nat) : fld ((u &&& ~~~(maskOf 31 0)) ||| (BitVec.ofNat 64 (n % 2 ^ 32) &&& maskOf 31 0)) 31 0 = n % 2 ^ 32 := by
  have hsel : fld ((u &&& ~~~(maskOf 31 0)) ||| (BitVec.ofNat 64 (n % 2 ^ 32) &&& maskOf 31 0)) 31 0 = fld (BitVec.ofNat 64 (n % 2 ^ 32)) 31 0 :=
    fld_congr fun k _ hk => by simp only [BitVec.getLsbD_or, BitVec.getLsbD_and, BitVec.getLsbD_not, maskOf_low_getLsbD hk]; simp
  rw [hsel, fld, BitVec.toNat_ofNat]
  omega

theorem fld_or_maskOf_low (u : W64) : fld (u ||| maskOf 31 0) 31 0 = 2 ^ 32 - 1 := by
  have hones : fld (u ||| maskOf 31 0) 31 0 = fld (maskOf 31 0) 31 0 :=
    fld_congr fun k _ hk => by rw [BitVec.getLsbD_or, maskOf_low_getLsbD hk, Bool.or_true]
  rw [hones]
  decide

theorem fld_and_not_maskOf_low (u : W64) : fld (u &&& ~~~(maskOf 31 0)) 31 0 = 0 := by
  have hzero : fld (u &&& ~~~(maskOf 31 0)) 31 0 = fld 0 31 0 :=
    fld_congr fun k _ hk => by rw [BitVec.getLsbD_and, BitVec.getLsbD_not, maskOf_low_getLsbD hk]; simp
  rw [hzero]
  decide

/-- A 1 written to a bit of a W1C register's low half clears it, and nothing else (R9). -/
theorem Dev.w1c_b (d : Dev) (off value : Nat) {k : Nat} (hk : k < 64) :
    (d.w1c off (BitVec.ofNat 64 (value % 2 ^ 32) &&& maskOf 31 0)).b off k = (d.b off k && !(nbit value k && decide (k < 32))) := by
  rw [Dev.b, Dev.b, Dev.w1c, Dev.w_r, if_pos rfl, bitOf_eq_getLsbD, bitOf_eq_getLsbD, BitVec.getLsbD_and, BitVec.getLsbD_not, BitVec.getLsbD_and,
    maskOf_getLsbD hk, BitVec.getLsbD_ofNat, Nat.testBit_mod_two_pow, nbit_eq_testBit]
  by_cases hlow : k < 32
  · simp [hk, hlow, show k ≤ 31 by omega]
  · simp [hk, hlow]

/-- A write that the page refuses for the writer's world (R545). -/
theorem Dev.setupRefused_of_denied {d : Dev} {m : Master} {off : Nat} (hruns : d.masterRuns m = true) (hthere : d.setupThere off = true) (hform : off % 4 = 0)
    (hdenied : d.setupAdmits m off = false) : d.setupRefused m off 4 = some (d.setupDenied m off) := by
  simp [Dev.setupRefused, hruns, hthere, setupForm, hform, hdenied]

section
variable {s : State} {m : Master} {off : Nat} (value : Nat) {r : RegDesc}

/-- An admitted word written to an RW register changes that register's staging copy only (R78, R546). -/
theorem registerWrite_rw (hadm : s.dev.setupRefused m off 4 = none) (hbox : s.dev.mbxByte off = none) (hloc : locate off = some (r, off)) (hrw : r.acc = .rw) :
    ∃ t x, exec (.registerWrite m off 4 value) s = .next t ∧ t = { s with dev := { s.dev with staged := t.dev.staged, resp := .ok } } ∧
      KMap.find t.dev.staged off = some x ∧ fld x.value 31 0 = value % 2 ^ 32 ∧ fld x.written 31 0 = 2 ^ 32 - 1 ∧
      fld x.normal 31 0 = (if s.dev.world m = true then 0 else 2 ^ 32 - 1) ∧ ∀ o, o ≠ off → KMap.find t.dev.staged o = KMap.find s.dev.staged o := by
  obtain ⟨x, o, hfind, hvalue, hwritten, hnormal⟩ := s.dev.stageBits_find (s.dev.world m) off (BitVec.ofNat 64 (value % 2 ^ 32)) (maskOf 31 0)
  have hexec := exec_registerWrite_register (value := value) hadm hbox hloc (by simp [hrw])
  rw [State.plainWrite_rw s m hrw] at hexec
  refine ⟨_, x, hexec, rfl, hfind, ?_, ?_, ?_, fun k hk => s.dev.stageBits_find_ne _ _ _ hk⟩
  · rw [hvalue, fld_select_low]
  · rw [hwritten, fld_or_maskOf_low]
  · rw [hnormal]
    split
    · exact fld_and_not_maskOf_low _
    · exact fld_or_maskOf_low _

/-- A word written where no register or an RO register is changes nothing (R9, R50). -/
theorem registerWrite_ignored (hadm : s.dev.setupRefused m off 4 = none) (hbox : s.dev.mbxByte off = none)
    (hloc : locate off = none ∨ ∃ r, locate off = some (r, off) ∧ r.acc = .ro) :
    exec (.registerWrite m off 4 value) s = .next { s with dev := { s.dev with resp := .ok } } := by
  rcases hloc with hnone | ⟨r, hloc, hro⟩
  · rw [exec_registerWrite_admitted hadm hbox]
    simp only [wordPart, hnone, State.writeParts, andThen]
    rfl
  · rw [exec_registerWrite_register hadm hbox hloc (by simp [hro]), State.plainWrite_ro s m hro]
    rfl

/-- A word written to a W1C register clears the bits written as 1, and changes no other register (R9). -/
theorem registerWrite_w1c (hadm : s.dev.setupRefused m off 4 = none) (hbox : s.dev.mbxByte off = none) (hloc : locate off = some (r, off)) (hacc : r.acc = .w1c)
    (hne : off ≠ Off.PWR_EVENTS) :
    ∃ t, exec (.registerWrite m off 4 value) s = .next t ∧ t = { s with dev := { s.dev with regs := t.dev.regs, resp := .ok } } ∧ RegsSameBut s t [off] ∧
      ∀ k, k < 64 → t.dev.b off k = (s.dev.b off k && !(nbit value k && decide (k < 32))) := by
  have hexec := exec_registerWrite_register (value := value) hadm hbox hloc (by simp [hacc])
  rw [State.plainWrite_w1c s m hacc hne] at hexec
  refine ⟨_, hexec, rfl, fun k hk => ?_, fun k hk => s.dev.w1c_b off value hk⟩
  have hko : k ≠ off := fun h => hk (List.mem_singleton.2 h)
  simp [Dev.w1c, hko]

/-- A word that the page refuses for the writer's world is answered with an error, counted and logged, and changes no other register (R545, R568). -/
theorem registerWrite_denied (hruns : s.dev.masterRuns m = true) (hthere : s.dev.setupThere off = true) (hform : off % 4 = 0)
    (hdenied : s.dev.setupAdmits m off = false) :
    ∃ t, exec (.registerWrite m off 4 value) s = .next t ∧ t = { s with dev := { s.dev with regs := t.dev.regs, resp := .error } } ∧
      t.dev.n Off.WLD_CNT_DENIED = satInc 32 (s.dev.n Off.WLD_CNT_DENIED) ∧ t.dev.b Off.WLD_EVENTS 0 = true ∧
      fld (t.dev.r (Off.WLD_LOG_B (s.dev.n Off.WLD_LOG_PROD % 32))) 7 0 = 1 ∧ RegsSameBut s t s.dev.worldLogRegs := by
  refine ⟨{ s with dev := s.dev.setupDenied m off }, exec_registerWrite_refused (Dev.setupRefused_of_denied hruns hthere hform hdenied), ?_, ?_, ?_, ?_,
    fun k hk => ?_⟩
  · exact congrArg (fun d => ({ s with dev := d } : State)) (s.dev.setupDenied_eq m off)
  · rw [Dev.n, Dev.setupDenied_r, ← Dev.n, Dev.wldDenied_count]
  · rw [Dev.b, Dev.setupDenied_r, ← Dev.b, Dev.wldDenied_event _ _ _ _ _ _ (by decide)]
  · rw [Dev.setupDenied_r, Dev.wldDenied_kind _ _ _ _ _ _ (by decide)]
  · rw [Dev.setupDenied_r, Dev.wldDenied_r_of_not_mem _ _ _ _ _ _ hk]
end

/-- Settles O14, by the access type of the register written. -/
theorem registerWriteByAccessType : Obligations.RegisterWriteByAccessType :=
  ⟨fun _ _ _ value _ hadm hbox hloc hrw => registerWrite_rw value hadm hbox hloc hrw,
    fun _ _ _ value hadm hbox hloc => registerWrite_ignored value hadm hbox hloc,
    fun _ _ _ value _ hadm hbox hloc hacc hne => registerWrite_w1c value hadm hbox hloc hacc hne,
    fun _ _ _ value hruns hthere hform hdenied => registerWrite_denied value hruns hthere hform hdenied⟩

end Sys2Proof.Machine
end

section
/-! PROOFS. Settings that take effect late: the page manager becomes READY, a reserved sequence and the shadow region change (R305, R311, R448). -/

namespace Sys2Proof.Machine

/-! ### A change of registers only -/

theorem Dev.RegsOnly.refl (d : Dev) : d.RegsOnly d := ⟨d.regs, rfl⟩

/-! ### The counts the page manager shows (R312) -/

/-- The registers that show the free counts, and the events. -/
def kvCountRegs : List Nat := [Off.KV_FREE_PAGES, Off.KV_FREE_DIR, Off.KV_FREE_RECORDS, Off.KV_EVENTS]

/-- The free counts written to their registers. -/
def Dev.showCounts (d : Dev) : Dev := ((d.wn Off.KV_FREE_PAGES d.kvFree).wn Off.KV_FREE_DIR d.kvFreeDir).wn Off.KV_FREE_RECORDS d.kvFreeRecs

theorem Dev.showCounts_regsOnly (d : Dev) : d.RegsOnly d.showCounts := (((Dev.RegsOnly.refl d).w _ _).w _ _).w _ _

theorem Dev.showCounts_r_of_not_mem (d : Dev) {o : Nat} (h : o ∉ kvCountRegs) : d.showCounts.r o = d.r o := by
  simp only [kvCountRegs, List.mem_cons, List.not_mem_nil, or_false, not_or] at h
  obtain ⟨hpages, hdir, hrecs, -⟩ := h
  simp only [Dev.showCounts, Dev.wn_r, if_neg hpages, if_neg hdir, if_neg hrecs]

theorem Dev.showCounts_n_freePages (d : Dev) : d.showCounts.n Off.KV_FREE_PAGES = d.kvFree % 2 ^ 64 := by
  have hrecs : Off.KV_FREE_PAGES ≠ Off.KV_FREE_RECORDS := by decide
  have hdir : Off.KV_FREE_PAGES ≠ Off.KV_FREE_DIR := by decide
  rw [Dev.n, Dev.showCounts, Dev.wn_r, if_neg hrecs, Dev.wn_r, if_neg hdir, Dev.wn_r, if_pos rfl, BitVec.toNat_ofNat]

/-- All that showing the counts can leave: nothing done before READY, else the counts, with LOW_WATER set or not. -/
theorem Dev.kvSync_cases (d : Dev) :
    (d.kvReady = false ∧ d.kvSync = d) ∨
      (d.kvReady = true ∧ (d.kvSync = d.showCounts ∨ d.kvSync = d.showCounts.setB Off.KV_EVENTS 0 true)) := by
  cases hready : d.kvReady with
  | false => exact .inl ⟨rfl, if_neg (ne_true_of_eq_false hready)⟩
  | true =>
    refine .inr ⟨rfl, ?_⟩
    rw [Dev.kvSync, if_pos hready]
    exact iteInduction (motive := fun e => e = d.showCounts ∨ e = d.showCounts.setB Off.KV_EVENTS 0 true) (fun _ => .inr rfl) (fun _ => .inl rfl)

theorem Dev.kvSync_regsOnly (d : Dev) : d.RegsOnly d.kvSync := by
  obtain ⟨-, h⟩ | ⟨-, h | h⟩ := d.kvSync_cases
  · rw [h]
    exact Dev.RegsOnly.refl d
  · rw [h]
    exact d.showCounts_regsOnly
  · rw [h]
    exact d.showCounts_regsOnly.w _ _

theorem Dev.kvSync_r_of_not_mem (d : Dev) {o : Nat} (h : o ∉ kvCountRegs) : d.kvSync.r o = d.r o := by
  have hev : o ≠ Off.KV_EVENTS := fun he => h (he ▸ by decide)
  obtain ⟨-, hsync⟩ | ⟨-, hsync | hsync⟩ := d.kvSync_cases
  · rw [hsync]
  · rw [hsync, d.showCounts_r_of_not_mem h]
  · rw [hsync, Dev.setB_r, if_neg hev, d.showCounts_r_of_not_mem h]

theorem Dev.kvSync_n_freePages (d : Dev) (hready : d.kvReady = true) : d.kvSync.n Off.KV_FREE_PAGES = d.kvFree % 2 ^ 64 := by
  have hev : Off.KV_FREE_PAGES ≠ Off.KV_EVENTS := by decide
  obtain ⟨hnot, -⟩ | ⟨-, h | h⟩ := d.kvSync_cases
  · exact absurd hready (ne_true_of_eq_false hnot)
  · rw [h, d.showCounts_n_freePages]
  · rw [h, Dev.n, Dev.setB_r, if_neg hev, ← Dev.n, d.showCounts_n_freePages]

/-! ### KV_INIT_DONE (R311) -/

/-- The page manager READY, before it shows its counts. -/
def Dev.kvInited (d : Dev) : Dev := d.wn Off.KV_STATUS 1

theorem Dev.kvInited_ready (d : Dev) : d.kvInited.kvReady = true := by
  rw [Dev.kvReady, Dev.b, Dev.kvInited, Dev.wn_r, if_pos rfl]
  decide

theorem Dev.kvInited_kvFree (d : Dev) : d.kvInited.kvFree = d.kvFree := by
  have hpool : Off.KV_POOL_PAGES ≠ Off.KV_STATUS := by decide
  rw [Dev.kvFree, Dev.n, Dev.kvInited, Dev.wn_r, if_neg hpool, Dev.wn_kv, ← Dev.n, ← Dev.kvFree]

theorem exec_kvInitDone {s : State} (hinit : s.dev.b Off.KV_STATUS 1 = true) (hen : s.dev.b Off.KV_CTRL 0 = true) :
    exec .kvInitDone s = .next { s with dev := s.dev.kvInited.kvSync } := by
  simp only [exec, execKvInitDone, State.onDev, hinit, hen, Bool.and_self, if_true, Dev.kvInited]

/-- The page manager that initialises becomes READY and shows its counts, in registers only. -/
theorem kvInitDone_ready {s : State} (hinit : s.dev.b Off.KV_STATUS 1 = true) (hen : s.dev.b Off.KV_CTRL 0 = true) :
    ∃ t, exec .kvInitDone s = .next t ∧ t = { s with dev := { s.dev with regs := t.dev.regs } } ∧ t.dev.n Off.KV_STATUS = 1 ∧
      t.dev.n Off.KV_FREE_PAGES = s.dev.kvFree % 2 ^ 64 := by
  obtain ⟨rs, hregs⟩ := s.dev.kvInited.kvSync_regsOnly
  have hstatus : Off.KV_STATUS ∉ kvCountRegs := by decide
  refine ⟨_, exec_kvInitDone hinit hen, ?_, ?_, ?_⟩
  · rw [hregs]
    rfl
  · rw [Dev.n, Dev.kvSync_r_of_not_mem _ hstatus, Dev.kvInited, Dev.wn_r, if_pos rfl]
    rfl
  · rw [Dev.kvSync_n_freePages _ s.dev.kvInited_ready, Dev.kvInited_kvFree]

/-! ### KV_RSV_SEQ_CHANGE (R305) -/

theorem Dev.rsvNamed_eq_false {d : Dev} {r : Nat} (h : ∀ x ∈ d.cmds, ∀ y ∈ x.2.handles, ¬ (isReserved y = true ∧ rsvNum y = r)) : d.rsvNamed r = false := by
  rw [Dev.rsvNamed, List.any_eq_false]
  intro x hx
  rw [Bool.not_eq_true, List.any_eq_false]
  simpa only [Bool.and_eq_true, beq_iff_eq] using h x hx

/-- The applied fields of reserved sequence `r` in force. -/
def Dev.takeRsv (d : Dev) (r : Nat) : Dev := d.onKv (fun k => { k with rsvOld := KMap.del k.rsvOld r })

theorem exec_kvRsvSeqChange {s : State} {r : Nat} (hwaits : (KMap.find s.dev.kv.rsvOld r).isSome = true) (hfree : s.dev.rsvNamed r = false) :
    exec (.kvRsvSeqChange r) s = .next { s with dev := (s.dev.takeRsv r).rsvEmpty r } := by
  unfold Dev.rsvNamed at hfree
  simp only [exec, execKvRsvSeqChange, State.onDev, hwaits, hfree, Bool.not_false, Bool.and_self, if_true, Dev.takeRsv]

@[simp] theorem Dev.rsvEmpty_kv (d : Dev) (r : Nat) : (d.rsvEmpty r).kv = d.kv := rfl

@[simp] theorem Dev.rsvEmpty_cmds (d : Dev) (r : Nat) : (d.rsvEmpty r).cmds = d.cmds := rfl

theorem Dev.takeRsv_find (d : Dev) (r : Nat) : KMap.find (d.takeRsv r).kv.rsvOld r = none :=
  (KMap.find_del ..).trans (if_pos rfl)

/-- The waiting change of a reserved sequence that no command names takes effect. -/
theorem kvRsvSeqChange_taken {s : State} {r : Nat} (hwaits : (KMap.find s.dev.kv.rsvOld r).isSome = true) (hfree : s.dev.rsvNamed r = false) :
    ∃ t, exec (.kvRsvSeqChange r) s = .next t ∧ t = { s with dev := t.dev } ∧ KMap.find t.dev.kv.rsvOld r = none ∧ t.dev.cmds = s.dev.cmds := by
  refine ⟨_, exec_kvRsvSeqChange hwaits hfree, rfl, ?_, ?_⟩
  · rw [Dev.rsvEmpty_kv, Dev.takeRsv_find]
  · rw [Dev.rsvEmpty_cmds]
    rfl

/-! ### LJ_SHADOW_CHANGE (R448) -/

/-- The change taken: the line judge is another one, with nothing waiting, and all else is as it was. -/
theorem Dev.takeShadow_judge_only (d : Dev) : ∃ j : Judge, d.takeShadow = { d with judge := j } ∧ j.shadowPending = false := ⟨_, rfl, rfl⟩

theorem exec_ljShadowChange {s : State} (hwaits : s.dev.judge.shadowPending = true) (hidle : s.dev.safetyRuns = false) :
    exec .ljShadowChange s = .next { s with dev := s.dev.takeShadow } := by
  simp only [exec, execLjShadowChange, State.onDev, Dev.settleShadow, Dev.when, hwaits, hidle, Bool.not_false, Bool.and_self, if_true]

/-- The shadow region's waiting change takes effect while no safety command runs. -/
theorem ljShadowChange_taken {s : State} (hwaits : s.dev.judge.shadowPending = true) (hidle : s.dev.safetyRuns = false) :
    ∃ t, exec .ljShadowChange s = .next t ∧ t = { s with dev := { s.dev with regs := t.dev.regs, judge := t.dev.judge } } ∧
      t.dev.judge.shadowPending = false := by
  obtain ⟨j, htake, hdone⟩ := s.dev.takeShadow_judge_only
  refine ⟨_, exec_ljShadowChange hwaits hidle, ?_, ?_⟩
  · rw [htake]
  · rw [htake, hdone]

/-- Settles O18, each change by the state it leaves where its condition holds. -/
theorem lateRegisterEffects : Obligations.LateRegisterEffects :=
  ⟨fun _ hinit hen => kvInitDone_ready hinit hen,
    fun _ _ hwaits hnone => kvRsvSeqChange_taken hwaits (Dev.rsvNamed_eq_false hnone),
    fun _ hwaits hidle => ljShadowChange_taken hwaits hidle⟩

end Sys2Proof.Machine
end
